-- ==== Sys2Proof/Word.lean ====
section
/-! DEFINITION. The word types of the block and the sparse tables that hold its numbered units. -/
namespace Sys2Proof

/-- A byte, as blocks, packets, datagrams and surfaces carry it. -/
abbrev Byte := BitVec 8
/-- A 32-bit counter or CRC register. -/
abbrev U32 := BitVec 32
/-- A 64-bit counter. -/
abbrev U64 := BitVec 64
/-- A 10-bit line symbol of the 8b/10b code (R51); bit 9 is the symbol's bit a, sent first. -/
abbrev Sym := BitVec 10

/-- A sparse table over unit numbers, in strictly rising order; a number that is not listed reads as the default of its table. -/
abbrev SMap (α : Type) := List (Nat × α)

end Sys2Proof
end

