-- ==== Sys2Proof/Syntax.lean ====
section
/-! DEFINITION. The commands of the block: what the outside world can send to it, one constructor per row of the opcode table. -/
namespace Sys2Proof

/-- A UDP datagram that reached port 51730 (R407): its source, its header fields as received, its parameter bytes.
The opcode is given by the row that carries the datagram. -/
structure Datagram where
  /-- Source address, an IPv4 address as ::ffff:a.b.c.d (R416). -/
  addr : Nat := 0
  /-- Source UDP port. -/
  port : Nat := 0
  /-- Offset 0, 16 bits. -/
  magic : Nat := 0xDA0D
  /-- Offset 2, 8 bits. -/
  version : Nat := 1
  /-- Offset 3, 8 bits: bit 0 reply, bit 1 retransmit, bit 2 group, bit 3 more. -/
  flags : Nat := 0
  /-- Offset 4, 16 bits. -/
  device : Nat := 0xFFFF
  /-- Offset 6, 16 bits. -/
  leaseTag : Nat := 0
  /-- Offset 8, 32 bits. -/
  sequence : BitVec 32 := 0
  /-- Offset 14, 16 bits. -/
  status : Nat := 0
  /-- Offset 16, 16 bits, as sent. -/
  paramLen : Nat := 0
  /-- Offset 18, 6 reserved bytes as one number. -/
  rsvd : Nat := 0
  /-- Bytes of the UDP payload beyond the 24 of the header. -/
  params : List Byte := []
  deriving DecidableEq, Repr

/-- Why a received frame or datagram is no command, no PTP message and no service (R399 to R403, R408). -/
inductive DropCause where
  /-- The frame's FCS is wrong. -/
  | fcs
  /-- The destination MAC address is none of those of R400. -/
  | mac
  /-- The VLAN tag is not the configured one (R401). -/
  | vlan
  /-- An IP fragment (R402). -/
  | fragment
  /-- Any other frame that R403 classes as Other. -/
  | other
  /-- A datagram to port 51730 that R408 does not make a command. -/
  | notCommand
  deriving DecidableEq, Repr

/-- A frame that the IP services of R402 handle. -/
inductive ServiceFrame where
  /-- ARP request for an IPv4 address. -/
  | arpRequest (target : Nat)
  /-- Neighbor solicitation for an IPv6 address. -/
  | neighborSolicit (target : Nat)
  /-- DHCPv4 acknowledgement carrying an address. -/
  | dhcpAck (addr : Nat)
  /-- Router advertisement carrying a 64-bit prefix. -/
  | routerAdvert (prefix64 : Nat)
  /-- ICMP (v6 false) or ICMPv6 echo request. -/
  | echoRequest (v6 : Bool) (data : List Byte)
  /-- IGMPv2 membership query. -/
  | igmpQuery
  /-- MLDv2 query. -/
  | mldQuery
  deriving DecidableEq, Repr

/-- A PTP message of the configured transport (R360). Measured offsets are in units of 2^-16 ns. -/
inductive PtpMsg where
  /-- Announce: domain, priority vector (lower is better), clockIdentity, currentUtcOffset. -/
  | announce (domain rank clockId : Nat) (utcOffset : Int)
  /-- Sync, with its message interval in quarter ps. When one-step, `offset` is the offset computed from it; otherwise the Follow_Up carries
  it. -/
  | sync (domain clockId : Nat) (twoStep : Bool) (interval : Nat) (offset : Int)
  /-- Follow_Up, with the offset computed from it and its Sync. -/
  | followUp (domain clockId : Nat) (offset : Int)
  /-- Delay_Resp or Pdelay_Resp or its Follow_Up: a path-delay measurement. -/
  | delayResp (domain clockId : Nat)
  /-- Pdelay_Req from the link partner. -/
  | pdelayReq (domain : Nat)
  /-- Management, signalling or Delay_Req: not supported, ignored. -/
  | unsupported
  deriving DecidableEq, Repr

/-- A unit at whose own boundary a commit becomes live (R34). -/
inductive UnitId where
  /-- Head; boundary its Midnight point (R256). It also carries the layer slots it shows. -/
  | head (n : Nat)
  /-- Direct route or head route of an egress stream; boundary its take window (R145). -/
  | take (n : Nat)
  /-- Ingress stream setting (R129). -/
  | ingress (n : Nat)
  /-- Egress stream setting (R129). -/
  | egress (n : Nat)
  /-- Capture channel (R174). -/
  | capture (n : Nat)
  /-- Static surface (R182). -/
  | surface (n : Nat)
  /-- Layer slot of no running head (R200). -/
  | slot (n : Nat)
  /-- Embedded audio channel (R287). -/
  | audioChannel (n : Nat)
  /-- Audio clock and packing of an egress stream (R288). -/
  | audioStream (n : Nat)
  /-- Tone generator (R301). -/
  | tone (n : Nat)
  deriving DecidableEq, Repr

/-- A packet as the stream parser delivers it: its type is the row's, `payload` its payload bytes;
`lost` says that a byte of it was lost (R92, R117). -/
structure Packet where
  /-- Payload bytes. -/
  payload : List Byte := []
  /-- A byte of the packet was lost. -/
  lost : Bool := false
  deriving DecidableEq, Repr

/-- What started a hunt for the next packet boundary (R118, R119). -/
inductive HuntCause where
  /-- A packet header whose CRC-8 is wrong. -/
  | headerCrc
  /-- Lost bytes that hold a packet header. -/
  | lostHeader
  /-- A length that the packet's type does not allow. -/
  | badLength
  deriving DecidableEq, Repr

/-- The commands of the block: one constructor for each row of the opcode table, in the table's order.
Every command carries the instant `t` at which it happens (log entry 1). A Daond command carries its datagram;
an event carries what the outside world supplies with it. -/
inductive Instr where
  /-- SYS_INFO (R436): Returns part, revision, device state, time, uptime, firmware versions, serial and MAC address. -/
  | sysInfo (t : Nat) (d : Datagram)
  /-- SYS_PING (R436): Returns the echo value and the current device time. -/
  | sysPing (t : Nat) (d : Datagram)
  /-- SYS_LEASE_ACQUIRE (R417): Grants the controlling lease under a new tag, or refuses it when another holder has it. -/
  | sysLeaseAcquire (t : Nat) (d : Datagram)
  /-- SYS_LEASE_RENEW (R417): Restarts the lease timer and applies a new timeout. -/
  | sysLeaseRenew (t : Nat) (d : Datagram)
  /-- SYS_LEASE_RELEASE (R418): Ends the lease, discarding its open and prepared transactions, its sequence record and its reply cache. -/
  | sysLeaseRelease (t : Nat) (d : Datagram)
  /-- SYS_LEASE_READ (R416): Returns the lease tag, timeout, remaining time and holder. -/
  | sysLeaseRead (t : Nat) (d : Datagram)
  /-- SYS_NET_SET (R406): Stores the network settings and applies them within 100 ms after the reply. -/
  | sysNetSet (t : Nat) (d : Datagram)
  /-- SYS_NET_READ (R406): Returns the network settings and the addresses in use. -/
  | sysNetRead (t : Nat) (d : Datagram)
  /-- SYS_FABRIC_SET_TARGET (R395): Sets the park mode and default master of a fabric target. -/
  | sysFabricSetTarget (t : Nat) (d : Datagram)
  /-- SYS_FABRIC_READ_TARGET (R396): Returns the status record of a fabric target. -/
  | sysFabricReadTarget (t : Nat) (d : Datagram)
  /-- SYS_FABRIC_READ_CLEAR_TARGET (R396): Returns the status record of a fabric target and zeroes its counters. -/
  | sysFabricReadClearTarget (t : Nat) (d : Datagram)
  /-- SYS_FABRIC_SET_MASTER (R395): Sets the best-effort permission of a fabric master from the next window. -/
  | sysFabricSetMaster (t : Nat) (d : Datagram)
  /-- SYS_FABRIC_READ_MASTER (R397): Returns the budgets and counters of a fabric master. -/
  | sysFabricReadMaster (t : Nat) (d : Datagram)
  /-- SYS_FABRIC_READ_CLEAR_MASTER (R397): Returns the record of a fabric master and zeroes its counters. -/
  | sysFabricReadClearMaster (t : Nat) (d : Datagram)
  /-- SYS_WAKE (R514): Starts the wake sequence from sleep, or does nothing outside sleep. -/
  | sysWake (t : Nat) (d : Datagram)
  /-- SYS_COUNTERS (R436): Returns the ten Ethernet and command counters, clearing them if asked. -/
  | sysCounters (t : Nat) (d : Datagram)
  /-- LANE_CONFIG (R50): Sets a lane block's rate code or forces a retrain, stopping the block and starting a cold bring-up. -/
  | laneConfig (t : Nat) (d : Datagram)
  /-- LANE_IDLE_ENTER (R74): Takes a lane or egress bond into Dusk with reason HOST. -/
  | laneIdleEnter (t : Nat) (d : Datagram)
  /-- LANE_IDLE_EXIT (R76): Takes an exit decision for a lane or bond in Dusk and starts a Dawn burst. -/
  | laneIdleExit (t : Nat) (d : Datagram)
  /-- LANE_PRBS (R86): Starts or stops the PRBS generator or checker of one lane direction. -/
  | lanePrbs (t : Nat) (d : Datagram)
  /-- LANE_STATUS (R87): Returns per-lane state and counters, clearing the counters and re-arming the PRBS event if asked. -/
  | laneStatus (t : Nat) (d : Datagram)
  /-- STREAM_CONFIG_INGRESS (R127): Configures, changes or releases an ingress stream with its expected descriptor and checks. -/
  | streamConfigIngress (t : Nat) (d : Datagram)
  /-- STREAM_CONFIG_EGRESS (R439): Configures, changes or releases an egress stream's bond and presentation offset. -/
  | streamConfigEgress (t : Nat) (d : Datagram)
  /-- STREAM_STATUS_INGRESS (R143): Returns the state, held format, timestamps and counters of ingress streams. -/
  | streamStatusIngress (t : Nat) (d : Datagram)
  /-- STREAM_STATUS_EGRESS (R440): Returns the state, demand, capacity and counters of egress streams. -/
  | streamStatusEgress (t : Nat) (d : Datagram)
  /-- ROUTE_TAKE (R144): Admits a change of an egress stream's source, searching take windows or building an auto-sync path. -/
  | routeTake (t : Nat) (d : Datagram)
  /-- ROUTE_STATUS (R156): Returns the route state, delay and last take of egress streams. -/
  | routeStatus (t : Nat) (d : Datagram)
  /-- CAP_CONFIG (R172): Configures, changes or releases a capture channel and its frame ring. -/
  | capConfig (t : Nat) (d : Datagram)
  /-- CAP_STATUS (R178): Returns the newest and writing surfaces and the counters of capture channels. -/
  | capStatus (t : Nat) (d : Datagram)
  /-- SURF_CREATE (R160): Creates an OPEN static surface at a given address and layout. -/
  | surfCreate (t : Nat) (d : Datagram)
  /-- SURF_SEAL (R180): Validates and measures an OPEN static surface and makes it SEALED. -/
  | surfSeal (t : Nat) (d : Datagram)
  /-- SURF_UNSEAL (R181): Returns a SEALED static surface to OPEN. -/
  | surfUnseal (t : Nat) (d : Datagram)
  /-- SURF_DELETE (R181): Removes an OPEN, SEALED or failed-freeze static surface. -/
  | surfDelete (t : Nat) (d : Datagram)
  /-- SURF_STATUS (R160): Returns the descriptor records of surfaces. -/
  | surfStatus (t : Nat) (d : Datagram)
  /-- LAYER_CONFIG (R198): Configures, hides or releases a layer slot with its placement, policies and frame-sync block. -/
  | layerConfig (t : Nat) (d : Datagram)
  /-- LAYER_LUT_LOAD (R209): Loads one component's host LUT of a slot as a staged operation. -/
  | layerLutLoad (t : Nat) (d : Datagram)
  /-- LAYER_LUT_READ (R209): Returns the 1,025 points of a slot's LUT table. -/
  | layerLutRead (t : Nat) (d : Datagram)
  /-- LAYER_MATRIX (R212): Loads a slot's colour matrix as a staged operation. -/
  | layerMatrix (t : Nat) (d : Datagram)
  /-- LAYER_SYNTH (R215): Sets a slot's synthetic source as a staged operation. -/
  | layerSynth (t : Nat) (d : Datagram)
  /-- LAYER_SCALER_SET (R229): Sets a slot's kernels and offsets as a staged operation. -/
  | layerScalerSet (t : Nat) (d : Datagram)
  /-- LAYER_SCALER_READ (R229): Returns a slot's scaler settings and line-buffer holdings. -/
  | layerScalerRead (t : Nat) (d : Datagram)
  /-- LAYER_SCALER_READ_CLEAR (R229): Returns a slot's scaler settings and zeroes short_buffer_frames. -/
  | layerScalerReadClear (t : Nat) (d : Datagram)
  /-- LAYER_COEFF_LOAD (R232): Loads one direction's host coefficient table of a slot as a staged operation. -/
  | layerCoeffLoad (t : Nat) (d : Datagram)
  /-- LAYER_COEFF_READ (R232): Returns the coefficients of one kernel table of a slot. -/
  | layerCoeffRead (t : Nat) (d : Datagram)
  /-- LAYER_STATUS (R203): Returns layer state and frame-sync counters, clearing them if asked. -/
  | layerStatus (t : Nat) (d : Datagram)
  /-- HEAD_TIMING (R247): Starts, changes or releases a head's raster as a staged operation. -/
  | headTiming (t : Nat) (d : Datagram)
  /-- HEAD_COLOUR (R222): Sets a head's output colour format, matrix and background as a staged operation. -/
  | headColour (t : Nat) (d : Datagram)
  /-- HEAD_SR_ENTER (R269): Stages a head's entry into self-refresh with or without Dusk. -/
  | headSrEnter (t : Nat) (d : Datagram)
  /-- HEAD_SR_EXIT (R269): Stages a head's exit from self-refresh. -/
  | headSrExit (t : Nat) (d : Datagram)
  /-- HEAD_STATUS (R275): Returns head state, raster instants and counters, clearing them if asked. -/
  | headStatus (t : Nat) (d : Datagram)
  /-- AUDIO_CHANNEL (R284): Configures or releases one embedded channel's source, conversion and delay. -/
  | audioChannel (t : Nat) (d : Datagram)
  /-- AUDIO_STREAM (R288): Sets the audio clock TC, rates and widths of an egress stream's groups. -/
  | audioStream (t : Nat) (d : Datagram)
  /-- AUDIO_TONE (R301): Configures one tone generator. -/
  | audioTone (t : Nat) (d : Datagram)
  /-- AUDIO_STATUS (R305): Returns embedded channel state, delay and counters, clearing them if asked. -/
  | audioStatus (t : Nat) (d : Datagram)
  /-- REF_CONFIG (R309): Configures, enables or disables one reference and its monitor limits. -/
  | refConfig (t : Nat) (d : Datagram)
  /-- REF_SELECT_SET (R320): Sets a TC's selection mode, priority list and policies, deciding at once. -/
  | refSelectSet (t : Nat) (d : Datagram)
  /-- REF_SELECT_READ (R337): Returns a TC's selection settings and status. -/
  | refSelectRead (t : Nat) (d : Datagram)
  /-- REF_ACCEPT (R335): Ends a TC's JUMP_WAIT with a switch to the held reference under the named action. -/
  | refAccept (t : Nat) (d : Datagram)
  /-- REF_REALIGN (R336): Slews a tracking TC's build-out offset to zero. -/
  | refRealign (t : Nat) (d : Datagram)
  /-- REF_STATUS (R319): Returns reference state, last gate result and counters, clearing them if asked. -/
  | refStatus (t : Nat) (d : Datagram)
  /-- TC_CONFIG_SET (R342): Sets a TC's set frequency, loop bandwidths and lock limit. -/
  | tcConfigSet (t : Nat) (d : Datagram)
  /-- TC_CONFIG_READ (R341): Returns a TC's loop settings in force. -/
  | tcConfigRead (t : Nat) (d : Datagram)
  /-- TC_STATUS (R347): Returns a TC's lock state, offsets and cycle count, clearing lock_losses if asked. -/
  | tcStatus (t : Nat) (d : Datagram)
  /-- CLK_CONFIG_SET (R348): Claims and sets a clock output's TC, divider, delays, drive and trace. -/
  | clkConfigSet (t : Nat) (d : Datagram)
  /-- CLK_CONFIG_READ (R348): Returns a clock output's settings. -/
  | clkConfigRead (t : Nat) (d : Datagram)
  /-- CLK_CONFIG_RELEASE (R349): Frees a clock output and holds it low. -/
  | clkConfigRelease (t : Nat) (d : Datagram)
  /-- CLK_TPIN_SET (R358): Claims a timing pin and sets its role. -/
  | clkTpinSet (t : Nat) (d : Datagram)
  /-- CLK_TPIN_READ (R358): Returns a timing pin's role. -/
  | clkTpinRead (t : Nat) (d : Datagram)
  /-- CLK_TPIN_RELEASE (R358): Frees a timing pin. -/
  | clkTpinRelease (t : Nat) (d : Datagram)
  /-- CLK_CALIBRATE (R352): Recalibrates the internal paths of every CKO and FPO. -/
  | clkCalibrate (t : Nat) (d : Datagram)
  /-- FP_CONFIG_SET (R353): Claims and sets a frame-pulse output's TC, mode, rate, width and anchor. -/
  | fpConfigSet (t : Nat) (d : Datagram)
  /-- FP_CONFIG_READ (R353): Returns a frame-pulse output's settings. -/
  | fpConfigRead (t : Nat) (d : Datagram)
  /-- FP_CONFIG_RELEASE (R349): Frees a frame-pulse output and holds it inactive. -/
  | fpConfigRelease (t : Nat) (d : Datagram)
  /-- FP_REALIGN (R355): Schedules realignment of COMMANDED frame-pulse outputs at a device time. -/
  | fpRealign (t : Nat) (d : Datagram)
  /-- FP_STATUS (R357): Returns a frame-pulse output's mode, last pulse and pending realignment. -/
  | fpStatus (t : Nat) (d : Datagram)
  /-- TIME_CONFIG (R359): Sets the discipline source and servo parameters of device time. -/
  | timeConfig (t : Nat) (d : Datagram)
  /-- TIME_SET_NEXT_PULSE (R363): Assigns a seconds value to the next PPS pulse at least 10 ms later. -/
  | timeSetNextPulse (t : Nat) (d : Datagram)
  /-- TIME_SET_STEP (R363): Schedules a step of device time to a given value at an epoch boundary. -/
  | timeSetStep (t : Nat) (d : Datagram)
  /-- TIME_STATUS (R365): Returns device time, servo state and PTP status. -/
  | timeStatus (t : Nat) (d : Datagram)
  /-- STAGE_OPEN (R423): Opens a staged transaction for the lease. -/
  | stageOpen (t : Nat) (d : Datagram)
  /-- STAGE_ADD (R424): Appends operation records to the open transaction. -/
  | stageAdd (t : Nat) (d : Datagram)
  /-- STAGE_COMMIT_IMMEDIATE (R425): Admits the open transaction and arms it with E computed from the settle margin. -/
  | stageCommitImmediate (t : Nat) (d : Datagram)
  /-- STAGE_COMMIT_TIMED (R425): Admits the open transaction as a timed commit at the given execution time. -/
  | stageCommitTimed (t : Nat) (d : Datagram)
  /-- STAGE_COMMIT_PREPARE (R427): Admits the open transaction as a prepared transaction awaiting a group commit. -/
  | stageCommitPrepare (t : Nat) (d : Datagram)
  /-- STAGE_ABORT_OPEN (R428): Discards the open transaction. -/
  | stageAbortOpen (t : Nat) (d : Datagram)
  /-- STAGE_ABORT_PREPARED (R428): Discards a prepared transaction and frees its reservations. -/
  | stageAbortPrepared (t : Nat) (d : Datagram)
  /-- STAGE_STATUS (R428): Returns the open and prepared transactions and pending commits. -/
  | stageStatus (t : Nat) (d : Datagram)
  /-- GROUP_COMMIT (R430): Turns a member's prepared transaction into a timed commit at the given time. -/
  | groupCommit (t : Nat) (d : Datagram)
  /-- EVENT_POLL (R453): Returns a snapshot bitmap of changed event sources with their details. -/
  | eventPoll (t : Nat) (d : Datagram)
  /-- EVENT_LOG (R455): Returns entries of the event log from a given sequence. -/
  | eventLog (t : Nat) (d : Datagram)
  /-- EVENT_LEDGER (R457): Returns commit ledger entries, optionally filtered by generation. -/
  | eventLedger (t : Nat) (d : Datagram)
  /-- PROBE_CONFIG (R459): Enables a stream probe and sets its statistics window from the next frame. -/
  | probeConfig (t : Nat) (d : Datagram)
  /-- PROBE_FREEZE_ARM (R461): Arms the freeze capture of a stream into a static surface with a trigger. -/
  | probeFreezeArm (t : Nat) (d : Datagram)
  /-- PROBE_FREEZE_CANCEL (R461): Cancels the armed freeze capture. -/
  | probeFreezeCancel (t : Nat) (d : Datagram)
  /-- PROBE_STATUS (R463): Returns a probe's measurements of the last frame and the freeze state. -/
  | probeStatus (t : Nat) (d : Datagram)
  /-- BULK_WRITE (R433): Writes data into the frame store or firmware staging through ETHDMA. -/
  | bulkWrite (t : Nat) (d : Datagram)
  /-- BULK_READ (R433): Reads data from the frame store, firmware staging or report space. -/
  | bulkRead (t : Nat) (d : Datagram)
  /-- FW_STATUS (R485): Returns bundle state, fused epoch and per-component slot states. -/
  | fwStatus (t : Nat) (d : Datagram)
  /-- FW_INSTALL_MANIFEST (R477): Verifies a staged manifest and makes it the pending manifest. -/
  | fwInstallManifest (t : Nat) (d : Datagram)
  /-- FW_INSTALL_IMAGE (R477): Verifies a staged image and writes it into its component's inactive slot. -/
  | fwInstallImage (t : Nat) (d : Datagram)
  /-- FW_ACTIVATE (R478): Starts activating the pending bundle's entries in manifest order. -/
  | fwActivate (t : Nat) (d : Datagram)
  /-- FW_CONFIRM (R480): Host confirmation of a component on trial. -/
  | fwConfirm (t : Nat) (d : Datagram)
  /-- FW_REVERT (R482): Reverts the current or completed bundle to the previous slots. -/
  | fwRevert (t : Nat) (d : Datagram)
  /-- SET_STATUS (R490): Returns the state of the settings-store copies and pending write. -/
  | setStatus (t : Nat) (d : Datagram)
  /-- SET_READ (R492): Reads bytes of a settings section. -/
  | setRead (t : Nat) (d : Datagram)
  /-- SET_WRITE (R492): Writes bytes of a writable settings section and makes the store pending. -/
  | setWrite (t : Nat) (d : Datagram)
  /-- SET_PRESET_SAVE (R494): Stores the open transaction's operations as a routing preset. -/
  | setPresetSave (t : Nat) (d : Datagram)
  /-- SET_PRESET_LOAD (R494): Commits a routing preset as one transaction. -/
  | setPresetLoad (t : Nat) (d : Datagram)
  /-- SEC_STATUS (R499): Returns service-plane, password, back-off and attestation status. -/
  | secStatus (t : Nat) (d : Datagram)
  /-- SEC_UNLOCK_PASSWORD (R497): Opens the REGISTERS and EYE scopes with the owner password. -/
  | secUnlockPassword (t : Nat) (d : Datagram)
  /-- SEC_UNLOCK_RESPONSE (R497): Opens service scopes with a vendor-signed response to the current challenge. -/
  | secUnlockResponse (t : Nat) (d : Datagram)
  /-- SEC_SEAL (R495): Seals the service plane. -/
  | secSeal (t : Nat) (d : Datagram)
  /-- SEC_PASSWORD_SET (R496): Stores a salted hash of a new owner password. -/
  | secPasswordSet (t : Nat) (d : Datagram)
  /-- SEC_PASSWORD_CLEAR (R496): Clears the owner password. -/
  | secPasswordClear (t : Nat) (d : Datagram)
  /-- SEC_CHALLENGE (R497): Issues a new unlock nonce with serial and identity hash. -/
  | secChallenge (t : Nat) (d : Datagram)
  /-- SEC_ATTEST (R502): Signs an attestation report with the identity key into the report space. -/
  | secAttest (t : Nat) (d : Datagram)
  /-- POWER_STATUS (R523): Returns power state, reset cause, domains and temperatures. -/
  | powerStatus (t : Nat) (d : Datagram)
  /-- POWER_SLEEP (R511): Starts sleep entry unless refused. -/
  | powerSleep (t : Nat) (d : Datagram)
  /-- POWER_DOMAIN_ON (R507): Switches a configurable power domain on. -/
  | powerDomainOn (t : Nat) (d : Datagram)
  /-- POWER_DOMAIN_OFF (R508): Switches a configurable power domain off unless it serves a configured unit. -/
  | powerDomainOff (t : Nat) (d : Datagram)
  /-- POWER_DOMAIN_READ (R507): Returns a power domain's state. -/
  | powerDomainRead (t : Nat) (d : Datagram)
  /-- SVC_REG_READ (R500): Reads configuration registers through the open service plane. -/
  | svcRegRead (t : Nat) (d : Datagram)
  /-- SVC_REG_WRITE (R500): Writes configuration registers directly, bypassing admission. -/
  | svcRegWrite (t : Nat) (d : Datagram)
  /-- SVC_EYE (R500): Returns an eye scan of one lane from the auxiliary sampler. -/
  | svcEye (t : Nat) (d : Datagram)
  /-- SVC_MARGIN (R500): Returns the timing and voltage margins of one lane. -/
  | svcMargin (t : Nat) (d : Datagram)
  /-- ETHERNET_FRAME_DISCARDED (R403): A received frame or datagram that is not PTP, Daond or a service is discarded and counted. -/
  | ethernetFrameDiscarded (t : Nat) (cause : DropCause)
  /-- RX_OVERFLOW (R444): A datagram arriving with a full receive queue is discarded and counted. -/
  | rxOverflow (t : Nat)
  /-- SERVICE_FRAME (R402): An ARP, ND, DHCPv4, router advertisement, echo or group query frame is handled by CORE.C. -/
  | serviceFrame (t : Nat) (f : ServiceFrame)
  /-- PTP_MESSAGE (R360): A PTP message is time-stamped and processed by the time-receiver port. -/
  | ptpMessage (t : Nat) (m : PtpMsg)
  /-- PTP_SYNC_TIMEOUT (R362): Loss of Sync or of the time-receiver state puts device time and VREF_PTP into holdover. -/
  | ptpSyncTimeout (t : Nat)
  /-- ETHERNET_LINK_CHANGE (R451): The Ethernet link goes up or down. -/
  | ethernetLinkChange (t : Nat) (up : Bool)
  /-- LEASE_TIMEOUT (R417): The lease ends when its timeout passes without a command under it. -/
  | leaseTimeout (t : Nat)
  /-- STAGE_EXPIRED (R427): A prepared transaction whose hold time passes is discarded. -/
  | stageExpired (t : Nat) (group : Nat)
  /-- EPOCH_BOUNDARY (R29): The time bus sends every replica the boundary time and rate word, applying any scheduled step. -/
  | epochBoundary (t : Nat)
  /-- REPLICA_RECALIBRATION (R31): CORE.T recalibrates every time-bus replica every 10 s. -/
  | replicaRecalibration (t : Nat)
  /-- BUDGET_WINDOW (R384): At each 1,280-cycle window boundary every master's credit is replenished and new budgets take effect. -/
  | budgetWindow (t : Nat)
  /-- COMMIT_EFFECTIVE_TIME (R34): A unit whose boundary is the first CORE cycle at or after E makes its shadow live. -/
  | commitEffectiveTime (t : Nat) (u : UnitId)
  /-- BLOCK_RECEIVED (R65): A 64-symbol block received on a lane advances alignment, bonding, deskew and stream byte delivery. -/
  | blockReceived (t : Nat) (lane : Fin 512) (syms : List Sym)
  /-- SIGNAL_LOSS (R65): The input stays below signal detect for 32 symbol times, taking the lane to IDLE or HUNT. -/
  | signalLoss (t : Nat) (lane : Fin 512)
  /-- SIGNAL_DETECT (R65): Signal returns on an idle lane, which starts RELOCK. -/
  | signalDetect (t : Nat) (lane : Fin 512)
  /-- RELOCK_TIMEOUT (R65): RELOCK does not reach LOCKED within 24 block times and the lane falls to HUNT. -/
  | relockTimeout (t : Nat) (lane : Fin 512)
  /-- CDR_LOCK (R72): A lane's CDR locks to the incoming signal so HUNT can find a comma. -/
  | cdrLock (t : Nat) (lane : Fin 512)
  /-- PRBS_SYNC (R85): The PRBS checker declares sync after 64 error-free bits. -/
  | prbsSync (t : Nat) (lane : Fin 512) (bits : List Bool)
  /-- PRBS_SYNC_LOSS (R85): The PRBS checker loses sync at 16 errors within 64 bits and reseeds. -/
  | prbsSyncLoss (t : Nat) (lane : Fin 512) (bits : List Bool)
  /-- EV_LANE_PRBS (R85): prbs_errors reaches prbs_threshold and the event occurs once. -/
  | evLanePrbs (t : Nat) (lane : Fin 512) (bits : List Bool)
  /-- TX_PLL_LOCK (R60): A lane block's TX PLL locks and its TX directions start with ALIGN then TRAIN. -/
  | txPllLock (t : Nat) (block : Fin 16)
  /-- TRAIN_PERIOD_END (R73): The 1 ms TRAIN period ends and the TX direction sends DATA, NULL or enters Dusk. -/
  | trainPeriodEnd (t : Nat) (lane : Fin 512)
  /-- DUSK_DWELL_END (R75): The 500 ns minimum Dusk dwell ends, releasing a held exit decision. -/
  | duskDwellEnd (t : Nat) (lane : Fin 512)
  /-- DAWN_BURST_END (R77): Block 16 of a Dawn burst has been sent and the ALIGN cadence restarts. -/
  | dawnBurstEnd (t : Nat) (lane : Fin 512)
  /-- SK_REFCLK_LOSS (R548): A lane reference clock stops and its block is held idle and reported DOWN. -/
  | skRefclkLoss (t : Nat) (block : Fin 16)
  /-- SK_REFCLK_RETURN (R548): A lane reference clock returns and its block performs a cold bring-up. -/
  | skRefclkReturn (t : Nat) (block : Fin 16)
  /-- FORMAT (R130): A received FORMAT packet is validated and judged against the expected descriptor. -/
  | format (t : Nat) (stream : Fin 512) (p : Packet)
  /-- FRAME_START (R139): A received FRAME_START is time-stamped, period-checked and starts capture and forwarding of a frame. -/
  | frameStart (t : Nat) (stream : Fin 512) (p : Packet)
  /-- VIDEO_LINE (R103): A received VIDEO_LINE is checked, captured and forwarded. -/
  | videoLine (t : Nat) (stream : Fin 512) (p : Packet)
  /-- FRAME_END (R117): A received FRAME_END completes a frame, checks CRCs and completes its capture surface. -/
  | frameEnd (t : Nat) (stream : Fin 512) (p : Packet)
  /-- AUDIO (R281): A received AUDIO packet is forwarded or extracted into the delay store. -/
  | audio (t : Nat) (stream : Fin 512) (p : Packet)
  /-- CLOCK_INFO (R108): A received CLOCK_INFO packet is forwarded and serves a lane-recovered reference. -/
  | clockInfo (t : Nat) (stream : Fin 512) (p : Packet)
  /-- AUX (R109): A received AUX packet is forwarded in order. -/
  | aux (t : Nat) (stream : Fin 512) (p : Packet)
  /-- SR_ENTER (R124): A received SR_ENTER puts the ingress stream in self-refresh and is forwarded. -/
  | srEnter (t : Nat) (stream : Fin 512) (p : Packet)
  /-- SR_EXIT (R132): A received SR_EXIT returns the ingress stream to LOCKED and is forwarded. -/
  | srExit (t : Nat) (stream : Fin 512) (p : Packet)
  /-- IDLE (R110): A received IDLE packet is discarded. -/
  | idle (t : Nat) (stream : Fin 512) (p : Packet)
  /-- RESERVED_TYPE_PACKET (R117): A packet of reserved type is skipped by its length and counted. -/
  | reservedTypePacket (t : Nat) (stream : Fin 512) (ptype : Nat) (p : Packet)
  /-- PACKET_HUNT (R118): After a loss the receiver searches and confirms the next packet boundary. -/
  | packetHunt (t : Nat) (stream : Fin 512) (cause : HuntCause) (run : List Byte)
  /-- FRAME_START_TIMEOUT (R132): No FRAME_START for 2.5 frame periods takes a LOCKED stream to SEARCH. -/
  | frameStartTimeout (t : Nat) (stream : Fin 512)
  /-- EXCESS_WINDOW (R138): Each two-frame window of the excess monitor ends and is checked against its limit. -/
  | excessWindow (t : Nat) (stream : Fin 512)
  /-- TAKE_WINDOW (R148): A take executes at its window, switching the egress stream to the new source. -/
  | takeWindow (t : Nat) (egress : Fin 512)
  /-- TAKE_NOT_EXECUTED (R150): No take window qualifies before E plus four periods and the take fails. -/
  | takeNotExecuted (t : Nat) (egress : Fin 512)
  /-- MIDNIGHT_POINT (R256): At a head's Midnight point commits become live, layers select and the next prefetch starts. -/
  | midnightPoint (t : Nat) (head : Fin 256)
  /-- FRAME_START_DECISION (R260): At a candidate instant a VARIABLE head decides whether its gated layers allow the next frame to start. -/
  | frameStartDecision (t : Nat) (head : Fin 256)
  /-- ACTIVE_START (R255): At a head's active start FORMAT and FRAME_START are handed to the crosspoint. -/
  | activeStart (t : Nat) (head : Fin 256)
  /-- LINE_START (R253): At each raster line a head composites and emits the line's VIDEO_LINE packets. -/
  | lineStart (t : Nat) (head : Fin 256) (line : Nat) (missing : Option Nat)
  /-- HEAD_FRAME_END (R255): At M plus 6 µs a head hands FRAME_END, and any SR_ENTER, to the crosspoint. -/
  | headFrameEnd (t : Nat) (head : Fin 256)
  /-- CLOCK_INFO_SEND (R108): Each whole millisecond a head-sourced egress stream sends CLOCK_INFO. -/
  | clockInfoSend (t : Nat) (egress : Fin 512)
  /-- AUDIO_ABSENCE (R282): No packet of a group for 2 ms makes its extracted channels absent. -/
  | audioAbsence (t : Nat) (stream : Fin 512) (group : Fin 4)
  /-- AUDIO_WINDOW (R290): Each 500 µs window the engine builds AUDIO packets and marks late samples. -/
  | audioWindow (t : Nat) (egress : Fin 512)
  /-- AUDIO_BOUNDARY (R287): An audio channel or stream setting becomes live at its first sample or window at or after E. -/
  | audioBoundary (t : Nat) (egress : Fin 512) (channel : Option (Fin 32))
  /-- AUDIO_RATE_MEASUREMENT (R298): Once per second the rate offset is measured and the path may change. -/
  | audioRateMeasurement (t : Nat) (egress : Fin 512) (channel : Fin 32)
  /-- SRC_REACQUIRED (R300): A channel's SRC completes reacquisition after a start or change. -/
  | srcReacquired (t : Nat) (egress : Fin 512) (channel : Fin 32)
  /-- AUDIO_SWITCH_POINT (R303): A channel's source changes at its switch point with the chosen transition. -/
  | audioSwitchPoint (t : Nat) (egress : Fin 512) (channel : Fin 32)
  /-- TRANSITION_END (R304): A fade or crossfade completes and deferred steps may run. -/
  | transitionEnd (t : Nat) (egress : Fin 512) (channel : Fin 32)
  /-- REF_ACTIVITY_LOSS (R313): A reference loses activity and is disqualified. -/
  | refActivityLoss (t : Nat) (ref : Fin 41)
  /-- REF_ACTIVITY_RETURN (R313): Activity returns on a reference, which goes to OUT_OF_RANGE. -/
  | refActivityReturn (t : Nat) (ref : Fin 41)
  /-- REF_GATE_END (R315): A frequency gate yields a result that may qualify or reject a reference. -/
  | refGateEnd (t : Nat) (ref : Fin 41)
  /-- QUALIFICATION_TIMER (R315): A QUALIFYING reference's timer reaches qual_time_ms and it becomes QUALIFIED. -/
  | qualificationTimer (t : Nat) (ref : Fin 41)
  /-- WAIT_TO_RESTORE_EXPIRY (R322): A reference's wait-to-restore expires and revertive selection is decided. -/
  | waitToRestoreExpiry (t : Nat) (tc : Fin 8) (ref : Fin 41)
  /-- REF_PHASE_SAMPLE (R317): A pulse-type reference phase sample is tested for jumps and feeds the loop. -/
  | refPhaseSample (t : Nat) (ref : Fin 41) (edges : Nat)
  /-- HANDOVER (R325): A switch measurement ends and the TC closes its loop on the target with a new build-out. -/
  | handover (t : Nat) (tc : Fin 8)
  /-- SLEW_END (R334): A build-out slew reaches its final value. -/
  | slewEnd (t : Nat) (tc : Fin 8)
  /-- HISTORY_BIN (R329): Once per second each TC's history bin and holdover frequency are recorded. -/
  | historyBin (t : Nat) (tc : Fin 8)
  /-- STORED_FREQUENCY (R332): Hourly each TC's holdover frequency is written to the TC_FREQ section. -/
  | storedFrequency (t : Nat)
  /-- LOCK_GATE (R345): A TC's lock gate ends and its lock state may change. -/
  | lockGate (t : Nat) (tc : Fin 8)
  /-- REALIGNMENT (R355): At time T the named COMMANDED FPOs place pulse 0 and start their new grid. -/
  | realignment (t : Nat)
  /-- MASTER_RESET (R382): A fabric master that stalls 10 µs or is ordered reset is blocked and drained. -/
  | masterReset (t : Nat) (master : Fin 54) (cause : Fin 4)
  /-- DRAIN_COMPLETE (R382): A reset master's drain ends and the master is unblocked. -/
  | drainComplete (t : Nat) (master : Fin 54)
  /-- EV_FABRIC_LATE (R386): A budgeted request waits more than 16 windows. -/
  | evFabricLate (t : Nat) (master : Fin 54) (port : Fin 16)
  /-- RESET_N_RISE (R474): RESET_N rises, straps are sampled and the boot ROM starts the boot sequence. -/
  | resetNRise (t : Nat) (straps : BitVec 8)
  /-- BOOT_READY (R474): Boot completes, the power-up preset is committed and the device becomes READY. -/
  | bootReady (t : Nat)
  /-- RESET_N_FALL (R519): RESET_N held low for at least 1 µs resets the device. -/
  | resetNFall (t : Nat) (widthNs : Nat)
  /-- PWR_OK_FALL (R520): PWR_OK falls while RESET_N is high and the device enters reset as a power loss. -/
  | pwrOkFall (t : Nat)
  /-- OSC_LOSS (R548): OSC shows no edge for 1 µs and the device enters reset. -/
  | oscLoss (t : Nat)
  /-- OSC_RESTORED (R548): OSC has been within limits for 1 ms and the device boots. -/
  | oscRestored (t : Nat)
  /-- ETH_REFCLK_LOSS (R548): ETH_REFCLK stops, taking the link down or freezing the sleep counter. -/
  | ethRefclkLoss (t : Nat)
  /-- SLEEP_ENTRY_COMPLETE (R512): Sleep entry completes, domains are off and dev_state becomes SLEEP. -/
  | sleepEntryComplete (t : Nat)
  /-- WAKE_COMPLETE (R514): The wake sequence completes and dev_state becomes READY. -/
  | wakeComplete (t : Nat)
  /-- DOMAIN_SWITCHED (R507): A power domain reaches its new state and the reply is sent. -/
  | domainSwitched (t : Nat) (domain : Fin 30)
  /-- THERMAL_SAMPLE (R522): Each 1 ms sensor reading updates Tj and warning, refresh, hold and trip conditions. -/
  | thermalSample (t : Nat) (die : List Int) (hbm : List Int)
  /-- THERMAL_CRITICAL (R522): Tj above 110 °C for 10 ms forces sleep entry and a thermal hold. -/
  | thermalCritical (t : Nat)
  /-- WATCHDOG_RESET (R42): A core's watchdog expires and that core restarts with the stated effects. -/
  | watchdogReset (t : Nat) (core : Fin 3)
  /-- TRIAL_TIMEOUT (R481): A component's trial ends unconfirmed and the bundle reverts. -/
  | trialTimeout (t : Nat)
  /-- SELF_CONFIRMATION (R480): A component on trial passes its health checks and confirms itself. -/
  | selfConfirmation (t : Nat) (component : Fin 6)
  /-- QUEUE_WAIT_END (R479): CORE.M's wait for an empty commit queue ends and it restarts from its new slot. -/
  | queueWaitEnd (t : Nat)
  /-- SETTINGS_WRITE_START (R489): A pending settings change starts its write to the older copy 10 s after the previous write. -/
  | settingsWriteStart (t : Nat)
  /-- SETTINGS_WRITE_COMPLETE (R489): A settings copy write completes. -/
  | settingsWriteComplete (t : Nat)
  /-- NONCE_EXPIRY (R497): An unlock challenge nonce expires 300 s after issue. -/
  | nonceExpiry (t : Nat)
  /-- BACKOFF_END (R498): The password back-off period ends. -/
  | backoffEnd (t : Nat)
  /-- SERVICE_PLANE_EXPIRY (R495): An open service plane seals at the end of its unlock duration. -/
  | servicePlaneExpiry (t : Nat)
  /-- CORE_RESTART_COMPLETE (R42): A core restarted by its watchdog, or by a firmware activation, is running again: CORE.C answers queued datagrams, CORE.T resumes decisions, CORE.M recomputes budgets and the lease timer resumes. -/
  | coreRestartComplete (t : Nat) (core : Fin 3)
  /-- UNKNOWN_OPCODE (R442): A Daond command whose opcode is not assigned is answered ST_UNKNOWN_OPCODE. -/
  | unknownOpcode (t : Nat) (opcode : Nat) (d : Datagram)
  /-- FRAME_PULSE (R354): A running FPO reaches the next pulse on its grid, drives the pulse and advances its pulse count and last-pulse time. -/
  | framePulse (t : Nat) (fpo : Fin 32)
  /-- SCRUBBING (R392): A memory controller's class-3 scrub read finds a corrected or uncorrectable ECC error, counting it and raising EV.MEM.ECC. -/
  | scrubbing (t : Nat) (port : Fin 16) (offset : Nat) (uncorrectable : Bool)
  /-- JTAG_TAP_ACCESS (R544): The board drives the JTAG TAP, which answers BYPASS and IDCODE, or gives full access while the JTAG scope is open. -/
  | jtagTapAccess (t : Nat) (ir : Nat) (tdi : List Bool)
  deriving DecidableEq, Repr

end Sys2Proof
end

