-- ==== Sys2Proof/Config.lean ====
section
/-! DEFINITION. The free values: what the spec leaves open, as constants without a body, so that nothing can be proved of them
and every statement holds whatever they are. Each is named in an entry of the assumption log. -/
namespace Sys2Proof.Config
open Sys2Proof

/-- SHAKE256 with 32 bytes of output (R468): a function of its input that the spec names and does not define (log entry 7). -/
opaque shake256 : List Byte → List Byte
/-- Whether an XMSS-SHAKE256_20_256 signature over a message verifies under a public key (R470; log entry 7). -/
opaque xmssVerify : (key msg sig : List Byte) → Bool
/-- The XMSS^MT signature of the identity key with an index over a message (R501; log entry 7). -/
opaque xmssSign : (index : Nat) → (msg : List Byte) → List Byte
/-- Random bytes the device draws: salts and nonces (R496, R497; log entry 9). -/
opaque random : (draw : Nat) → List Byte
/-- The tag of a new lease, before the rules of R417 are applied (log entry 9). -/
opaque leaseTag : (draw : Nat) → Nat
/-- A value the spec leaves undefined after an operation that goes on (log entry 5). -/
opaque freeByte : (draw : Nat) → Byte
/-- A number the spec leaves undefined or measures without saying how (log entry 5). -/
opaque freeNat : (draw : Nat) → Nat
/-- A signed number the spec leaves undefined or measures without saying how (log entry 5). -/
opaque freeInt : (draw : Nat) → Int
/-- How often the fabric holds a request back before it grants it (R379), which rests on what else is outstanding (log entry 38). -/
opaque holdBacks : (draw : Nat) → Nat
/-- Whether a RESET_N pulse of 100 ns to 1 us is taken as a reset (R519). -/
opaque resetGlitch : (widthNs : Nat) → Bool
/-- Value of a CFG register that SVC.REG_WRITE has not written (R500; log entry 12). -/
opaque cfgRegister : (address : Nat) → BitVec 32
/-- Base delay of a direct route in picoseconds, from ingress and egress rate codes and bond sizes (R20). -/
opaque baseDelayPs : (inRate inBond outRate outBond : Nat) → Nat
/-- Time from a head's hand-over to the crosspoint to the device ball of an egress stream, in quarter picoseconds, before the
bound of R255 is applied (log entry 5). -/
opaque egressLatency : (egress : Nat) → Nat
/-- Fuses and flash of this device: serial (16 bytes) and MAC address (log entry 11). -/
opaque serial : List Byte
/-- The fused MAC address (R400). -/
opaque mac : Nat
/-- The two fused root-key hashes (R471; log entry 11). -/
opaque rootHash : (slot : Nat) → List Byte
/-- The identity public key, 68 bytes (R501, R502; log entry 11). -/
opaque identityKey : List Byte
/-- The OID that NIST SP 800-208 assigns to XMSS-SHAKE256_20_256 (R470; log entry 7). -/
opaque xmssOid : Nat
/-- Whether an image written to flash reads back as it was written (R477; log entry 5). -/
opaque flashReadBack : (draw : Nat) → Bool
/-- One sample of the asynchronous sample-rate converter (R299): the spec gives its accuracy, not its filter. -/
opaque srcSample : (history : List (Int × Int)) → (position : Int) → Int

/-- Time from the exit decision of a Dusk to the first symbol of the Dawn burst, in quarter picoseconds, by lane block, before the bound of
100 ns of R76 is applied (log entry 5). -/
opaque burstDelay : (block : Nat) → Nat

/-- Internal path of a clock or frame-pulse output as loop-back finds it, in quarter picoseconds (R352; log entry 45). -/
opaque outputPath : (draw output : Nat) → Nat
/-- Path delay of a time-bus replica as a loop-back measurement finds it, in quarter picoseconds (R31; log entry 45). -/
opaque pathDelay : (draw replica : Nat) → Nat

end Sys2Proof.Config
end

