-- ==== Sys2Proof/Machine/Bytes.lean ====
section
/-! DEFINITION. Byte order and two's complement: how multi-byte fields are read from and written to bytes (R4, R5, R6). -/
namespace Sys2Proof.Machine
open Sys2Proof

/-- Value of big-endian bytes (R5). -/
def beNat (bs : List Byte) : Nat := bs.foldl (fun a b => a * 256 + b.toNat) 0

/-- The `n` big-endian bytes of a number, modulo 256^n (R5). -/
def toBE : Nat → Nat → List Byte
  | 0, _ => []
  | n + 1, v => toBE n (v / 256) ++ [BitVec.ofNat 8 v]

/-- Value of little-endian bytes (R5). -/
def leNat : List Byte → Nat
  | [] => 0
  | b :: r => b.toNat + 256 * leNat r

/-- The `n` little-endian bytes of a number (R5). -/
def toLE : Nat → Nat → List Byte
  | 0, _ => []
  | n + 1, v => BitVec.ofNat 8 v :: toLE n (v / 256)

/-- `n` bytes from offset `o`; bytes beyond the end read as zero. -/
def sliceB (bs : List Byte) (o n : Nat) : List Byte :=
  let c := (bs.drop o).take n
  c ++ List.replicate (n - c.length) 0

/-- The big-endian unsigned field of `n` bytes at offset `o` (R5, R6). -/
def fieldU (bs : List Byte) (o n : Nat) : Nat := beNat (sliceB bs o n)

/-- Two's-complement reading of an `n`-byte unsigned value (R6). -/
def signedOf (n v : Nat) : Int := if v < 2 ^ (8 * n - 1) then (v : Int) else (v : Int) - 2 ^ (8 * n)

/-- The unsigned `n`-byte value whose two's-complement reading is `v` modulo 2^(8n) (R6). -/
def unsignedOf (n : Nat) (v : Int) : Nat := (v.emod (2 ^ (8 * n))).toNat

/-- The big-endian signed field of `n` bytes at offset `o` (R6). -/
def fieldS (bs : List Byte) (o n : Nat) : Int := signedOf n (fieldU bs o n)

/-- The `n` big-endian bytes of a signed value. -/
def toBEs (n : Nat) (v : Int) : List Byte := toBE n (unsignedOf n v)

/-- The count U of the time96 value at offset `o` (R10). -/
def fieldT (bs : List Byte) (o : Nat) : Nat :=
  65536 * (1000000000 * fieldU bs o 6 + fieldU bs (o + 6) 4) + fieldU bs (o + 10) 2

/-- The 12 bytes of a time96 value given as the count U (R10). -/
def timeBytes (u : Nat) : List Byte :=
  toBE 6 (u / 65536 / 1000000000) ++ toBE 4 (u / 65536 % 1000000000) ++ toBE 2 (u % 65536)

/-- Zero bytes for reserved fields (R7). -/
def zeros (n : Nat) : List Byte := List.replicate n 0

/-- A bit of a number. -/
def bit (v n : Nat) : Bool := v.testBit n

/-- `b` as 0 or 1. -/
def b01 (b : Bool) : Nat := if b then 1 else 0

/-- `clip` of R9. -/
def clip (x lo hi : Int) : Int := if x < lo then lo else if x > hi then hi else x

/-- Division rounded up. -/
def ceilDiv (a b : Nat) : Nat := (a + b - 1) / b

end Sys2Proof.Machine
end

