-- ==== Sys2Proof/Machine/LaneCode.lean ====
section
/-! DEFINITION. The block code of a lane: the 8b/10b symbols (R52, R53), blocks and their CRC-16 (R55 to R57), control payloads
(R61 to R64). The code table is that of IEEE 802.3 Clause 36, which the spec names (PRESUMED, log entry 6). -/
namespace Sys2Proof.Machine
open Sys2Proof

/-- 5b/6b code of the low five bits at negative running disparity, bits abcdei with a the most significant. -/
def code6 : List Nat :=
  [0b100111, 0b011101, 0b101101, 0b110001, 0b110101, 0b101001, 0b011001, 0b111000,
   0b111001, 0b100101, 0b010101, 0b110100, 0b001101, 0b101100, 0b011100, 0b010111,
   0b011011, 0b100011, 0b010011, 0b110010, 0b001011, 0b101010, 0b011010, 0b111010,
   0b110011, 0b100110, 0b010110, 0b110110, 0b001110, 0b101110, 0b011110, 0b101011]

/-- 3b/4b code of the high three bits at negative running disparity, bits fghj with f the most significant. -/
def code4 : List Nat := [0b1011, 0b1001, 0b0101, 0b1100, 0b1101, 0b1010, 0b0110, 0b1110]

/-- Number of ones among the low `n` bits. -/
def ones : Nat → Nat → Nat
  | 0, _ => 0
  | n + 1, v => v % 2 + ones n (v / 2)

/-- The six-bit code at a running disparity (true: positive): codes with unequal ones and zeros, and that of 7, are complemented. -/
def enc6 (rd : Bool) (x : Nat) : Nat :=
  let c := code6.getD x 0
  if rd && (ones 6 c != 3 || x == 7) then 63 - c else c

/-- The four-bit code at a running disparity; `alt` is the alternate code of 7. -/
def enc4 (rd alt : Bool) (y : Nat) : Nat :=
  let c := if alt then 0b0111 else code4.getD y 0
  if rd && (ones 4 c != 2 || y == 3) then 15 - c else c

/-- Running disparity after a code of `n` bits. -/
def rdNext (n : Nat) (rd : Bool) (c : Nat) : Bool := if 2 * ones n c > n then true else if 2 * ones n c < n then false else rd

/-- Whether the alternate code of 7 is used, from the low five bits and the disparity before the four-bit code. -/
def useAlt (rd : Bool) (x : Nat) : Bool := if rd then x == 11 || x == 13 || x == 14 else x == 17 || x == 18 || x == 20

/-- The data symbol of a byte at a running disparity. -/
def encData (rd : Bool) (b : Byte) : Nat :=
  let x := b.toNat % 32
  let y := b.toNat / 32
  let c6 := enc6 rd x
  let r6 := rdNext 6 rd c6
  c6 * 16 + enc4 r6 (y == 7 && useAlt r6 x) y

/-- K28.5 at a running disparity. -/
def k285 (rd : Bool) : Nat := if rd then 0b1100000101 else 0b0011111010
/-- K28.1 at a running disparity. -/
def k281 (rd : Bool) : Nat := if rd then 0b1100000110 else 0b0011111001

/-- A symbol as the receiver reads it. -/
inductive Symbol where
  | data (b : Byte)
  | k5
  | k1
  | err
  deriving DecidableEq, Repr

/-- A symbol decoded at a running disparity (R53): K28.5, K28.1, a byte, or a code error. -/
def decSym (rd : Bool) (s : Nat) : Symbol :=
  if s = k285 rd then .k5
  else if s = k281 rd then .k1
  else
    let r6 := rdNext 6 rd (s / 16)
    match (List.range 32).find? (fun x => enc6 rd x == s / 16) with
    | none => .err
    | some x =>
      match (List.range 8).find? (fun y => enc4 r6 (y == 7 && useAlt r6 x) y == s % 16) with
      | none => .err
      | some y => .data (BitVec.ofNat 8 (y * 32 + x))

/-- One step of the CRC-16 of R57 over a bit. -/
def crc16Bit (c : Nat) : Nat := if c ≥ 32768 then ((c * 2) ^^^ 0x1021) % 65536 else c * 2 % 65536

/-- One step of the CRC-16 over a byte. -/
def crc16Byte (c : Nat) (b : Byte) : Nat :=
  let c := c ^^^ (b.toNat * 256)
  crc16Bit (crc16Bit (crc16Bit (crc16Bit (crc16Bit (crc16Bit (crc16Bit (crc16Bit c)))))))

/-- `skl_crc16` of R57. -/
def crc16 (bs : List Byte) : Nat := bs.foldl crc16Byte 0xFFFF

/-- A block as decoded. -/
structure Block where
  /-- The header is valid (R56). -/
  header : Bool := false
  /-- Block type: 0 DATA, 1 TRAIN, 2 ALIGN, 3 IDLE_ENTER, 4 NULL. -/
  kind : Nat := 0
  /-- block_seq. -/
  seq : Nat := 0
  /-- 60 payload bytes. -/
  payload : List Byte := []
  /-- The CRC is good, with no code error in symbols 1-63 (R58). -/
  good : Bool := false
  /-- Code errors (R53). -/
  errors : Nat := 0
  /-- Running disparity after the block. -/
  rd : Bool := false
  deriving DecidableEq, Repr

/-- Symbols decoded in order from a running disparity, with the disparity after them. -/
def decSyms : Bool → List Nat → List Symbol × Bool
  | rd, [] => ([], rd)
  | rd, s :: r =>
    let q := decSyms (rdNext 10 rd s) r
    (decSym rd s :: q.1, q.2)

/-- Running disparity from the first comma acquired (R52): the disparity at which a K symbol reads as itself. -/
def commaRd (s : Nat) : Option Bool :=
  if s = k285 false || s = k281 false then some false else if s = k285 true || s = k281 true then some true else none

/-- The byte of a symbol, zero for an error. -/
def Symbol.byte : Symbol → Byte
  | .data b => b
  | _ => 0

/-- Whether a symbol counts as a code error at symbols 1 to 63: K symbols included (R53). -/
def Symbol.bad : Symbol → Bool
  | .data _ => false
  | _ => true

/-- A block decoded at a running disparity (R55 to R58). The symbols are inverted first for an inverted lane (R67). At symbol 0 a code
error is counted for a symbol of R53's list only: a byte there makes the header invalid and is no code error. A block_type that a code
error at symbol 1 hides is not defined, so the header is then invalid too (DEDUCED from R56, log entry 23). -/
def decodeBlock (inverted rd : Bool) (syms : List Sym) : Block :=
  let raw := syms.map (fun s => if inverted then 1023 - s.toNat else s.toNat)
  let q := decSyms rd raw
  let body := (q.1.drop 1)
  let bytes := body.map Symbol.byte
  let t := (bytes.headD 0).toNat
  let k := t / 16
  let hd := match q.1.headD .err with
    | .k5 => !(body.headD .err).bad && k == 0
    | .k1 => !(body.headD .err).bad && 1 ≤ k && k ≤ 4
    | _ => false
  let errs := (body.filter Symbol.bad).length + (if q.1.headD .err == .err then 1 else 0)
  { header := hd, kind := k, seq := t % 16, payload := (bytes.drop 1).take 60,
    good := hd && (body.filter Symbol.bad).isEmpty && bytes.length == 63 && crc16 (bytes.take 61) == beNat (bytes.drop 61)
    errors := errs, rd := q.2 }

/-- Bytes coded in order from a running disparity. -/
def encSyms : Bool → List Byte → List Nat
  | _, [] => []
  | rd, b :: r =>
    let c := encData rd b
    c :: encSyms (rdNext 10 rd c) r

/-- The 64 symbols of a block as a transmitter sends them (R52, R55 to R57). -/
def encodeBlock (rd : Bool) (kind seq : Nat) (payload : List Byte) : List Sym :=
  let bytes := BitVec.ofNat 8 (kind * 16 + seq % 16) :: payload
  let k := if kind = 0 then k285 rd else k281 rd
  (k :: encSyms (rdNext 10 rd k) (bytes ++ toBE 2 (crc16 bytes))).map (BitVec.ofNat 10)

/-- The payload of a TRAIN block (R61). -/
def trainPayload (index size lane peer marker : Nat) : List Byte :=
  toBE 1 index ++ toBE 1 size ++ toBE 2 lane ++ toBE 1 peer ++ zeros 1 ++ toBE 2 marker ++
  (List.range 52).map (fun i => if i % 2 = 0 then 0x4A#8 else 0xB5#8)

/-- The payload of an ALIGN block (R62). -/
def alignPayload (index size lane peer marker : Nat) : List Byte :=
  toBE 2 marker ++ toBE 1 index ++ toBE 1 size ++ toBE 2 lane ++ toBE 1 peer ++ zeros 53

/-- The payload of an IDLE_ENTER block (R63). -/
def idleEnterPayload (remaining reason marker : Nat) : List Byte :=
  toBE 1 remaining ++ toBE 1 reason ++ toBE 2 marker ++ zeros 56

/-- bond sizes of R61. -/
def bondSizes : List Nat := [1, 2, 4, 8, 16, 32]

/-- CRC-8 of a packet header (R94), one bit. -/
def crc8Bit (c : Nat) : Nat := if c ≥ 128 then ((c * 2) ^^^ 0x07) % 256 else c * 2
/-- CRC-8 of R94. -/
def crc8 (bs : List Byte) : Nat :=
  bs.foldl (fun c b => crc8Bit (crc8Bit (crc8Bit (crc8Bit (crc8Bit (crc8Bit (crc8Bit (crc8Bit (c ^^^ b.toNat))))))))) 0

/-- The header of a packet (R93, R94). -/
def packetHeader (type length : Nat) : List Byte :=
  let h := toBE 1 type ++ toBE 2 length
  h ++ toBE 1 (crc8 h)

/-- Symbol time in quarter picoseconds for a rate_code (R47). -/
def symbolQ (code : Nat) : Nat := [16000, 12800, 8000, 6400, 4000, 3200].getD code 16000
/-- Block time in quarter picoseconds. -/
def blockQ (code : Nat) : Nat := 64 * symbolQ code
/-- Line rate in baud for a rate_code (R47). -/
def lineRate (code : Nat) : Nat := [2500000000, 3125000000, 5000000000, 6250000000, 10000000000, 12500000000].getD code 2500000000

/-- The two taps of a pattern's polynomial (R84): 1 PRBS-7, 2 PRBS-15, 3 PRBS-23, 4 PRBS-31. -/
def prbsTaps (p : Nat) : Nat × Nat := if p = 1 then (7, 6) else if p = 2 then (15, 14) else if p = 3 then (23, 18) else (31, 28)

/-- The bit that a pattern's recurrence predicts from the bits before it, newest first. -/
def prbsPredict (p : Nat) (reg : List Bool) : Bool :=
  let t := prbsTaps p
  xor (reg.getD (t.1 - 1) false) (reg.getD (t.2 - 1) false)

end Sys2Proof.Machine
end

