-- ==== Sys2Proof/Machine/State.lean ====
section
/-! DEFINITION. The state of the block as plain data: configuration records as the spec lays them out, run-time state of
every unit, the device, and the machine after reset. -/
namespace Sys2Proof.Machine
open Sys2Proof

/-- Status codes of R443. -/
inductive Status where
  | ok | accepted | badVersion | badLength | unknownOpcode | badParam | noLease | staleSeq | busy | notReady | sleeping
  | resourceBusy | tcFreq | capacity | linebuf | budget | notSync | late | noStage | stageFull | memError | locked
  | authFailed | backoff | badImage | trial | settingsUnreadable | attestRetired | internal
  deriving DecidableEq, Repr

/-- What completes a state-changing command whose reply a later step sends. -/
inductive DeferKind where
  /-- SYS.WAKE in sleep: WAKE_COMPLETE (R514). -/
  | wake
  /-- POWER.SLEEP: SLEEP_ENTRY_COMPLETE (R512). -/
  | sleep
  /-- POWER.DOMAIN: DOMAIN_SWITCHED of that domain (R507). -/
  | domain (n : Nat)
  /-- SEC.ATTEST that reserves a new block: SETTINGS_WRITE_COMPLETE (R501). -/
  | attest
  /-- A command whose work CORE.C was doing when its watchdog reset it: CORE_RESTART_COMPLETE, with ST_INTERNAL (R443). -/
  | lost
  deriving DecidableEq, Repr

/-- Receive states of a lane direction (R65). -/
inductive RxState where
  | hunt | verify | locked | idlePending | idle | relock
  deriving DecidableEq, Repr

/-- Transmit states of a lane direction (R64, R73 to R78, R438). -/
inductive TxState where
  /-- Not driven, or the PLL is not locked. -/
  | down
  /-- TRAIN period of a cold bring-up (R73). -/
  | train
  /-- Sending DATA, NULL and ALIGN blocks. -/
  | run
  /-- Electrical idle (R75). -/
  | dusk
  /-- The 16 blocks of a Dawn burst (R77). -/
  | burst
  deriving DecidableEq, Repr

/-- Ingress stream states (R131). -/
inductive IsState where
  | off | down | search | locked | mismatch | selfRefresh
  deriving DecidableEq, Repr

/-- Surface states (R162). -/
inductive SurfState where
  | empty | writing | complete | incomplete | open_ | sealed
  deriving DecidableEq, Repr

/-- Reference states (R315). -/
inductive RefState where
  | disabled | noActivity | outOfRange | qualifying | qualified
  deriving DecidableEq, Repr

/-- Selection states of a timing channel (R337). -/
inductive SelState where
  | freerun | tracking | switching | holdover | jumpWait
  deriving DecidableEq, Repr

/-- Servo states of device time (R365). -/
inductive ServoState where
  | free | acquiring | locked | holdover
  deriving DecidableEq, Repr

/-- Bundle states (R485). -/
inductive BundleState where
  | none | activating | trial | pendingBoot | completed | reverted
  deriving DecidableEq, Repr

/-- Where the device stands between reset, boot, work and sleep (R436, R474, R511 to R514, R523). -/
inductive Phase where
  | reset | booting | running | entering | asleep | waking
  deriving DecidableEq, Repr

/-- The board profile's default record: R83's default of every byte. -/
def defaultProfile : List Byte := [0x80#8, 0x90#8, 0x65#8, 0, 0, 0, 0, 0, 0, 0, 0, 0]

/-- The stream descriptor: the FORMAT payload. (32 bytes, R99.) -/
structure Desc where
  /-- Offset 0, 8 bits. -/
  descriptorId : Nat := 0
  /-- Offset 1, 8 bits. -/
  colourFormat : Nat := 0
  /-- Offset 2, 8 bits. -/
  bitDepth : Nat := 0
  /-- Offset 3, 8 bits. -/
  scan : Nat := 0
  /-- Offset 4, 16 bits. -/
  width : Nat := 0
  /-- Offset 6, 16 bits. -/
  height : Nat := 0
  /-- Offset 8, 16 bits. -/
  hTotal : Nat := 0
  /-- Offset 10, 16 bits. -/
  vTotal : Nat := 0
  /-- Offset 12, 32 bits. -/
  rateNum : Nat := 0
  /-- Offset 16, 32 bits. -/
  rateDen : Nat := 0
  /-- Offset 20, 8 bits. -/
  colorimetry : Nat := 0
  /-- Offset 21, 8 bits. -/
  transfer : Nat := 0
  /-- Offset 22, 8 bits. -/
  range : Nat := 0
  /-- Offset 23, 8 bits. -/
  siting : Nat := 0
  /-- Offset 24, 32 bits. -/
  presOffset : Nat := 0
  /-- Offset 28, 8 bits. -/
  tsScale : Nat := 0
  deriving DecidableEq, Repr

/-- STREAM.CONFIG of an ingress stream. (52 bytes, R127.) -/
structure IngressCfg where
  /-- Offset 0, 16 bits. -/
  stream : Nat := 0
  /-- Offset 2, 8 bits. -/
  direction : Nat := 0
  /-- Offset 3, 8 bits. -/
  bondSize : Nat := 0
  /-- Offset 4, 16 bits. -/
  matchBits : Nat := 0
  /-- Offset 8, 256 bits. -/
  expected : Desc := {}
  /-- Offset 40, 32 bits. -/
  rateTolPpm : Nat := 1000
  /-- Offset 44, 32 bits. -/
  jitterAllowNs : Nat := 10000
  /-- Offset 48, 8 bits. -/
  crcCheck : Nat := 1
  deriving DecidableEq, Repr

/-- STREAM.CONFIG of an egress stream. (12 bytes, R439.) -/
structure EgressCfg where
  /-- Offset 0, 16 bits. -/
  stream : Nat := 0
  /-- Offset 2, 8 bits. -/
  direction : Nat := 0
  /-- Offset 3, 8 bits. -/
  bondSize : Nat := 0
  /-- Offset 4, 32 bits. -/
  presOffsetNs : Nat := 0
  deriving DecidableEq, Repr

/-- ROUTE.TAKE. (8 bytes, R144.) -/
structure TakeCfg where
  /-- Offset 0, 16 bits. -/
  egress : Nat := 0
  /-- Offset 2, 8 bits. -/
  sourceKind : Nat := 0
  /-- Offset 3, 8 bits. -/
  flags : Nat := 0
  /-- Offset 4, 16 bits. -/
  source : Nat := 0
  /-- Offset 6, 8 bits. -/
  audioTransition : Nat := 0
  /-- Offset 7, 8 bits. -/
  fadeMs : Nat := 0
  deriving DecidableEq, Repr

/-- CAP.CONFIG. (32 bytes, R172.) -/
structure CapCfg where
  /-- Offset 0, 16 bits. -/
  channel : Nat := 0
  /-- Offset 2, 8 bits. -/
  enable : Nat := 0
  /-- Offset 3, 8 bits. -/
  storage : Nat := 0
  /-- Offset 4, 8 bits. -/
  ringLen : Nat := 0
  /-- Offset 5, 8 bits. -/
  crcPolicy : Nat := 0
  /-- Offset 8, 16 bits. -/
  cropX : Nat := 0
  /-- Offset 10, 16 bits. -/
  cropY : Nat := 0
  /-- Offset 12, 16 bits. -/
  cropWidth : Nat := 0
  /-- Offset 14, 16 bits. -/
  cropHeight : Nat := 0
  /-- Offset 16, 64 bits. -/
  ringBase : Nat := 0
  /-- Offset 24, 32 bits. -/
  pitchBytes : Nat := 0
  /-- Offset 28, 32 bits. -/
  slotBytes : Nat := 0
  deriving DecidableEq, Repr

/-- SURF.CREATE. (64 bytes, R160.) -/
structure SurfCfg where
  /-- Offset 0, 16 bits. -/
  surface : Nat := 0
  /-- Offset 4, 8 bits. -/
  storage : Nat := 0
  /-- Offset 5, 8 bits. -/
  colourFormat : Nat := 0
  /-- Offset 6, 8 bits. -/
  bitDepth : Nat := 0
  /-- Offset 8, 16 bits. -/
  width : Nat := 0
  /-- Offset 10, 16 bits. -/
  height : Nat := 0
  /-- Offset 12, 32 bits. -/
  pitchBytes : Nat := 0
  /-- Offset 16, 64 bits. -/
  baseAddr : Nat := 0
  deriving DecidableEq, Repr

/-- LAYER.CONFIG with the frame-sync block of R183 at offset 48. (64 bytes, R198.) -/
structure LayerCfg where
  /-- Offset 0, 16 bits. -/
  slot : Nat := 0
  /-- Offset 2, 16 bits. -/
  head : Nat := 0
  /-- Offset 4, 8 bits. -/
  enable : Nat := 0
  /-- Offset 5, 8 bits. -/
  z : Nat := 0
  /-- Offset 6, 8 bits. -/
  alphaMode : Nat := 0
  /-- Offset 7, 8 bits. -/
  notReadyPolicy : Nat := 0
  /-- Offset 8, 16 bits. -/
  dstX : Int := 0
  /-- Offset 10, 16 bits. -/
  dstY : Int := 0
  /-- Offset 12, 16 bits. -/
  dstWidth : Nat := 0
  /-- Offset 14, 16 bits. -/
  dstHeight : Nat := 0
  /-- Offset 16, 16 bits. -/
  srcX : Nat := 0
  /-- Offset 18, 16 bits. -/
  srcY : Nat := 0
  /-- Offset 20, 16 bits. -/
  srcWidth : Nat := 0
  /-- Offset 22, 16 bits. -/
  srcHeight : Nat := 0
  /-- Offset 24, 16 bits. -/
  layerAlpha : Nat := 0
  /-- Offset 26, 8 bits. -/
  scaler : Nat := 0
  /-- Offset 27, 8 bits. -/
  shortBufferPolicy : Nat := 0
  /-- Offset 28, 8 bits. -/
  lutSelect : Nat := 0
  /-- Offset 29, 8 bits. -/
  matrixEnable : Nat := 0
  /-- Offset 30, 8 bits. -/
  chromaSiting : Nat := 0
  /-- Offset 32, 16 bits. -/
  seamSlot : Nat := 0
  /-- Offset 40, 64 bits. -/
  fillColour : Nat := 0
  /-- Offset 48, 8 bits. -/
  sourceKind : Nat := 0
  /-- Offset 49, 8 bits. -/
  syncMode : Nat := 0
  /-- Offset 50, 8 bits. -/
  fieldMode : Nat := 0
  /-- Offset 51, 8 bits. -/
  cadenceLen : Nat := 0
  /-- Offset 52, 16 bits. -/
  source : Nat := 0
  /-- Offset 54, 16 bits. -/
  chaseLines : Nat := 0
  /-- Offset 56, 32 bits. -/
  cadencePattern : Nat := 0
  /-- Offset 60, 32 bits. -/
  blendDelayNs : Nat := 0
  deriving DecidableEq, Repr

/-- A matrix block. The default is the identity. (60 bytes, R211.) -/
structure MatrixBlk where
  /-- Offset 0, 32 bits. -/
  c00 : Int := 65536
  /-- Offset 4, 32 bits. -/
  c01 : Int := 0
  /-- Offset 8, 32 bits. -/
  c02 : Int := 0
  /-- Offset 12, 32 bits. -/
  c10 : Int := 0
  /-- Offset 16, 32 bits. -/
  c11 : Int := 65536
  /-- Offset 20, 32 bits. -/
  c12 : Int := 0
  /-- Offset 24, 32 bits. -/
  c20 : Int := 0
  /-- Offset 28, 32 bits. -/
  c21 : Int := 0
  /-- Offset 32, 32 bits. -/
  c22 : Int := 65536
  /-- Offset 36, 32 bits. -/
  pre0 : Int := 0
  /-- Offset 40, 32 bits. -/
  pre1 : Int := 0
  /-- Offset 44, 32 bits. -/
  pre2 : Int := 0
  /-- Offset 48, 32 bits. -/
  post0 : Int := 0
  /-- Offset 52, 32 bits. -/
  post1 : Int := 0
  /-- Offset 56, 32 bits. -/
  post2 : Int := 0
  deriving DecidableEq, Repr

/-- LAYER.SYNTH. The default is SOLID with colour0 0 and alpha0 65,535. (32 bytes, R215.) -/
structure SynthCfg where
  /-- Offset 0, 16 bits. -/
  slot : Nat := 0
  /-- Offset 2, 8 bits. -/
  kind : Nat := 0
  /-- Offset 3, 8 bits. -/
  prbsReseed : Nat := 0
  /-- Offset 4, 16 bits. -/
  cellWidth : Nat := 0
  /-- Offset 6, 16 bits. -/
  cellHeight : Nat := 0
  /-- Offset 8, 64 bits. -/
  colour0 : Nat := 0
  /-- Offset 16, 64 bits. -/
  colour1 : Nat := 0
  /-- Offset 24, 16 bits. -/
  alpha0 : Nat := 65535
  /-- Offset 26, 16 bits. -/
  alpha1 : Nat := 0
  /-- Offset 28, 32 bits. -/
  prbsSeed : Nat := 0
  deriving DecidableEq, Repr

/-- LAYER.SCALER. The default is LANCZOS4 both ways with offsets 0. (16 bytes, R229.) -/
structure ScalerCfg where
  /-- Offset 0, 16 bits. -/
  slot : Nat := 0
  /-- Offset 2, 8 bits. -/
  op : Nat := 0
  /-- Offset 3, 8 bits. -/
  hKernel : Nat := 4
  /-- Offset 4, 8 bits. -/
  vKernel : Nat := 4
  /-- Offset 6, 16 bits. -/
  hOffset : Int := 0
  /-- Offset 8, 16 bits. -/
  vOffset : Int := 0
  deriving DecidableEq, Repr

/-- HEAD.TIMING. (80 bytes, R247.) -/
structure TimingCfg where
  /-- Offset 0, 16 bits. -/
  head : Nat := 0
  /-- Offset 2, 8 bits. -/
  enable : Nat := 0
  /-- Offset 3, 8 bits. -/
  mode : Nat := 0
  /-- Offset 4, 8 bits. -/
  tc : Nat := 0
  /-- Offset 5, 8 bits. -/
  scan : Nat := 0
  /-- Offset 6, 8 bits. -/
  tilePair : Nat := 0
  /-- Offset 7, 8 bits. -/
  blackFrames : Nat := 0
  /-- Offset 8, 16 bits. -/
  hActive : Nat := 0
  /-- Offset 10, 16 bits. -/
  hFp : Nat := 0
  /-- Offset 12, 16 bits. -/
  hSync : Nat := 0
  /-- Offset 14, 16 bits. -/
  hBp : Nat := 0
  /-- Offset 16, 16 bits. -/
  vActive : Nat := 0
  /-- Offset 18, 16 bits. -/
  vFp : Nat := 0
  /-- Offset 20, 16 bits. -/
  vSync : Nat := 0
  /-- Offset 22, 16 bits. -/
  vBp : Nat := 0
  /-- Offset 24, 16 bits. -/
  vFpMin : Nat := 0
  /-- Offset 26, 16 bits. -/
  vFpMax : Nat := 0
  /-- Offset 28, 8 bits. -/
  interlaceExtra : Nat := 0
  /-- Offset 30, 16 bits. -/
  eventLine : Nat := 65535
  /-- Offset 32, 32 bits. -/
  dcoFreqHz : Nat := 0
  /-- Offset 36, 32 bits. -/
  pclkNum : Nat := 0
  /-- Offset 40, 32 bits. -/
  pclkDen : Nat := 0
  /-- Offset 44, 8 bits. -/
  followKind : Nat := 0
  /-- Offset 46, 16 bits. -/
  followSource : Nat := 0
  /-- Offset 48, 32 bits. -/
  followOffsetNs : Int := 0
  /-- Offset 56, time96, as the count U. -/
  startTime : Nat := 0
  /-- Offset 72, 64 bits. -/
  underrunColour : Nat := 0
  deriving DecidableEq, Repr

/-- HEAD.COLOUR. The default is RGB at 10 bits, identity, no clip, background 0. (84 bytes, R222.) -/
structure ColourCfg where
  /-- Offset 0, 16 bits. -/
  head : Nat := 0
  /-- Offset 2, 8 bits. -/
  outFormat : Nat := 0
  /-- Offset 3, 8 bits. -/
  outDepth : Nat := 10
  /-- Offset 4, 8 bits. -/
  colorimetry : Nat := 0
  /-- Offset 5, 8 bits. -/
  transfer : Nat := 0
  /-- Offset 6, 8 bits. -/
  range : Nat := 0
  /-- Offset 7, 8 bits. -/
  siting : Nat := 0
  /-- Offset 8, 8 bits. -/
  matrixEnable : Nat := 0
  /-- Offset 9, 8 bits. -/
  legalClip : Nat := 0
  /-- Offset 16, 64 bits. -/
  background : Nat := 0
  /-- Offset 24, 480 bits. -/
  matrix : MatrixBlk := {}
  deriving DecidableEq, Repr

/-- HEAD.SR. (8 bytes, R269.) -/
structure SrCfg where
  /-- Offset 0, 16 bits. -/
  head : Nat := 0
  /-- Offset 2, 8 bits. -/
  op : Nat := 0
  /-- Offset 3, 8 bits. -/
  dusk : Nat := 0
  deriving DecidableEq, Repr

/-- AUDIO.CHANNEL. (24 bytes, R284.) -/
structure AudioChCfg where
  /-- Offset 0, 16 bits. -/
  channel : Nat := 0
  /-- Offset 2, 8 bits. -/
  sourceKind : Nat := 0
  /-- Offset 3, 8 bits. -/
  conversion : Nat := 0
  /-- Offset 4, 16 bits. -/
  source : Nat := 0
  /-- Offset 6, 8 bits. -/
  delayMode : Nat := 0
  /-- Offset 7, 8 bits. -/
  changeTransition : Nat := 0
  /-- Offset 8, 16 bits. -/
  refSlot : Nat := 65535
  /-- Offset 10, 8 bits. -/
  fadeMs : Nat := 0
  /-- Offset 12, 32 bits. -/
  trimSamples : Int := 0
  /-- Offset 16, 32 bits. -/
  manualDelayNs : Nat := 0
  /-- Offset 20, 16 bits. -/
  delayMaxMs : Nat := 250
  deriving DecidableEq, Repr

/-- AUDIO.STREAM. The default is TC0, 48,000 Hz, 24-bit. (16 bytes, R288.) -/
structure AudioStreamCfg where
  /-- Offset 0, 16 bits. -/
  egress : Nat := 0
  /-- Offset 2, 8 bits. -/
  audioTc : Nat := 0
  /-- Offset 4, 8 bits. -/
  rate0 : Nat := 2
  /-- Offset 5, 8 bits. -/
  rate1 : Nat := 2
  /-- Offset 6, 8 bits. -/
  rate2 : Nat := 2
  /-- Offset 7, 8 bits. -/
  rate3 : Nat := 2
  /-- Offset 8, 8 bits. -/
  width0 : Nat := 0
  /-- Offset 9, 8 bits. -/
  width1 : Nat := 0
  /-- Offset 10, 8 bits. -/
  width2 : Nat := 0
  /-- Offset 11, 8 bits. -/
  width3 : Nat := 0
  deriving DecidableEq, Repr

/-- AUDIO.TONE. The default is SILENCE. (16 bytes, R301.) -/
structure ToneCfg where
  /-- Offset 0, 8 bits. -/
  generator : Nat := 0
  /-- Offset 1, 8 bits. -/
  kind : Nat := 0
  /-- Offset 2, 16 bits. -/
  levelCdb : Nat := 0
  /-- Offset 4, 32 bits. -/
  freqMhz : Nat := 0
  /-- Offset 8, 32 bits. -/
  phaseUdeg : Nat := 0
  /-- Offset 12, 32 bits. -/
  prbsSeed : Nat := 0
  deriving DecidableEq, Repr

/-- REF.CONFIG. (40 bytes, R309.) -/
structure RefCfg where
  /-- Offset 0, 8 bits. -/
  ref : Nat := 0
  /-- Offset 1, 8 bits. -/
  enable : Nat := 0
  /-- Offset 2, 8 bits. -/
  type : Nat := 0
  /-- Offset 3, 8 bits. -/
  edge : Nat := 0
  /-- Offset 4, 32 bits. -/
  nominalNum : Nat := 0
  /-- Offset 8, 32 bits. -/
  nominalDen : Nat := 0
  /-- Offset 12, 32 bits. -/
  acceptPpb : Nat := 2000
  /-- Offset 16, 32 bits. -/
  rejectPpb : Nat := 4000
  /-- Offset 20, 32 bits. -/
  qualTimeMs : Nat := 10000
  /-- Offset 24, 32 bits. -/
  jumpThresholdNs : Nat := 100
  /-- Offset 28, 32 bits. -/
  tracePs : Nat := 0
  /-- Offset 32, 16 bits. -/
  lrcStream : Nat := 0
  deriving DecidableEq, Repr

/-- REF.SELECT settings. (32 bytes, R320.) -/
structure SelectCfg where
  /-- Offset 0, 8 bits. -/
  tc : Nat := 0
  /-- Offset 1, 8 bits. -/
  op : Nat := 0
  /-- Offset 2, 8 bits. -/
  mode : Nat := 0
  /-- Offset 3, 8 bits. -/
  revertive : Nat := 0
  /-- Offset 4, 8 bits. -/
  listLen : Nat := 0
  /-- Offset 5, 8 bits. -/
  manualRef : Nat := 255
  /-- Offset 6, 8 bits. -/
  jumpPolicy : Nat := 0
  /-- Offset 7, 8 bits. -/
  initialAlign : Nat := 0
  /-- Offset 8, 64 bits. -/
  list : List Byte := (List.replicate 8 0xFF#8)
  /-- Offset 16, 16 bits. -/
  wtrS : Nat := 30
  /-- Offset 18, 16 bits. -/
  historyS : Nat := 60
  /-- Offset 20, 16 bits. -/
  guardS : Nat := 10
  /-- Offset 24, 32 bits. -/
  slewPsPerS : Nat := 10000
  deriving DecidableEq, Repr

/-- TC.CONFIG. (32 bytes, R341.) -/
structure TcCfg where
  /-- Offset 0, 8 bits. -/
  tc : Nat := 0
  /-- Offset 1, 8 bits. -/
  op : Nat := 0
  /-- Offset 4, 32 bits. -/
  setFreqHz : Nat := 2970000000
  /-- Offset 8, 32 bits. -/
  bwClk : Nat := 0
  /-- Offset 12, 32 bits. -/
  bwFp : Nat := 0
  /-- Offset 16, 32 bits. -/
  bwPps : Nat := 0
  /-- Offset 20, 32 bits. -/
  bwPtp : Nat := 0
  /-- Offset 24, 32 bits. -/
  bwLrc : Nat := 0
  /-- Offset 28, 32 bits. -/
  lockLimitPpb : Nat := 0
  deriving DecidableEq, Repr

/-- CLK.CONFIG. (24 bytes, R348.) -/
structure CkoCfg where
  /-- Offset 0, 8 bits. -/
  cko : Nat := 0
  /-- Offset 1, 8 bits. -/
  op : Nat := 0
  /-- Offset 2, 8 bits. -/
  tc : Nat := 0
  /-- Offset 3, 8 bits. -/
  enable : Nat := 0
  /-- Offset 4, 32 bits. -/
  divider : Nat := 1
  /-- Offset 8, 32 bits. -/
  coarseHalf : Nat := 0
  /-- Offset 12, 16 bits. -/
  fineQ : Nat := 0
  /-- Offset 14, 8 bits. -/
  drive : Nat := 0
  /-- Offset 16, 32 bits. -/
  tracePs : Nat := 0
  deriving DecidableEq, Repr

/-- FP.CONFIG. (32 bytes, R353.) -/
structure FpoCfg where
  /-- Offset 0, 8 bits. -/
  fpo : Nat := 0
  /-- Offset 1, 8 bits. -/
  op : Nat := 0
  /-- Offset 2, 8 bits. -/
  tc : Nat := 0
  /-- Offset 3, 8 bits. -/
  mode : Nat := 0
  /-- Offset 4, 32 bits. -/
  rateNum : Nat := 0
  /-- Offset 8, 32 bits. -/
  rateDen : Nat := 0
  /-- Offset 12, 32 bits. -/
  widthNs : Nat := 0
  /-- Offset 16, 64 bits. -/
  offsetQ : Int := 0
  /-- Offset 24, 8 bits. -/
  anchorRef : Nat := 255
  /-- Offset 25, 8 bits. -/
  polarity : Nat := 0
  /-- Offset 28, 32 bits. -/
  tracePs : Nat := 0
  deriving DecidableEq, Repr

/-- CLK.TPIN. (8 bytes, R358.) -/
structure TpinCfg where
  /-- Offset 0, 8 bits. -/
  tpin : Nat := 0
  /-- Offset 1, 8 bits. -/
  op : Nat := 0
  /-- Offset 2, 8 bits. -/
  role : Nat := 0
  /-- Offset 3, 8 bits. -/
  copyFpo : Nat := 255
  deriving DecidableEq, Repr

/-- TIME.CONFIG. (28 bytes, R359.) -/
structure TimeCfg where
  /-- Offset 0, 8 bits. -/
  source : Nat := 0
  /-- Offset 1, 8 bits. -/
  ppsRef : Nat := 255
  /-- Offset 2, 8 bits. -/
  ptpProfile : Nat := 0
  /-- Offset 3, 8 bits. -/
  ptpTransport : Nat := 0
  /-- Offset 4, 8 bits. -/
  ptpDomain : Nat := 0
  /-- Offset 5, 8 bits. -/
  ptpDelay : Nat := 0
  /-- Offset 8, 32 bits. -/
  servoBwMhz : Nat := 0
  /-- Offset 12, 32 bits. -/
  stepThresholdNs : Nat := 1000
  /-- Offset 16, 32 bits. -/
  slewMaxPpb : Nat := 0
  /-- Offset 20, 32 bits. -/
  asymmetryNs : Int := 0
  deriving DecidableEq, Repr

/-- SYS.NET. (72 bytes, R406.) -/
structure NetCfg where
  /-- Offset 0, 8 bits. -/
  op : Nat := 0
  /-- Offset 1, 8 bits. -/
  ipMode : Nat := 15
  /-- Offset 2, 16 bits. -/
  deviceNumber : Nat := 65535
  /-- Offset 4, 16 bits. -/
  vlanId : Nat := 0
  /-- Offset 6, 8 bits. -/
  vlanPcp : Nat := 0
  /-- Offset 8, 32 bits. -/
  ipv4Addr : Nat := 0
  /-- Offset 12, 8 bits. -/
  ipv4Prefix : Nat := 0
  /-- Offset 16, 32 bits. -/
  ipv4Gateway : Nat := 0
  /-- Offset 20, 32 bits. -/
  ipv4Group : Nat := 0
  /-- Offset 24, 128 bits. -/
  ipv6Addr : Nat := 0
  /-- Offset 40, 8 bits. -/
  ipv6Prefix : Nat := 0
  /-- Offset 48, 128 bits. -/
  ipv6Group : Nat := 0
  deriving DecidableEq, Repr

/-- PROBE.CONFIG. The default is enabled with the window over the whole frame. (16 bytes, R459.) -/
structure ProbeCfg where
  /-- Offset 0, 16 bits. -/
  stream : Nat := 0
  /-- Offset 2, 8 bits. -/
  direction : Nat := 0
  /-- Offset 3, 8 bits. -/
  enable : Nat := 1
  /-- Offset 4, 16 bits. -/
  statsX : Nat := 0
  /-- Offset 6, 16 bits. -/
  statsY : Nat := 0
  /-- Offset 8, 16 bits. -/
  statsWidth : Nat := 0
  /-- Offset 10, 16 bits. -/
  statsHeight : Nat := 0
  deriving DecidableEq, Repr

/-- PROBE.FREEZE. (28 bytes, R461.) -/
structure FreezeCfg where
  /-- Offset 0, 16 bits. -/
  stream : Nat := 0
  /-- Offset 2, 8 bits. -/
  direction : Nat := 0
  /-- Offset 3, 8 bits. -/
  trigger : Nat := 0
  /-- Offset 4, 16 bits. -/
  surface : Nat := 0
  /-- Offset 8, 32 bits. -/
  frameNumber : Nat := 0
  /-- Offset 12, time96, as the count U. -/
  time : Nat := 0
  deriving DecidableEq, Repr

/-- A Daond reply as it left the device (header fields of R407 and its parameters). -/
structure Reply where
  /-- 128 bits (R410). -/
  addr : Nat := 0
  /-- 16 bits (R410). -/
  port : Nat := 0
  /-- 16 bits (R410). -/
  deviceNo : Nat := 0xFFFF
  /-- 16 bits (R410). -/
  leaseTag : Nat := 0
  /-- 32 bits (R410). -/
  sequence : U32 := 0
  /-- 16 bits (R410). -/
  opcode : Nat := 0
  /-- 16-bit code (R443). -/
  status : Status := .ok
  /-- 1 bit (R410). -/
  retransmit : Bool := false
  /-- 1 bit (R435). -/
  more : Bool := false
  /-- 0-8,960 bytes (R420, R421). -/
  params : List Byte := []
  deriving DecidableEq, Repr

/-- What each event source keeps (R448). -/
structure EvSrc where
  /-- 32 bits, wrapping (R448). -/
  count : U32 := 0
  /-- time96 count U (R448). -/
  lastTime : Nat := 0
  /-- 64 bits (R448). -/
  lastOcc : Nat := 0
  /-- 64 bits (R448, R450). -/
  lastDetail : Nat := 0
  /-- instant of the last logged entry (R454). -/
  loggedAt : Option Nat := none
  deriving DecidableEq, Repr

/-- One entry of the event log (R455). -/
structure LogEntry where
  /-- 64 bits (R455). -/
  seq : Nat := 0
  /-- 16 bits (R455). -/
  source : Nat := 0
  /-- time96 count U (R455). -/
  time : Nat := 0
  /-- 64 bits (R455). -/
  detail : Nat := 0
  deriving DecidableEq, Repr

/-- One entry of the commit ledger (R456, R457). -/
structure LedgerEntry where
  /-- 64 bits (R457). -/
  seq : Nat := 0
  /-- 32 bits (R457). -/
  generation : U32 := 0
  /-- 8 bits, 0-6 (R456). -/
  kind : Nat := 0
  /-- 8 bits (R456). -/
  outcome : Nat := 0
  /-- 16 bits (R457). -/
  unit : Nat := 0
  /-- time96 count U (R457). -/
  boundary : Nat := 0
  /-- 32 bits (R456). -/
  frameNumber : U32 := 0
  deriving DecidableEq, Repr

/-- The event unit, the event log and the commit ledger. -/
structure Events where
  /-- 4,864 sources (R447, R448). -/
  srcs : SMap EvSrc := []
  /-- 64 bits (R449). -/
  nextOcc : Nat := 1
  /-- ring of 16,384 (R454). -/
  log : List LogEntry := []
  /-- 64 bits (R454). -/
  logNext : Nat := 0
  /-- 64 bits, wrapping (R455). -/
  suppressed : U64 := 0
  /-- ring of 65,536 (R456). -/
  ledger : List LedgerEntry := []
  /-- 64 bits (R456). -/
  ledgerNext : Nat := 0
  deriving DecidableEq, Repr

/-- The controlling lease with its sequence record and reply cache. -/
structure Lease where
  /-- 16 bits (R416, R417). -/
  tag : Nat := 0
  /-- 128 bits (R416). -/
  addr : Nat := 0
  /-- 16 bits (R416). -/
  port : Nat := 0
  /-- 16 bits, seconds (R416). -/
  timeoutS : Nat := 5
  /-- instant (R417). -/
  restartedAt : Nat := 0
  /-- N, 32 bits (R412). -/
  newest : U32 := 0
  /-- answered sequences of the 256 newest, with their replies (R412, R413). -/
  cache : List (U32 × Reply) := []
  /-- sequences whose command still runs (R414). -/
  running : List U32 := []
  /-- resends that wait for such a command's reply (R414). -/
  dups : List U32 := []
  deriving DecidableEq, Repr

/-- One operation record of a transaction (R424). -/
structure StagedOp where
  /-- 16 bits (R424). -/
  code : Nat := 0
  /-- length bytes (R424). -/
  params : List Byte := []
  deriving DecidableEq, Repr

/-- The open transaction. -/
structure OpenTx where
  /-- up to 4,096 operations, 8 MiB (R423, R424). -/
  ops : List StagedOp := []
  deriving DecidableEq, Repr

/-- A state-changing command whose reply is sent by a later step (R507, R512, R514). -/
structure Deferred where
  /-- what completes it (R507, R512, R514). -/
  kind : DeferKind := .wake
  /-- its opcode, 16 bits (R442). -/
  code : Nat := 0
  /-- the command to answer (R420). -/
  dgram : Datagram := {}
  /-- instant since which it waits (R507). -/
  since : Nat := 0
  deriving DecidableEq, Repr

/-- Network settings and addresses in use. -/
structure Net where
  /-- 72-byte record (R406). -/
  cfg : NetCfg := {}
  /-- 32 bits (R406). -/
  ipv4InUse : Nat := 0
  /-- 128 bits (R406). -/
  ipv6InUse : Nat := 0
  /-- 1 bit (R451, R474). -/
  linkUp : Bool := false
  deriving DecidableEq, Repr

/-- Device time: the master generator, its servo, and the PTP port. -/
structure Clock where
  /-- instant of the last command, quarter ps since the rails rose (R12, R28). -/
  now : Nat := 0
  /-- instant at which RESET_N rose (R12). -/
  riseT : Nat := 0
  /-- instant of the base below (R29). -/
  baseT : Nat := 0
  /-- device time at baseT, quarter ps (R12, R29). -/
  baseQ : Nat := 0
  /-- what of a quarter ps it stands beyond baseQ, in parts of 65,536,000,000 (R29). -/
  baseF : Nat := 0
  /-- rate word against OSC nominal, s32.16 ppm (R29, R365). -/
  rateAdj : Int := 0
  /-- rate word of the epoch in progress (R29). -/
  rate : Int := 0
  /-- TIME.CONFIG record (R359). -/
  cfg : TimeCfg := {}
  /-- 2 bits (R365). -/
  servo : ServoState := .free
  /-- measurements within 100 ns in a row (R361). -/
  goodRun : Nat := 0
  /-- measurements above 1 us in a row (R361). -/
  badRun : Nat := 0
  /-- first valid measurement since RESET_N seen (R361). -/
  firstDone : Bool := false
  /-- scheduled step: epoch boundary (quarter ps of device time) and signed quarter ps (R32, R361, R363). -/
  step : Option (Nat × Int) := none
  /-- TIME.SET NEXT_PULSE: earliest instant, seconds (R363). -/
  nextPulse : Option (Nat × Nat) := none
  /-- s16, from TIME.SET (R363, R365). -/
  utcOffset : Int := 0
  /-- s16, from the time transmitter (R360, R365). -/
  utcPtp : Int := 0
  /-- s64.16 ns (R365). -/
  lastOffset : Int := 0
  /-- 32 bits, wrapping (R365). -/
  steps : U32 := 0
  /-- instants and servo outputs of the last 60 s (R362). -/
  servoOut : List (Nat × Int) := []
  /-- the model's own counter of servo outputs drawn. -/
  servoDraws : Nat := 0
  /-- 64 bits (R365). -/
  txClockId : Nat := 0
  /-- the PTP port is in the time-receiver state (R360, R362). -/
  ptpReceiver : Bool := false
  /-- instant of the last Sync of the time transmitter (R313). -/
  syncT : Nat := 0
  /-- its Sync interval, quarter ps (R313). -/
  syncGap : Nat := 0
  /-- priority vector of the chosen time transmitter (R360). -/
  ptpBest : Nat := 0
  /-- calibrated internal path of each CKO and FPO, quarter ps: at the last calibration, and as it found it (R352). -/
  outputs : List (Nat × Nat) := []
  /-- instant of the last calibration of the outputs (R352). -/
  outCalT : Nat := 0
  /-- calibrations of the outputs (R352). -/
  outCals : Nat := 0
  /-- number of the last epoch whose boundary has been sent (R29). -/
  epoch : Nat := 0
  /-- recalibrations of the time-bus replicas (R31). -/
  calibrations : Nat := 0
  /-- instant of the last calibration (R31). -/
  calT : Nat := 0
  /-- instant of the last hourly write of the stored frequencies, or of the start of the timing units (R332). -/
  freqT : Nat := 0
  /-- calibrated path delay of each replica, quarter ps: before the correction in progress, and after it (R30, R31). -/
  replicas : List (Nat × Nat) := []
  /-- instant at which the epoch of that correction begins (R31). -/
  corrT : Nat := 0
  /-- PD01 counter carrying device time through sleep, 1 ns steps (R366). -/
  sleepQ : Nat := 0
  /-- that counter holds its value (ETH_REFCLK stopped) (R548). -/
  sleepHeld : Bool := false
  deriving DecidableEq, Repr

/-- One block held in a lane's deskew buffer. -/
structure RxBlock where
  /-- block type: 0 DATA, 1 TRAIN, 2 ALIGN, 3 IDLE_ENTER, 4 NULL, 5 lost (R56, R92). -/
  kind : Nat := 0
  /-- 60 bytes (R55). -/
  payload : List Byte := []
  /-- marker_count of an ALIGN (R62). -/
  marker : Nat := 0
  deriving DecidableEq, Repr

/-- Both directions of one lane. -/
structure LaneSt where
  /-- receive state machine (R65). -/
  rx : RxState := .hunt
  /-- CDR locked (R72). -/
  cdr : Bool := false
  /-- 0 off, 1-4 the PRBS patterns (R84, R437). -/
  rxPattern : Nat := 0
  /-- running disparity (true: positive), once known (R52). -/
  disparity : Option Bool := none
  /-- valid headers counted in VERIFY, up to 32 (R65). -/
  verifyCount : Nat := 0
  /-- header validity of the last 64 block positions (R65). -/
  history : List Bool := []
  /-- block slots up to the IDLE_ENTER with remaining 0 (R65). -/
  remaining : Nat := 0
  /-- valid headers left before a pending idle is an error (R65). -/
  pendingLeft : Nat := 0
  /-- consecutive valid headers in RELOCK (R65). -/
  relockGood : Nat := 0
  /-- instant of the signal detect that RELOCK counts 24 block times from (R65, R79). -/
  detectT : Nat := 0
  /-- none: not fixed; true: inverted (R67). -/
  polarity : Option Bool := none
  /-- 8 bits, as received (R88). -/
  laneIndex : Nat := 0
  /-- 8 bits, as received (R88). -/
  bondSize : Nat := 0
  /-- 4 bits, expected block_seq (R59). -/
  expSeq : Option Nat := none
  /-- block positions since the last good ALIGN (R65, R75). -/
  sinceAlign : Option Nat := none
  /-- bits received and not yet framed: how many, and their value with the first received most significant (R54). -/
  rxTail : Nat × Nat := (0, 0)
  /-- marker_count of the last ALIGN (R62). -/
  marker : Nat := 0
  /-- device times of the last 65 ALIGNs, quarter ps (R142). -/
  alignTimes : List Nat := []
  /-- instant of the last ALIGN (R69). -/
  alignT : Nat := 0
  /-- 0-128 (R69, R88). -/
  deskewBlocks : Nat := 0
  /-- deskew buffer, 128 blocks (R69). -/
  fifo : List RxBlock := []
  /-- the deskew buffer fills since an ALIGN (R69). -/
  collect : Bool := false
  /-- 64 bits, wraps (R87). -/
  rxBlocks : U64 := 0
  /-- 32 bits, saturates (R87). -/
  codeErrors : U32 := 0
  /-- 32 bits, saturates (R87). -/
  crcErrors : U32 := 0
  /-- 32 bits, saturates (R87). -/
  headerErrors : U32 := 0
  /-- 32 bits, saturates (R87). -/
  seqBreaks : U32 := 0
  /-- 32 bits, saturates (R87). -/
  lockLosses : U32 := 0
  /-- 32 bits, wraps (R87). -/
  idleEntries : U32 := 0
  /-- 32 bits, saturates (R87). -/
  idleErrors : U32 := 0
  /-- 56 bits, wraps (R85, R87). -/
  prbsBits : BitVec 56 := 0
  /-- 32 bits, saturates (R85, R87). -/
  prbsErrors : U32 := 0
  /-- 16 bits, saturates (R85, R87). -/
  prbsSyncLosses : BitVec 16 := 0
  /-- 1 to 0xFFFF_FFFF (R85). -/
  prbsThreshold : Nat := 1
  /-- EV.LANE.PRBS armed (R85). -/
  prbsArmed : Bool := true
  /-- checker in sync (R85). -/
  prbsSynced : Bool := false
  /-- consecutive error-free bits before sync (R85). -/
  prbsGood : Nat := 0
  /-- errors among the last 64 compared bits (R85). -/
  prbsWindow : List Bool := []
  /-- checker shift register, newest first (R85). -/
  prbsReg : List Bool := []
  /-- transmit state (R64, R73, R74, R88). -/
  tx : TxState := .down
  /-- 0 off, 1-4 (R84). -/
  txPattern : Nat := 0
  /-- instant at which the direction started (R73). -/
  txStarted : Nat := 0
  /-- 0 SELF_REFRESH, 1 HOST, 2 UNUSED (R63, R74). -/
  duskReason : Nat := 0
  /-- instant at which the Dusk entry was asked for (R74). -/
  duskSince : Nat := 0
  /-- the 500 ns dwell has not ended (R75). -/
  dwelling : Bool := false
  /-- an exit waits for the dwell (R78). -/
  exitHeld : Bool := false
  /-- an entry (reason) waits for a Dawn burst or TRAIN period (R78). -/
  enterHeld : Option Nat := none
  /-- a start for a new bond waits for a Dusk entry and its dwell (R75, R129). -/
  startHeld : Bool := false
  /-- 12 bytes, in force since the last cold bring-up (R82, R83). -/
  profile : List Byte := defaultProfile
  deriving DecidableEq, Repr

/-- One lane block. -/
structure BlockSt where
  /-- 4 bits, 0-5 (R47). -/
  rateCode : Nat := 0
  /-- SK_REFCLK[b] running (R548). -/
  refclk : Bool := true
  /-- TX PLL locked (R60). -/
  pll : Bool := false
  deriving DecidableEq, Repr

/-- What is measured of the lines of a frame as they pass (R103, R117, R225, R460). -/
structure Meter where
  /-- format of the frame (R99). -/
  desc : Desc := {}
  /-- 8 bits (R102). -/
  field : Nat := 0
  /-- running CRC-32 of components 0-2 (R134, R225). -/
  crcs : List U32 := [0xFFFFFFFF#32, 0xFFFFFFFF#32, 0xFFFFFFFF#32]
  /-- line of the last VIDEO_LINE (R97). -/
  line : Option Nat := none
  /-- next first_pixel expected on it (R103). -/
  nextPixel : Nat := 0
  /-- samples of that line, by component (R103). -/
  lineBuf : List (List Nat) := [[], [], []]
  /-- whole lines received (R117). -/
  lines : Nat := 0
  /-- lowest line_number seen (R460). -/
  first : Option Nat := none
  /-- highest line_number seen (R460). -/
  last : Nat := 0
  deriving DecidableEq, Repr

/-- The ingress frame in progress (R97, R117). -/
structure FrameRx where
  /-- 32 bits (R102). -/
  frameNumber : Nat := 0
  /-- frame-start timestamp, quarter ps of device time (R139). -/
  startQ : Nat := 0
  /-- presentation time, quarter ps of device time (R141). -/
  presentQ : Nat := 0
  /-- 8 bits (R102). -/
  flags : Nat := 0
  /-- nothing has made it incomplete (R117). -/
  whole : Bool := true
  /-- began without a matching FORMAT; its packets are dropped (R117). -/
  discard : Bool := false
  /-- began while the stream was LOCKED (R133). -/
  inLocked : Bool := false
  /-- causes for EV.INGRESS.INTEGRITY (R450). -/
  hurtBits : Nat := 0
  /-- lines and CRCs of the frame (R117, R134). -/
  meter : Meter := {}
  /-- its ts40 as carried (R102, R141). -/
  ts : Nat := 0
  /-- device time has been stepped since its start (R140). -/
  stepped : Bool := false
  /-- surface being captured (R175). -/
  surface : Option Nat := none
  deriving DecidableEq, Repr

/-- The SYMBOL-scale anchor of an ingress stream (R141). -/
structure Anchor where
  /-- A_ts, ps (R141). -/
  ts : Int := 0
  /-- A_q, quarter ps (R141). -/
  q : Int := 0
  deriving DecidableEq, Repr

/-- The last unwrapped ts40 of one kind (R116). -/
structure Unwrap where
  /-- ps (R116). -/
  value : Int := 0
  /-- instant of arrival (R116). -/
  at_ : Nat := 0
  /-- time scale, 0 SYMBOL or 1 DEVICE (R112, R116). -/
  scale : Nat := 0
  deriving DecidableEq, Repr

/-- Run-time state of one ingress stream. -/
structure IngressSt where
  /-- R131 code (R131). -/
  state : IsState := .off
  /-- 8 bits (R143). -/
  mismatch : Nat := 0
  /-- 8 bits (R68, R70). -/
  bondError : Nat := 0
  /-- bond formed (R68). -/
  bonded : Bool := false
  /-- deskews afresh at the next epoch (R70). -/
  realign : Bool := false
  /-- marker_count of the last ALIGN row (R70). -/
  epoch : Option Nat := none
  /-- rows since that ALIGN row (R60, R70). -/
  sinceEpoch : Nat := 0
  /-- fully reversed lane order (R68). -/
  reversed : Bool := false
  /-- block times added to the lane with lane_index 0 (R20, R69). -/
  deskewDelay : Nat := 0
  /-- held FORMAT (R101). -/
  held : Option Desc := none
  /-- the held FORMAT is accepted (R130). -/
  accepted : Bool := false
  /-- a FORMAT has arrived since the last frame (R101). -/
  fresh : Bool := false
  /-- the last intact FORMAT arrived while the stream was LOCKED (R133). -/
  formatLocked : Bool := false
  /-- frame in progress (R97). -/
  frame : Option FrameRx := none
  /-- consecutive complete frames in SEARCH (R132). -/
  goodFrames : Nat := 0
  /-- consecutive incomplete frames (R132). -/
  badFrames : Nat := 0
  /-- frame-start timestamp of the previous frame (R137). -/
  lastStart : Option Nat := none
  /-- device time has been stepped since then (R140). -/
  stepped : Bool := false
  /-- frame start of the previous complete frame in SEARCH (R132). -/
  lastOkStart : Option Nat := none
  /-- instant at which the 2.5-period timer last started: the last FRAME_START, or the SR_EXIT after it (R132). -/
  lastStartT : Nat := 0
  /-- frame_number of the last complete frame (R143). -/
  lastNo : Nat := 0
  /-- its frame-start timestamp (R143). -/
  lastFrameQ : Nat := 0
  /-- its presentation time (R143). -/
  lastPresentQ : Nat := 0
  /-- last 16 checked intervals, quarter ps (R137). -/
  intervals : List Nat := []
  /-- intervals checked since SEARCH was entered (R137). -/
  checked : Nat := 0
  /-- s32.16 ppm (R142). -/
  symOffset : Int := 0
  /-- SYMBOL anchor (R141). -/
  anchor : Option Anchor := none
  /-- the next frame sets the anchor, after an accepted descriptor change (R141). -/
  reanchor : Bool := false
  /-- last FRAME_START (R116). -/
  uwFrame : Option Unwrap := none
  /-- last CLOCK_INFO (R116). -/
  uwClock : Option Unwrap := none
  /-- last AUDIO of each group (R116). -/
  uwAudio : SMap Unwrap := []
  /-- last value of any kind (R116). -/
  uwAny : Option Unwrap := none
  /-- bytes in the excess window (R138). -/
  exBytes : Nat := 0
  /-- the previous window exceeded the limit (R138). -/
  exOver : Bool := false
  /-- instant the last FRAME_END passed the crosspoint, until the next FORMAT (R147). -/
  endX : Option Nat := none
  /-- the same, kept (R147). -/
  lastEndX : Option Nat := none
  /-- last 16 measured gaps, quarter ps (R147). -/
  gaps : List Nat := []
  /-- crosspoint time of FRAME_START less its timestamp, last 16 (R263). -/
  xDelays : List Int := []
  /-- stream bytes delivered and not yet parsed, run by run; none marks a lost byte (R90 to R92). -/
  rows : List (List (Option Byte)) := []
  /-- the last run has not ended (R91, R92). -/
  runOpen : Bool := false
  /-- bytes of the first run already parsed (R90, R139). -/
  taken : Nat := 0
  /-- where in its run the last packet began (R90, R139). -/
  headAt : Nat := 0
  /-- the parser hunts (R118). -/
  hunting : Bool := false
  /-- last CLOCK_INFO pair (R108). -/
  pixelCount : Option (Nat × Nat) := none
  /-- instant of the last valid CLOCK_INFO (R313). -/
  clockSeenT : Option Nat := none
  /-- audio groups declared by the source: (rate_code, channels x 2 + width) (R121). -/
  groups : SMap (Nat × Nat) := []
  /-- 64 bits, wraps (R120). -/
  rxPackets : U64 := 0
  /-- 32 bits, saturates (R120). -/
  damaged : U32 := 0
  /-- 32 bits, saturates (R120). -/
  headerErrs : U32 := 0
  /-- 32 bits, saturates (R120). -/
  resyncs : U32 := 0
  /-- 32 bits, saturates (R120). -/
  unknown : U32 := 0
  /-- 32 bits, saturates (R120). -/
  malformed : U32 := 0
  /-- 32 bits, saturates (R120). -/
  orderErrs : U32 := 0
  /-- 32 bits, saturates (R120). -/
  incomplete : U32 := 0
  /-- 32 bits, saturates (R134). -/
  crcMismatches : U32 := 0
  /-- 32 bits, saturates (R137). -/
  periodErrors : U32 := 0
  deriving DecidableEq, Repr

/-- A take (or resumption) whose first new frame has not passed yet (R152, R153). -/
structure AwaitTake where
  /-- ledger entry to fill in (R456). -/
  ledgerSeq : Option Nat := none
  /-- last FRAME_START of the old source (R152). -/
  oldStartT : Option Nat := none
  /-- P_old, quarter ps (R152). -/
  oldPeriod : Nat := 0
  deriving DecidableEq, Repr

/-- The sample clock of a group (R289): sample n falls where the TC's phase is n sample periods after that of sample 0. -/
structure SampleClk where
  /-- clocking TC. -/
  tc : Nat := 0
  /-- rate_code. -/
  rate : Nat := 2
  /-- set frequency of the TC that a sample period is counted by, Hz. -/
  freq : Nat := 0
  /-- phase of sample 0, as `TcSt.phase`. -/
  originP : Nat := 0
  /-- the next sample to be sent (R290). -/
  next : Nat := 0
  deriving DecidableEq, Repr

/-- Run-time state of one egress stream. -/
structure EgressSt where
  /-- forwarding its source (R133, R145). -/
  forwarding : Bool := false
  /-- the source's self-refresh has been forwarded (R148). -/
  srFrom : Bool := false
  /-- 32 bits (R20, R156). -/
  delayPs : Nat := 0
  /-- time96 count U (R156). -/
  takeTime : Nat := 0
  /-- 32 bits (R156). -/
  takeFrame : U32 := 0
  /-- s32 (R152). -/
  delta : Int := 0
  /-- 0 none, 1 EXECUTED, 2 NOT_EXECUTED (R156). -/
  outcome : Nat := 0
  /-- take waiting for its first frame (R153). -/
  await_ : Option AwaitTake := none
  /-- ledger entries of STREAM.CONFIGs waiting for its first frame (R456). -/
  cfgLedger : List Nat := []
  /-- instant of the last FRAME_START carried (R152). -/
  lastStartT : Option Nat := none
  /-- 8 bits, descriptor_id of the last FORMAT sent for a head (R101, R272). -/
  descId : Nat := 0
  /-- content of that FORMAT (R101). -/
  descBody : List Byte := []
  /-- carries self-refresh (R440). -/
  inSr : Bool := false
  /-- its head's SR_ENTER asked for Dusk: AUDIO and CLOCK_INFO wait for SR_EXIT (R123). -/
  srDusk : Bool := false
  /-- SR_EXIT of its head is the next packet (R271). -/
  exitDue : Bool := false
  /-- in Dusk by LANE.IDLE (R440). -/
  hostDusk : Bool := false
  /-- instant of the last CLOCK_INFO sent for its head (R108). -/
  clockT : Option Nat := none
  /-- the millisecond of device time of the last CLOCK_INFO, or in which the route began (R108). -/
  clockMs : Nat := 0
  /-- sample clocks of its active groups (R289). -/
  clocks : List (Nat × SampleClk) := []
  /-- audio windows are built (R290). -/
  audioOn : Bool := false
  /-- OSC instant of the end of the last window built, or at which audio began (R290). -/
  audioT : Nat := 0
  /-- a take's switch point is not yet known (R303). -/
  switchWait : Bool := false
  /-- switch point of the last take, quarter ps (R303). -/
  switchQ : Option Int := none
  /-- T from which another TC clocks the stream, quarter ps (R289, R307). -/
  tcMoveQ : Option Int := none
  /-- on the first stream of a block of 32: the last window with an event LATE (R306). -/
  lateWin : Option Int := none
  /-- 64 bits, wraps (R440). -/
  txPackets : U64 := 0
  /-- 32 bits, wraps (R440). -/
  txFrames : U32 := 0
  deriving DecidableEq, Repr

/-- A surface descriptor of a capture ring at run time. -/
structure SurfaceSt where
  /-- R162 code (R162). -/
  state : SurfState := .empty
  /-- 8 bits (R160). -/
  marks : Nat := 0
  /-- 8 bits (R160). -/
  storage : Nat := 0
  /-- 8 bits (R160). -/
  colourFormat : Nat := 0
  /-- 8 bits (R160). -/
  bitDepth : Nat := 0
  /-- 16 bits (R160). -/
  width : Nat := 0
  /-- 16 bits (R160). -/
  height : Nat := 0
  /-- 32 bits (R160). -/
  pitch : Nat := 0
  /-- 64 bits (R160). -/
  base : Nat := 0
  /-- 32 bits (R160). -/
  size : Nat := 0
  /-- 32 bits (R160). -/
  frameNumber : Nat := 0
  /-- frame_start, quarter ps of device time (R160). -/
  startQ : Nat := 0
  /-- complete_time, quarter ps of device time (R176). -/
  completeQ : Nat := 0
  /-- 32 bits (R180). -/
  measured : Nat := 0
  /-- 16 bits (R180). -/
  maxRow : Nat := 0
  /-- left edge used for this frame (R175). -/
  cropX : Nat := 0
  /-- top edge used for this frame (R175). -/
  cropY : Nat := 0
  /-- source lines finished by the writer (R191). -/
  written : Nat := 0
  /-- device time at which the last write was acknowledged, quarter ps (R176). -/
  ackQ : Nat := 0
  /-- presentation time of its frame (R293). -/
  presentQ : Nat := 0
  /-- lines of the tile row being built, by component (MTF) (R176). -/
  tileBuf : List (List (List Nat)) := []
  deriving DecidableEq, Repr

/-- Run-time state of one capture channel. -/
structure CapSt where
  /-- slot last written (R175). -/
  lastSlot : Option Nat := none
  /-- newest COMPLETE surface (R178). -/
  newest : Option Nat := none
  /-- WRITING surface (R178). -/
  writing : Option Nat := none
  /-- 32 bits, wraps (R178). -/
  captured : U32 := 0
  /-- 32 bits, saturates (R178). -/
  incomplete : U32 := 0
  /-- 32 bits, saturates (R178). -/
  ringFull : U32 := 0
  /-- 32 bits, saturates (R178). -/
  cropEmpty : U32 := 0
  /-- 32 bits, saturates (R178). -/
  oversize : U32 := 0
  deriving DecidableEq, Repr

/-- Run-time state of one layer slot. -/
structure LayerSt where
  /-- surfaces of the unit shown (A, then B in BLEND; field pair in WEAVE) (R185, R196). -/
  shown : List Nat := []
  /-- surfaces pinned (R185). -/
  pins : List Nat := []
  /-- a selection has been made since the source became live (R195, R264). -/
  selected : Bool := false
  /-- ready at the last selection (R264). -/
  ready : Bool := false
  /-- 8 bits, last w (R196). -/
  weight : Nat := 0
  /-- CADENCE cur (R187). -/
  cur : Option Nat := none
  /-- CADENCE pattern index (R187). -/
  idx : Nat := 0
  /-- CADENCE rem (R187). -/
  rem : Nat := 0
  /-- frame_start of the current B (R195). -/
  blendB : Option Nat := none
  /-- CHASE bound surface (R190). -/
  bound : Option Nat := none
  /-- CHASE fallback (R190). -/
  fallback : Option Nat := none
  /-- frame start of the surface last bound (R190). -/
  lastBegun : Option Nat := none
  /-- CHASE has bound in this output frame (R190). -/
  boundNow : Bool := false
  /-- a not-ready policy acts this field (R264). -/
  policyActs : Bool := false
  /-- CHASE: a not-ready policy acted on a line of this output frame (R191, R264). -/
  lineActs : Bool := false
  /-- CHASE: the selection before the one bound in this output frame (R264). -/
  prev : List Nat := []
  /-- the line buffer is short this frame (R244). -/
  short : Bool := false
  /-- 23-bit state of the PRBS23 source at the start of the frame (R217). -/
  prbs : Nat := 0
  /-- 32 bits, wraps (R203). -/
  frames : U32 := 0
  /-- 32 bits, saturates (R203). -/
  notReady : U32 := 0
  /-- 32 bits, saturates (R196). -/
  repeats : U32 := 0
  /-- 32 bits, saturates (R196). -/
  drops : U32 := 0
  /-- 32 bits, saturates (R196). -/
  slips : U32 := 0
  /-- 32 bits, saturates (R196). -/
  resyncs : U32 := 0
  /-- 32 bits, saturates (R196). -/
  blendShort : U32 := 0
  /-- 32 bits, saturates (R196). -/
  chaseSubs : U32 := 0
  /-- 32 bits, saturates (R196). -/
  mtfErrors : U32 := 0
  /-- 32 bits, saturates (R245). -/
  shortFrames : U32 := 0
  deriving DecidableEq, Repr

/-- Run-time state of one head. -/
structure HeadSt where
  /-- a FRAME_START has been sent since RESET_N (R254). -/
  sent : Bool := false
  /-- a field has been sent since the head last started (R270). -/
  sentThisRun : Bool := false
  /-- 32 bits, of the last FRAME_START sent (R254, R275). -/
  frameNo : U32 := 0
  /-- a field is between its active start and its end (R253). -/
  fieldOpen : Bool := false
  /-- the current field is the second of its frame (R253). -/
  second : Bool := false
  /-- 16 bits (R275). -/
  vFpLast : Nat := 0
  /-- front porch chosen for the coming field (R253, R260). -/
  vFpNext : Nat := 0
  /-- the front porch of the coming field has been decided (R260). -/
  decided : Bool := false
  /-- the coming field starts by a timeout (R261). -/
  timedOut : Bool := false
  /-- a commit became live at the preceding Midnight point (R261). -/
  changed : Bool := false
  /-- some layer shows a new selection (R261). -/
  moved : Bool := false
  /-- irregular flag due on the next FRAME_START (R257, R261). -/
  irregular : Bool := false
  /-- black fields still to send (R257, R259). -/
  black : Nat := 0
  /-- the current field is black (R259). -/
  blackNow : Bool := false
  /-- SR_ENTER was sent (R270). -/
  srSent : Bool := false
  /-- SR_ENTER follows the coming FRAME_END (R270). -/
  srDue : Bool := false
  /-- in self-refresh (R269). -/
  inSr : Bool := false
  /-- with dusk 1 (R269). -/
  srDusk : Bool := false
  /-- instant SR_ENTER passed the crosspoint (R147). -/
  srT : Nat := 0
  /-- SR_EXIT follows at exit (R271). -/
  exitDue : Bool := false
  /-- last Midnight point, quarter ps of device time (R275). -/
  midnightQ : Nat := 0
  /-- the same as an instant (R253). -/
  midnightT : Nat := 0
  /-- last active start, quarter ps of device time (R275). -/
  activeQ : Nat := 0
  /-- the same as an instant (R253). -/
  activeT : Nat := 0
  /-- instant its FRAME_END passed the crosspoint (R147). -/
  endX : Option Nat := none
  /-- C at the raster origin, or where a change of raster has counted on from (R252, R258). -/
  originP : Nat := 0
  /-- pixel count there (R108, R252). -/
  originN : Nat := 0
  /-- pixel count at the last Midnight point (R253). -/
  midnightN : Nat := 0
  /-- pixel count at the last active start (R253). -/
  activeN : Nat := 0
  /-- R0 in device time, quarter ps, of a head that has not reached it (R254). -/
  startQ : Option Nat := none
  /-- the next raster line to start (R253). -/
  nextLine : Nat := 0
  /-- the candidate front porch of a VARIABLE head's next decision (R260). -/
  candL : Nat := 0
  /-- 64 bits, wraps (R275). -/
  rasterFrames : U64 := 0
  /-- 32 bits, wraps (R275). -/
  framesSent : U32 := 0
  /-- 32 bits, saturates (R275). -/
  underrunLines : U32 := 0
  /-- EV.HEAD.UNDERRUN has occurred in this field (R265). -/
  underrunField : Bool := false
  /-- 32 bits, saturates (R275). -/
  timeouts : U32 := 0
  /-- 32 bits, saturates (R275). -/
  slips : U32 := 0
  /-- running frame CRCs of components 0-2 (R227). -/
  crcs : List U32 := [0xFFFFFFFF#32, 0xFFFFFFFF#32, 0xFFFFFFFF#32]
  /-- lines of the field sent (R105). -/
  linesSent : Nat := 0
  /-- the pixel count has restarted since the last CLOCK_INFO (R108, R258). -/
  restarted : Bool := true
  /-- the head's last CLOCK_INFO: its millisecond of device time, its payload (R108, R272). -/
  clockInfo : Option (Nat × List Byte) := none
  /-- the field in progress is being sent (R255, R269). -/
  sending : Bool := false
  /-- FRAME_END of the last field follows the Midnight point (R255). -/
  endDue : Bool := false
  /-- the coming back porch has interlace_extra more lines (R253). -/
  extraDue : Bool := false
  /-- a FOLLOW or VARIABLE head's layers have still to select (R256, R262). -/
  selDue : Bool := false
  deriving DecidableEq, Repr

/-- One extracted audio channel. -/
structure Xc where
  /-- absent (R282). -/
  absent : Bool := true
  /-- presentation time of its last sample, quarter ps (R282). -/
  lastP : Option Int := none
  /-- samples since its last return, jump or change (R298). -/
  count : Nat := 0
  /-- code of R106 (R282). -/
  rateCode : Nat := 2
  /-- 0 24-bit, 1 32-bit (R282). -/
  width : Nat := 0
  /-- 1 bit (R283). -/
  nonPcm : Bool := false
  /-- delay store: (P, sample, non-PCM) (R281, R295). -/
  store : List (Int × Int × Bool) := []
  /-- first and last position of samples whose write a drain of AUD lost, newest first (R383). -/
  lost : List (Int × Int) := []
  /-- 32 bits, saturates (R305). -/
  absences : U32 := 0
  /-- 32 bits, saturates (R305). -/
  tsJumps : U32 := 0
  deriving DecidableEq, Repr

/-- A transition under way on an embedded channel (R303, R304). -/
structure Transition where
  /-- 0 cut, 1 fade, 2 crossfade, 3 fade-in, 4 delay step (R303, R282, R294). -/
  kind : Nat := 0
  /-- T_sw, quarter ps (R303). -/
  switchQ : Int := 0
  /-- N in samples (R304). -/
  length : Nat := 1
  /-- samples produced since T_sw (R304). -/
  done : Nat := 0
  /-- extracted channel of the old source (R304). -/
  oldSource : Option Nat := none
  /-- tone generator of the old source (R304). -/
  oldTone : Option Nat := none
  /-- old D, quarter ps (R304). -/
  oldDelay : Option Int := none
  /-- old path (R304). -/
  oldPath : Nat := 0
  /-- the old source's SRC was acquired (R300). -/
  oldAcquired : Bool := false
  /-- source sample that the old side used last (R299). -/
  oldLast : Option Int := none
  /-- PRBS state of the old side (R302). -/
  oldPrbs : Nat := 0
  deriving DecidableEq, Repr

/-- What one second's measurement of a channel's rates has seen (R298). -/
structure RateMark where
  /-- device time, quarter ps. -/
  dev : Nat
  /-- clocking TC. -/
  tc : Nat
  /-- its phase, as `TcSt.phase`. -/
  phase : Nat
  /-- samples that the source has brought. -/
  count : Nat
  /-- presentation time of the last of them, quarter ps. -/
  pos : Int
  deriving DecidableEq, Repr

/-- Run-time state of one embedded audio channel. -/
structure EcSt where
  /-- 0 none, 1 SRC, 2 TRANSPARENT, 3 TONE (R305). -/
  path : Nat := 0
  /-- extracted channel read (R285). -/
  resolved : Option Nat := none
  /-- D_auto, quarter ps (R292, R293). -/
  dAuto : Option Int := none
  /-- D in force, quarter ps (R291). -/
  delay : Option Int := none
  /-- last 16 L values, quarter ps (R293). -/
  meas : List Int := []
  /-- the next four L values set D_auto (R293, R307). -/
  fresh : Bool := true
  /-- fields in a row whose mean differs by more than half a period (R293). -/
  farRun : Nat := 0
  /-- s32.16 ppm (R298). -/
  rateOffset : Int := 0
  /-- OSC instant since which every measured offset has been within 0.05 ppm (R298). -/
  goodSince : Option Nat := none
  /-- OSC instant of the last measurement, or of the start (R298). -/
  measT : Nat := 0
  /-- what the measurements of the last 10 s have seen, oldest first (R298). -/
  marks : List RateMark := []
  /-- accumulated position error of a transparent path, quarter ps (R298, R299). -/
  posError : Int := 0
  /-- presentation time of the source sample last used on a transparent path (R299). -/
  lastUsed : Option Int := none
  /-- SRC acquired (R300). -/
  acquired : Bool := false
  /-- OSC instant from which it reacquires, within 50 ms (R300). -/
  acqT : Nat := 0
  /-- O and rate that D_auto stands for (R292). -/
  autoFor : Int × Nat := (0, 0)
  /-- T from which the generator's settings count, and those before (R287, R302). -/
  toneOld : Option (Int × ToneCfg) := none
  /-- transition under way (R304). -/
  trans : Option Transition := none
  /-- a delay step deferred behind a transition (R307). -/
  pendDelay : Option Int := none
  /-- a path change deferred behind a transition (R307). -/
  pathDue : Bool := false
  /-- a take on its egress stream waits for its switch point (R303). -/
  takeDue : Bool := false
  /-- that switch waits for the end of a transition (R307). -/
  switchHeld : Bool := false
  /-- 23-bit PRBS tone state (R302). -/
  prbs : Nat := 0
  /-- 32 bits, saturating (R305). -/
  late : U32 := 0
  /-- 32 bits, saturating (R305). -/
  slips : U32 := 0
  /-- 32 bits, saturating (R305). -/
  modeChanges : U32 := 0
  /-- 32 bits, saturating (R305). -/
  delaySteps : U32 := 0
  /-- 32 bits, saturating (R305). -/
  delayClips : U32 := 0
  deriving DecidableEq, Repr

/-- Monitor state of one reference. -/
structure RefSt where
  /-- REF.CONFIG record (R309). -/
  cfg : RefCfg := {}
  /-- R315 state (R315). -/
  state : RefState := .disabled
  /-- last gate result, s32.16 ppm (R319). -/
  gate : Int := 0
  /-- start of the qualification timer (R315). -/
  qualSince : Option Nat := none
  /-- length of the timer that runs, in ms: qual_time_ms as it stood at its start (R312). -/
  qualTime : Nat := 0
  /-- time of the last state change (R319). -/
  changeU : Nat := 0
  /-- time of the last confirmed jump (R319). -/
  jumpU : Nat := 0
  /-- s64.16 ns (R319). -/
  jumpSize : Int := 0
  /-- jump candidate: sample instant, position and error (quarter ps) (R317). -/
  candidate : Option (Nat × Nat × Int) := none
  /-- instant of the last sample, or of the enabling or loss since when none has come (R313). -/
  lastT : Nat := 0
  /-- position of the last sample in periods of the reference, times `secQ` (R316, R344). -/
  pos : Nat := 0
  /-- the last four accepted samples, newest first: instant, position (R316). -/
  samples : List (Nat × Nat) := []
  /-- start of the frequency gate (R313). -/
  gateT : Nat := 0
  /-- the sample that the gate measures from (R314). -/
  gateBase : Option (Nat × Nat) := none
  /-- activity was lost in the gate (R313). -/
  gateLost : Bool := false
  /-- the next sample is the first after activity returned (R316). -/
  fresh : Bool := true
  /-- the last gate result lay within the accept limit (R338). -/
  inAccept : Bool := true
  /-- instant of the last EV.REF.SPURIOUS (R338). -/
  spuriousT : Option Nat := none
  /-- 32 bits, saturates (R319). -/
  activityLosses : U32 := 0
  /-- 32 bits, saturates (R319). -/
  rejects : U32 := 0
  /-- 32 bits, saturates (R319). -/
  jumps : U32 := 0
  /-- 32 bits, saturates (R319). -/
  spurious : U32 := 0
  deriving DecidableEq, Repr

/-- A timing channel's phase at an instant of its active reference (R345). -/
structure TcMark where
  /-- DCO count in the unit of `TcSt.phase` (R344). -/
  phase : Nat
  /-- position of the reference (R344). -/
  pos : Nat
  /-- build_out_ns, 2^-16 ns (R345). -/
  out : Int
  deriving DecidableEq, Repr

/-- One timing channel: loop, selection, build-out, holdover. -/
structure TcSt where
  /-- TC.CONFIG record (R341). -/
  cfg : TcCfg := {}
  /-- REF.SELECT settings in force (R320). -/
  sel : SelectCfg := {}
  /-- REF.SELECT set during a switch (R328). -/
  stored : Option SelectCfg := none
  /-- sel_state (R333, R337). -/
  state : SelState := .freerun
  /-- active reference (R337). -/
  active : Option Nat := none
  /-- switch target (R337). -/
  target : Option Nat := none
  /-- reference switched from (R450). -/
  from_ : Option Nat := none
  /-- the switch tracks the old reference (R325). -/
  bridging : Bool := false
  /-- in the start state of R333 (initial_align applies) (R333). -/
  start : Bool := true
  /-- jump_state FOLLOWING (R337). -/
  following : Bool := false
  /-- the slew is that of a REF.REALIGN (R336). -/
  realign : Bool := false
  /-- final value of the slew, 2^-16 ns (R334). -/
  slewTo : Int := 0
  /-- instant at which the slew stood at build_out_ns (R334). -/
  slewT : Nat := 0
  /-- build_out_ns, s64.16 (R337). -/
  buildOut : Int := 0
  /-- held reference (R331). -/
  heldRef : Option Nat := none
  /-- build_out_ns at holdover entry (R334). -/
  heldOut : Int := 0
  /-- action of a REF.ACCEPT in progress (R335). -/
  accept : Option Nat := none
  /-- holdover frequency offset, s32.16 ppm (R330, R337). -/
  holdOffset : Int := 0
  /-- history bins, newest first: instant of the end, valid, offset; 4,200 kept (R329). -/
  bins : List (Nat × Bool × Int) := []
  /-- the second in progress has met the conditions of a valid bin so far (R329). -/
  binOk : Bool := false
  /-- last holdover entry (R337). -/
  holdSinceU : Nat := 0
  /-- last handover (R337). -/
  lastSwitchU : Nat := 0
  /-- 32 bits, wraps (R337). -/
  switches : U32 := 0
  /-- 32 bits, wraps (R337). -/
  holdEntries : U32 := 0
  /-- 32 bits, saturates (R337). -/
  jumpsApplied : U32 := 0
  /-- instant at which each reference's wait-to-restore started (R322). -/
  wtr : SMap Nat := []
  /-- lock_state (R346). -/
  locked : Bool := false
  /-- last lock gate, s32.16 ppm (R347). -/
  lockOffset : Int := 0
  /-- gates within the limit in a row (R346). -/
  lockGood : Nat := 0
  /-- gates beyond 4 limits in a row (R346). -/
  lockBad : Nat := 0
  /-- last change of lock_state (R347). -/
  lockChangeU : Nat := 0
  /-- 32 bits, saturates (R347). -/
  lockLosses : U32 := 0
  /-- s32.16 ppm against OSC (R347). -/
  dcoOffset : Int := 0
  /-- DCO cycle count C at phaseT, in units of 2^-11 / (secQ ppmOne) cycle: it is exact (R344, R347). -/
  phase : Nat := 0
  /-- instant of that count (R347). -/
  phaseT : Nat := 0
  /-- start of the switch measurement (R325, R327). -/
  measT : Nat := 0
  /-- sample offsets gathered, quarter ps: their sum, their number, the last (R325). -/
  meas : Int × Nat × Int := (0, 0, 0)
  /-- instant of the first target sample after the measurement (R325). -/
  closeT : Option Nat := none
  /-- start of the lock gate (R345). -/
  lockT : Nat := 0
  /-- the reference instant that the gate counts from (R345). -/
  lockBase : Option TcMark := none
  /-- the last reference instant (R345). -/
  lockLast : Option TcMark := none
  /-- start of the history second: device time, quarter ps (R329). -/
  binQ : Nat := 0
  /-- the same as an instant (R329). -/
  binT : Nat := 0
  /-- C at that instant (R329). -/
  binPhase : Nat := 0
  deriving DecidableEq, Repr

/-- One clock output. -/
structure CkoSt where
  /-- lease tag that claimed it (R349). -/
  owner : Option Nat := none
  /-- CLK.CONFIG record (R348). -/
  cfg : CkoCfg := {}
  /-- output running (R349, R351). -/
  running : Bool := false
  /-- no rising edge comes before this instant (R351). -/
  from_ : Nat := 0
  /-- end of a high phase that completes after the output was stopped or moved (R351). -/
  tail : Nat := 0
  /-- fine delay from which a new one is reached, quarter ps (R351). -/
  fineFrom : Nat := 0
  /-- instant of that change (R351). -/
  fineT : Nat := 0
  deriving DecidableEq, Repr

/-- One frame-pulse output. -/
structure FpoSt where
  /-- lease tag that claimed it (R349). -/
  owner : Option Nat := none
  /-- FP.CONFIG record (R353). -/
  cfg : FpoCfg := {}
  /-- C_T: C at pulse 0 of the grid in force, in the unit of the channel's phase (R354). -/
  gridP : Option Nat := none
  /-- index of the next pulse (R354). -/
  nextK : Nat := 0
  /-- pending realignment, time96 count U (R355). -/
  pendingU : Option Nat := none
  /-- the anchor acts (R357). -/
  anchored : Bool := false
  /-- the origin slews (R356, R357). -/
  slewing : Bool := false
  /-- the anchor has been active since FP.CONFIG (R356). -/
  everAnchored : Bool := false
  /-- last pulse (R357). -/
  lastPulseU : Nat := 0
  /-- 64 bits, wraps (R357). -/
  pulses : U64 := 0
  /-- instant of the last pulse position of the grid (R354, R356). -/
  lastT : Option Nat := none
  /-- what the slew of the origin began with, quarter ps (R356). -/
  slewOff : Int := 0
  /-- instant at which it began (R356). -/
  slewT : Nat := 0
  /-- action of a REF.ACCEPT that the next alignment applies (R356). -/
  acceptAct : Option Nat := none
  deriving DecidableEq, Repr

/-- One timing pin. -/
structure TpinSt where
  /-- lease tag that claimed it (R349, R358). -/
  owner : Option Nat := none
  /-- CLK.TPIN record (R358). -/
  cfg : TpinCfg := {}
  deriving DecidableEq, Repr

/-- The frame that a FROZEN freeze holds (R463). -/
structure FrozenFrame where
  /-- PROBE.FREEZE record of the freeze (R461). -/
  cfg : FreezeCfg := {}
  /-- freeze_frame_number (R463). -/
  frameNo : Nat := 0
  /-- freeze_frame_start, quarter ps (R463). -/
  startQ : Nat := 0
  /-- freeze_lines (R463). -/
  lines : Nat := 0
  deriving DecidableEq, Repr

/-- The one freeze capture. -/
structure FreezeSt where
  /-- 0 IDLE, 1 ARMED, 2 FROZEN, 3 FAILED (R463). -/
  state : Nat := 0
  /-- PROBE.FREEZE record (R461). -/
  cfg : FreezeCfg := {}
  /-- device time of the arm (R462). -/
  armedU : Nat := 0
  /-- the frame in progress is being written (R462). -/
  writing : Bool := false
  /-- lines of the frame in progress written (R462). -/
  lines : Nat := 0
  /-- the frame of the last FROZEN freeze (R463). -/
  held : Option FrozenFrame := none
  deriving DecidableEq, Repr

/-- One fabric target. -/
structure TargetSt where
  /-- 0 LAST, 1 DEFAULT (R377). -/
  parkMode : Nat := 0
  /-- 8 bits (R377). -/
  defaultMaster : Nat := 0
  /-- master parked on (R396). -/
  parkedOn : Option Nat := none
  /-- masters in reset that it was parked on or has as default master (R382, R398). -/
  drains : List Nat := []
  /-- budgeted beats granted in each window of the last second (R396). -/
  peaks : List (Nat × Nat) := []
  /-- budgeted beats granted in the window so far (R396). -/
  windowBeats : Nat := 0
  /-- 64 bits, wraps (R396). -/
  bestEffortBeats : U64 := 0
  /-- 32 bits, saturates (R396). -/
  heldBack : U32 := 0
  /-- 32 bits, saturates (R396). -/
  eccCorrected : U32 := 0
  /-- 32 bits, saturates (R396). -/
  eccUncorrected : U32 := 0
  /-- 32 bits, saturates (R396). -/
  late : U32 := 0
  deriving DecidableEq, Repr

/-- One fabric master. -/
structure MasterSt where
  /-- 1 bit (R375). -/
  bestEffort : Bool := false
  /-- takes effect at the next window (R395). -/
  nextBestEffort : Option Bool := none
  /-- 16 x 16 bits, beats (R384, R397). -/
  budget : List Nat := List.replicate 16 0
  /-- 16 signed credits (R384). -/
  credit : List Int := List.replicate 16 0
  /-- 32 bits, saturates (R397). -/
  resets : U32 := 0
  /-- 32 bits, saturates (R397). -/
  creditWaits : U32 := 0
  /-- last window counted in creditWaits (R397). -/
  waitWindow : Option Nat := none
  /-- blocked and draining (R382). -/
  draining : Bool := false
  deriving DecidableEq, Repr

/-- A holder of line-buffer granules (R240): a slot's scaler, a slot's chroma upsampler, a head's chroma downsampler. -/
inductive GranUser where
  | scaler (slot : Nat) (sc : Option Nat)
  | chroma (slot : Nat)
  | head (h : Nat)
  deriving DecidableEq, Repr

/-- Bus fabric and memory controllers. -/
structure FabricSt where
  /-- line-buffer granules that CORE.M has assigned, by holder (R241). -/
  granules : List (GranUser × List Nat) := []
  /-- 20 targets (R375). -/
  targets : SMap TargetSt := []
  /-- 54 masters (R375). -/
  masters : SMap MasterSt := []
  /-- per stack: refresh doubled (R393). -/
  refresh : SMap Bool := []
  /-- budget windows counted from RESET_N (R384). -/
  window : Nat := 0
  /-- beat addresses that hold an uncorrectable error (R392). -/
  bad : List Nat := []
  /-- requests that wait for credit: master, port, beats, oldest first (R384). -/
  waiting : List (Nat × Nat × Nat) := []
  /-- The model's own counter of hold-backs drawn (log entry 38). -/
  holds : Nat := 0
  deriving DecidableEq, Repr

/-- One firmware component: its two flash slots. -/
structure CompSt where
  /-- 0 A, 1 B (R466, R485). -/
  active : Nat := 0
  /-- 0 ACTIVE, 1 TRIAL, 2 FALLBACK (R485). -/
  state : Nat := 0
  /-- each slot's image verifies (R470, R485). -/
  slotOk : List Bool := [true, true]
  /-- version of each slot's image (R485). -/
  version : List Nat := [0, 0]
  /-- digest of each slot's image (R502). -/
  digest : List (List Byte) := [[], []]
  /-- 1 bit (R485). -/
  selfConfirmed : Bool := false
  /-- schema_min and schema_max of each slot's image (R469). -/
  schema : List (Nat × Nat) := [(0, 0), (0, 0)]
  /-- security_epoch of each slot's image (R469). -/
  imgEpoch : List Nat := [0, 0]
  /-- key_slot of each slot's image (R469). -/
  imgKey : List Nat := [0, 0]
  deriving DecidableEq, Repr

/-- One entry of the pending manifest (R472). -/
structure ManEntry where
  /-- 8 bits (R472). -/
  component : Nat := 0
  /-- 32 bits (R472). -/
  version : Nat := 0
  /-- 32 bits (R472). -/
  imageLen : Nat := 0
  /-- 32 bytes (R472). -/
  digest : List Byte := []
  /-- its image stands in the inactive slot (R477). -/
  installed : Bool := false
  deriving DecidableEq, Repr

/-- A verified manifest. -/
structure Manifest where
  /-- 8 bits (R472). -/
  keySlot : Nat := 0
  /-- 8 bits (R472). -/
  flags : Nat := 0
  /-- 32 bits (R472). -/
  bundleId : Nat := 0
  /-- 16 bits (R472). -/
  minEpoch : Nat := 0
  /-- 16 bits (R472). -/
  trialS : Nat := 0
  /-- 1-6 entries (R472). -/
  entries : List ManEntry := []
  deriving DecidableEq, Repr

/-- Firmware update. -/
structure FwSt where
  /-- 6 components (R466). -/
  comps : SMap CompSt := []
  /-- bundle_state (R485). -/
  bundle : BundleState := .none
  /-- 8 bits (R485). -/
  failedComp : Nat := 0xFF
  /-- 8 bits (R485). -/
  failCause : Nat := 0
  /-- pending manifest (R477). -/
  pending : Option Manifest := none
  /-- last activated bundle's manifest (R478). -/
  current : Option Manifest := none
  /-- 32 bits, of the last activated bundle (R485). -/
  bundleId : Nat := 0
  /-- host confirmation required (R478). -/
  needHost : Bool := false
  /-- entry being activated (R478). -/
  index : Nat := 0
  /-- start of the trial (R480). -/
  trialSince : Nat := 0
  /-- a component is on trial (R480). -/
  onTrial : Bool := false
  /-- what the health checks of the restarted component compare with: selection states, or locked lanes, before its restart (R480). -/
  before : List Nat := []
  /-- FW.CONFIRM received for it (R480). -/
  hostOk : Bool := false
  /-- CORE.M waits for an empty queue since this instant (R479). -/
  queueWait : Option Nat := none
  /-- components still to restart in a reversion (R481). -/
  reverting : List Nat := []
  /-- a reversion at reset is to be reported at READY (R481, R504). -/
  revertNote : Bool := false
  /-- fused epoch, 0-64 (R471). -/
  epoch : Nat := 0
  /-- 2 bits, revoked root keys (R471). -/
  revoked : Nat := 0
  /-- FW_STAGING, 8 MiB of control SRAM (R432). -/
  staging : SMap Byte := []
  /-- REPORT space, 1 MiB; bytes beyond read 0 (R432, R502). -/
  report : List Byte := []
  /-- components whose fallback is to be reported at READY (R475). -/
  fallback : List Nat := []
  /-- every component's active slot verified (R475). -/
  bootOk : Bool := true
  /-- STAGE2 or CORE.C failed in both slots, or a reserved strap: the device answers nothing (R475, R533). -/
  dead : Bool := false
  deriving DecidableEq, Repr

/-- Service plane, password, attestation. -/
structure SecSt where
  /-- open scopes, 3 bits (R495). -/
  scope : Nat := 0
  /-- instant at which the plane seals (R495). -/
  openUntil : Nat := 0
  /-- 8 bits, consecutive (R498). -/
  failures : Nat := 0
  /-- instant at which back-off ends (R498). -/
  backoff : Option Nat := none
  /-- length of the last back-off, seconds (R498). -/
  backoffLen : Nat := 0
  /-- current nonce and its issue instant (R497). -/
  challenge : Option (List Byte × Nat) := none
  /-- the model's own counter of random draws. -/
  draws : Nat := 0
  /-- 64 bits (R499, R501). -/
  nextIndex : Nat := 0
  /-- CFG registers written by SVC.REG_WRITE (R500). -/
  cfgRegs : SMap (BitVec 32) := []
  /-- SVC.REG_WRITE has run: no guarantee holds until RESET_N (R500). -/
  cfgTouched : Bool := false
  /-- JTAG instruction: 0 IDCODE, 1 BYPASS, 2 other (R495, R544). -/
  tapIr : Nat := 1
  deriving DecidableEq, Repr

/-- Power domains, sleep, reset, thermal limits, straps and input clocks. -/
structure PowerSt where
  /-- reset, booting, running, entering, asleep, waking (R436, R523). -/
  phase : Phase := .reset
  /-- PWR_OK pin (R518). -/
  pwrOk : Bool := true
  /-- RESET_N pin (filtered) (R519). -/
  resetN : Bool := false
  /-- OSC running within limits (R548). -/
  osc : Bool := true
  /-- ETH_REFCLK running (R548). -/
  ethRef : Bool := true
  /-- 8 bits, sampled at the rise of RESET_N (R533). -/
  straps : Nat := 0
  /-- last_reset_cause (R523). -/
  cause : Nat := 0
  /-- domains off by configuration (R507, R510). -/
  off : List Nat := []
  /-- thermal hold (R522). -/
  hold : Bool := false
  /-- held in reset by a thermal trip (R522). -/
  tripHold : Bool := false
  /-- die sensors 0-15, 0.25 C units (R522, R523). -/
  dieQ : List Int := List.replicate 16 0
  /-- HBM sensors 16-19, 0.25 C units (R523). -/
  hbmQ : List Int := List.replicate 4 0
  /-- above the warning limit (R522). -/
  warned : Bool := false
  /-- instant since which Tj is above 110 C (R522). -/
  hotSince : Option Nat := none
  /-- temperature of the last CKO and FPO calibration (R352). -/
  calTemp : Int := 0
  /-- last sleep entry; zero if none (R523). -/
  sleepSinceU : Nat := 0
  /-- instant of the sleep entry's start (R512). -/
  sleepReqT : Nat := 0
  /-- instant of SYS.WAKE (R523). -/
  wakeReqT : Nat := 0
  /-- 32 bits (R523). -/
  lastWakeMs : U32 := 0
  /-- 32 bits, wraps (R523). -/
  sleeps : U32 := 0
  /-- 32 bits, saturates (R523). -/
  warnings : U32 := 0
  /-- the sleep entry was forced by critical temperature (R522). -/
  forced : Bool := false
  /-- cores restarting: 0 C, 1 T, 2 M (R42). -/
  coreDown : List Nat := []
  /-- instant at which each core last went down (R42). -/
  downT : SMap Nat := []
  /-- instant of the last sample of the sensors (R522). -/
  sampleT : Nat := 0
  /-- instant since which the lease timer is paused (R417). -/
  leasePause : Option Nat := none
  deriving DecidableEq, Repr

/-- Live settings of one layer slot: its layer record, matrix, synthetic source, scaler settings, host LUTs, host coefficient tables. -/
structure SlotCfg where
  /-- LAYER.CONFIG record; none when the slot is free (R198). -/
  layer : Option LayerCfg := none
  /-- 15 coefficients (R212). -/
  matrix : MatrixBlk := {}
  /-- LAYER.SYNTH record (R215). -/
  synth : SynthCfg := {}
  /-- Loads of that record that have become live: each seeds PRBS23, an equal record too (R217). -/
  synthLoads : Nat := 0
  /-- LAYER.SCALER record (R229). -/
  scalerSet : ScalerCfg := {}
  /-- 3 host tables of 1,025 x 16 bits; unlisted: identity (R209). -/
  luts : SMap (List Nat) := []
  /-- 2 host coefficient tables (0 horizontal, 1 vertical); unlisted: as after reset (R232). -/
  coeffs : SMap (List Int) := []
  /-- scaler it owns, SC0-SC255 (R198, R242). -/
  scaler : Option Nat := none
  /-- W_buf as admitted, 16 bits (R239, R243). -/
  wBuf : Nat := 0
  /-- granules held for the scaler, 8 bits (R240). -/
  scGran : Nat := 0
  /-- granules held for the chroma upsampler, 8 bits (R240). -/
  chGran : Nat := 0
  /-- the slot whose seam slot it is (R198, R267). -/
  seamOf : Option Nat := none
  deriving DecidableEq, Repr

/-- Live settings of one head. -/
structure HeadCfg where
  /-- HEAD.TIMING record; none when released (R247). -/
  timing : Option TimingCfg := none
  /-- HEAD.COLOUR record (R222). -/
  colour : ColourCfg := {}
  /-- last HEAD.SR operation (R269). -/
  sr : SrCfg := {}
  deriving DecidableEq, Repr

/-- The route of one egress stream. -/
structure Route where
  /-- last ROUTE.TAKE in force (R144). -/
  take : TakeCfg := {}
  /-- head built by auto-sync for this route (R154). -/
  syncHead : Option Nat := none
  /-- layer slot claimed by auto-sync (R154). -/
  syncSlot : Option Nat := none
  /-- capture channel claimed by auto-sync (R154). -/
  syncCap : Option Nat := none
  /-- embedded channels claimed by auto-sync (R286). -/
  syncCh : Nat := 0
  deriving DecidableEq, Repr

/-- The media configuration: what commits set. One value is live, each pending commit leads to another. -/
structure Cfg where
  /-- 512 ingress streams; unlisted: released (R127). -/
  ingress : SMap IngressCfg := []
  /-- 512 egress streams; unlisted: released (R439). -/
  egress : SMap EgressCfg := []
  /-- 512 routes (R144). -/
  routes : SMap Route := []
  /-- 512 capture channels; unlisted: released (R172). -/
  caps : SMap CapCfg := []
  /-- static surfaces 8,192-16,383; unlisted: none (R160, R181). -/
  statics : SMap SurfaceSt := []
  /-- 1,024 layer slots (R198). -/
  slots : SMap SlotCfg := []
  /-- 256 heads (R247). -/
  heads : SMap HeadCfg := []
  /-- 16,384 embedded channels (R284). -/
  audio : SMap AudioChCfg := []
  /-- 512 audio stream settings (R288). -/
  audioStreams : SMap AudioStreamCfg := []
  /-- 64 tone generators (R301). -/
  tones : SMap ToneCfg := []
  deriving DecidableEq, Repr

/-- The measurement of the frame in progress on a probe. -/
structure ProbeRun where
  /-- lines and CRCs (R460). -/
  meter : Meter := {}
  /-- 32 bits (R460). -/
  frameNo : Nat := 0
  /-- frame start, quarter ps (R460). -/
  startQ : Nat := 0
  /-- per component: count, min, max, sum, sum of squares (R460). -/
  acc : List (List Nat) := []
  deriving DecidableEq, Repr

/-- The contents of the settings store (R486). -/
structure Sections where
  /-- NETWORK section (R486, R488). -/
  network : NetCfg := {}
  /-- BOARD_PROFILE: 512 lane records of 12 bytes; unlisted: default (R486, R488). -/
  profile : SMap (List Byte) := []
  /-- password salt, 16 bytes (R486, R496). -/
  salt : List Byte := []
  /-- password hash, 32 bytes; empty when no password is set (R486, R496). -/
  hash : List Byte := []
  /-- 64 bits: one-time key indices reserved up to here (R501). -/
  reservedEnd : Nat := 0
  /-- attestation retired (R503). -/
  retired : Bool := false
  /-- power-up preset, 0xFFFF for none (R476, R486). -/
  bootPreset : Nat := 0xFFFF
  /-- host confirmation required (R478, R486). -/
  hostConfirm : Bool := false
  /-- stored frequency of each TC (R332, R486). -/
  tcFreq : SMap Int := []
  /-- 1,024 routing presets (R494). -/
  presets : SMap (List StagedOp) := []
  deriving DecidableEq, Repr

/-- An admitted commit. -/
structure Commit where
  /-- 32 bits (R425). -/
  generation : U32 := 0
  /-- E as a time96 count U (R34, R425). -/
  effective : Nat := 0
  /-- order of admission (R37). -/
  order : Nat := 0
  /-- operations in order, each with the unit at which it becomes live (R34, R423). -/
  ops : List (UnitId × StagedOp) := []
  /-- operations in the commit, 16 bits (R425). -/
  count : Nat := 0
  /-- units at which it is not yet live (R34, R37). -/
  left : List UnitId := []
  /-- the live configuration before its first unit took it, once some but not all have (R45). -/
  base : Option Cfg := none
  deriving DecidableEq, Repr

/-- A prepared transaction. -/
structure Prepared where
  /-- 16 bits (R427). -/
  groupId : Nat := 0
  /-- 16 bits (R425). -/
  holdS : Nat := 0
  /-- instant (R427). -/
  since : Nat := 0
  /-- generation, operations, units (R427). -/
  commit : Commit := {}
  /-- its bytes in the staging store (R424). -/
  bytes : Nat := 0
  deriving DecidableEq, Repr

/-- The Daond engine of CORE.C. -/
structure DaondSt where
  /-- 0 or 1 lease (R415, R418). -/
  lease : Option Lease := none
  /-- last 16 tags issued (R417). -/
  oldTags : List Nat := []
  /-- the model's own counter of lease tags drawn. -/
  tagDraws : Nat := 0
  /-- open transaction (R423). -/
  open_ : Option OpenTx := none
  /-- up to 16 (R427). -/
  prepared : List Prepared := []
  /-- up to 4,096 pending, in order of E, then of admission (R37, R445). -/
  commits : List Commit := []
  /-- queue saved over a CORE.M activation (R479). -/
  saved : List Commit := []
  /-- last generation given (R425, R428). -/
  generation : U32 := 0
  /-- admissions so far (orders equal E) (R37). -/
  admitted : Nat := 0
  /-- commands in progress (R419). -/
  deferred : List Deferred := []
  /-- up to 256 state-changing commands that wait to run (R419, R445). -/
  waiting : List Instr := []
  /-- receive queue, up to 4,096 datagrams, filled while CORE.C restarts (R444, R446). -/
  rxQueue : List Instr := []
  /-- 64 bits, wrapping (R436). -/
  rxFrames : U64 := 0
  /-- 64 bits, wrapping (R436). -/
  rxDropped : U64 := 0
  /-- 64 bits, wrapping (R436). -/
  rxOverflow : U64 := 0
  /-- 64 bits, wrapping (R436). -/
  commands : U64 := 0
  /-- 64 bits, wrapping (R436). -/
  retransmitsServed : U64 := 0
  /-- 64 bits, wrapping (R436). -/
  staleSequences : U64 := 0
  /-- 64 bits, wrapping (R436). -/
  busyReplies : U64 := 0
  /-- 64 bits, wrapping (R436). -/
  fcsErrors : U64 := 0
  /-- 64 bits, wrapping (R436). -/
  fecCorrected : U64 := 0
  /-- 64 bits, wrapping (R436). -/
  fecUncorrected : U64 := 0
  /-- network settings (R406). -/
  net : Net := {}
  deriving DecidableEq, Repr

/-- One stream probe. -/
structure ProbeSt where
  /-- PROBE.CONFIG record in force (R459). -/
  cfg : ProbeCfg := {}
  /-- record that takes effect at the next FRAME_START (R459). -/
  next : Option ProbeCfg := none
  /-- 32 bits (R463). -/
  frameNo : Nat := 0
  /-- 8 bits (R463). -/
  flags : Nat := 0
  /-- 8 bits (R463). -/
  crcResult : Nat := 0
  /-- 3 x 32 bits (R463). -/
  crc : List U32 := [0, 0, 0]
  /-- frame start of the last frame, quarter ps (R463). -/
  startQ : Nat := 0
  /-- 64 bits (R463). -/
  periodQ : Nat := 0
  /-- 16 bits (R463). -/
  linesReceived : Nat := 0
  /-- 16 bits (R463). -/
  firstLine : Nat := 0
  /-- 16 bits (R463). -/
  lastLine : Nat := 0
  /-- 16 bits (R463). -/
  linesSent : Nat := 0
  /-- 32 bits, wraps (R463). -/
  frames : U32 := 0
  /-- 32 bits, saturates (R463). -/
  mismatchFrames : U32 := 0
  /-- per component: count, min, max, sum, sum_sq (R460, R463). -/
  stats : List (List Nat) := []
  /-- measurement of the frame in progress (R460). -/
  run : Option ProbeRun := none
  deriving DecidableEq, Repr

/-- One copy slot of the settings store. -/
structure CopySt where
  /-- magic, body_len and digest correct (R487). -/
  valid : Bool := false
  /-- 16 bits (R487). -/
  schema : Nat := 0
  /-- 64 bits (R487). -/
  sequence : Nat := 0
  /-- contents (R486). -/
  sections : Sections := {}
  deriving DecidableEq, Repr

/-- The settings store and its working contents. -/
structure SettingsSt where
  /-- copy 0 and copy 1 in MRAM (R486). -/
  copies : List CopySt := [{ valid := true, sequence := 1 }, {}]
  /-- the contents in force (R486). -/
  live : Sections := {}
  /-- 0, 1, or 0xFF for defaults (R490). -/
  loaded : Nat := 0xFF
  /-- 1 bit (R490, R491). -/
  provisional : Bool := false
  /-- a write is pending (R489). -/
  pending : Bool := false
  /-- copy being written (R489). -/
  writing : Option Nat := none
  /-- start of the last write (instant) (R489). -/
  lastWriteT : Option Nat := none
  /-- start of the last write (R490). -/
  lastWriteU : Nat := 0
  /-- sequence of the loaded copy (R502). -/
  loadedSeq : Nat := 0
  /-- digest of the loaded copy (R487, R502). -/
  loadedDigest : List Byte := []
  deriving DecidableEq, Repr

/-- What left the device's pins in the step just taken (R405, R23, R75, R354). -/
inductive Output where
  /-- A Daond reply. -/
  | reply (r : Reply)
  /-- A packet handed to an egress stream: type and payload (R93). -/
  | packet (egress type : Nat) (payload : List Byte)
  /-- A service message of R402: 0 ARP reply, 1 neighbor advertisement, 2 DHCP request, 3 router solicitation, 4 echo reply,
  5 IGMP report, 6 MLD report; an address or echo data with it. -/
  | service (kind addr : Nat) (data : List Byte)
  /-- A PTP message of R405: 0 Delay_Req, 1 Pdelay_Req, 2 Pdelay_Resp. -/
  | ptp (kind : Nat)
  /-- A block of 64 symbols sent on a lane in the block slot that begins at an instant (R52, R55). -/
  | block (lane at_ : Nat) (syms : List Sym)
  /-- Bits of a PRBS pattern sent on a lane from an instant on, first sent first (R84). -/
  | prbs (lane at_ : Nat) (bits : List Bool)
  /-- The driver of a TX direction goes idle (false) or is driven (true). -/
  | driver (lane : Nat) (on : Bool)
  /-- The active edge of a frame pulse (R354), with copies on timing pins. -/
  | pulse (fpo : Nat) (pins : List Nat)
  /-- Bits shifted out on TDO (R544). -/
  | tdo (bits : List Bool)
  deriving DecidableEq, Repr

/-- What a TX direction of a lane is sending (R52, R59, R60, R75, R76, R84). -/
structure TxLine where
  /-- instant at which the next block slot begins (R47, R55). -/
  at_ : Nat := 0
  /-- blocks since the last ALIGN slot, 0 to 1,023; the next block is ALIGN at 0 and its block_seq is this modulo 16 (R59, R60). -/
  slot : Nat := 0
  /-- marker_count of the last ALIGN sent; 65,535 before the first (R60, R62). -/
  marker : Nat := 65535
  /-- running disparity, true for positive (R52). -/
  rd : Bool := false
  /-- IDLE_ENTER blocks still to send (R63, R75). -/
  idleLeft : Nat := 0
  /-- instant at which the driver went to common mode (R75). -/
  idleT : Nat := 0
  /-- blocks of a Dawn burst still to send (R76). -/
  burstLeft : Nat := 0
  /-- PRBS generator register, newest bit first; seeded with all ones (R84). -/
  reg : List Bool := []
  deriving DecidableEq, Repr

/-- A packet handed to an egress stream assembler and not yet sent (R20, R93). -/
structure TxEntry where
  /-- instant from which its bytes may leave (R20, R255). -/
  ready : Nat := 0
  /-- packet_type (R95). -/
  type : Nat := 0
  /-- payload (R93). -/
  payload : List Byte := []
  /-- bits and pixels of one group of its pixels, for a VIDEO_LINE (R104). -/
  group : Nat × Nat := (24, 1)
  deriving DecidableEq, Repr

/-- One egress stream assembler (R22, R90, R91, R96). -/
structure TxQueue where
  /-- packets waiting, oldest first (R22). -/
  queue : List TxEntry := []
  /-- bytes of the packet under way that no block has carried yet (R90, R96). -/
  rest : List Byte := []
  /-- place in the row being sent of the first byte of a FRAME_START (R460). -/
  mark : Option Nat := none
  /-- frame start of the last FRAME_START handed over, once its first byte has left, quarter ps (R460). -/
  startQ : Option Nat := none
  deriving DecidableEq, Repr

/-- The device: everything but the frame store and the queue of waiting commands. -/
structure Dev where
  /-- Device time (file 11). -/
  clk : Clock := {}
  /-- Daond engine (file 13). -/
  daond : DaondSt := {}
  /-- Events, log and ledger (file 14). -/
  ev : Events := {}
  /-- Live media configuration. -/
  cfg : Cfg := {}
  /-- 16 lane blocks (R47). -/
  blocks : SMap BlockSt := []
  /-- 512 lanes (file 02). -/
  lanes : SMap LaneSt := []
  /-- 512 TX directions on the line (R52 to R64). -/
  txLines : SMap TxLine := []
  /-- 512 egress stream assemblers (R22, R90, R91). -/
  txQueues : SMap TxQueue := []
  /-- 512 ingress streams (files 03, 04). -/
  ingress : SMap IngressSt := []
  /-- 512 egress streams (files 04, 13). -/
  egress : SMap EgressSt := []
  /-- 512 capture channels (R178). -/
  caps : SMap CapSt := []
  /-- 8,192 ring surfaces, channel x 16 + slot (R160). -/
  rings : SMap SurfaceSt := []
  /-- 1,024 layer slots (R196, R203). -/
  layers : SMap LayerSt := []
  /-- 256 heads (R275). -/
  heads : SMap HeadSt := []
  /-- 8,192 extracted channels (R282). -/
  xchans : SMap Xc := []
  /-- 16,384 embedded channels (R305). -/
  audio : SMap EcSt := []
  /-- 41 references (R309): TREF0-15, TPIN0-15, VREF_PTP, VREF_L0-7. -/
  refs : SMap RefSt := []
  /-- 8 timing channels (R341). -/
  tcs : SMap TcSt := []
  /-- 64 clock outputs (R348). -/
  ckos : SMap CkoSt := []
  /-- 32 frame-pulse outputs (R353). -/
  fpos : SMap FpoSt := []
  /-- 16 timing pins (R358). -/
  tpins : SMap TpinSt := []
  /-- 1,024 stream probes: ingress s at s, egress e at 512 + e (R459). -/
  probes : SMap ProbeSt := []
  /-- The freeze capture (R461). -/
  freeze : FreezeSt := {}
  /-- Fabric and memory ports (file 12). -/
  fabric : FabricSt := {}
  /-- Firmware update (file 15). -/
  fw : FwSt := {}
  /-- Settings store (R486). -/
  settings : SettingsSt := {}
  /-- Service plane and security (file 15). -/
  sec : SecSt := {}
  /-- Power, reset, thermal (file 16). -/
  pow : PowerSt := {}
  /-- The model's own counter of free values taken (log entry 5). -/
  draws : Nat := 0
  /-- What left the pins in the last step; the model's own (log entry 14). -/
  out : List Output := []
  deriving DecidableEq, Repr

/-- The block: the device, its frame memory and the commands that wait, first in, first out. -/
structure State where
  /-- The device. -/
  dev : Dev := {}
  /-- Frame memory: 96 GiB, addresses 0 to 0x17_FFFF_FFFF (R371), as the cells that do not hold 0, in rising order. -/
  mem : List Host.Cell := []
  /-- Commands sent and not yet taken. -/
  pending : List Instr := []
  deriving DecidableEq, Repr

/-- Why a step of the block stops with a fault. No meaning of this model ends in one. -/
inductive Fault where
  /-- Raised by nothing: the spec stops the block on no command. Safe. -/
  | none
  deriving DecidableEq, Repr

/-- Why a command has no meaning. -/
inductive Refusal where
  /-- A command of the table whose meaning is not written: raised by `exec` itself. Safe. -/
  | notModelled (mnemonic : String)
  deriving DecidableEq, Repr

/-- The machine right after reset: RESET_N held low with PWR_OK high, so nothing runs until RESET_N_RISE; the contents of fuses,
flash and settings store as log entry 11 says, every unit idle, nothing in memory, no command waiting. -/
def State.reset : State := {}

end Sys2Proof.Machine
end

