-- ==== Sys2Proof/Machine/Ops.lean ====
section
/-! DEFINITION. The named operations over the state: sparse tables, frame memory, device time, counters and the units' records. -/
namespace Sys2Proof.Machine
open Sys2Proof

/-! ### Sparse tables -/

/-- Entry `k` of a sparse table whose unlisted entries read `d`. -/
def smGet {α : Type} (d : α) (k : Nat) : SMap α → α
  | [] => d
  | (j, v) :: r => if j = k then v else smGet d k r

/-- Entry `k` of a sparse table, if it is listed. -/
def smFind {α : Type} (k : Nat) : SMap α → Option α
  | [] => none
  | (j, v) :: r => if j = k then some v else smFind k r

/-- The table with entry `k` set to `v`. -/
def smPut {α : Type} (k : Nat) (v : α) : SMap α → SMap α
  | [] => [(k, v)]
  | (j, w) :: r => if k < j then (k, v) :: (j, w) :: r else if j = k then (k, v) :: r else (j, w) :: smPut k v r

/-- The table without entry `k`. -/
def smErase {α : Type} (k : Nat) (m : SMap α) : SMap α := m.filter (fun e => e.1 != k)

/-- Every entry of a table mapped. -/
def smMap {α : Type} (f : α → α) (m : SMap α) : SMap α := m.map fun e => (e.1, f e.2)

/-- The table with entry `k` mapped. -/
def smMod {α : Type} (d : α) (k : Nat) (f : α → α) (m : SMap α) : SMap α := smPut k (f (smGet d k m)) m

/-- The table with entry `k` set, or removed for `none`. -/
def smSet {α : Type} (k : Nat) (v : Option α) (m : SMap α) : SMap α :=
  match v with
  | some x => smPut k x m
  | none => smErase k m

/-! ### Frame memory (R371, R372) -/

/-- Bytes of frame memory: 96 GiB. -/
def memSize : Nat := 0x1800000000

/-- What a byte of frame memory that nothing has written reads as. DESIGN CHOICE (log entry 2, unsafe). -/
def memDefault : Byte := 0

/-- The canonical form of frame memory: rising addresses inside the store, and no cell equal to the unlisted byte. -/
def memWfFrom : Nat → List Host.Cell → Bool
  | _, [] => true
  | lo, (a, b) :: r => decide (lo ≤ a) && decide (a < memSize) && (b != memDefault) && memWfFrom (a + 1) r

/-- The canonical form of frame memory. -/
def memWf (m : List Host.Cell) : Bool := memWfFrom 0 m

/-- One byte of frame memory. -/
def memGet (a : Nat) : List Host.Cell → Byte
  | [] => memDefault
  | (x, b) :: r => if x = a then b else memGet a r

/-- Frame memory with one byte written. -/
def memPut (a : Nat) (v : Byte) : List Host.Cell → List Host.Cell
  | [] => if v = memDefault then [] else [(a, v)]
  | (x, b) :: r =>
    if a < x then (if v = memDefault then (x, b) :: r else (a, v) :: (x, b) :: r)
    else if x = a then (if v = memDefault then r else (a, v) :: r)
    else (x, b) :: memPut a v r

/-- `n` bytes of frame memory from address `a`. -/
def memRead (m : List Host.Cell) (a : Nat) : Nat → List Byte
  | 0 => []
  | n + 1 => memGet a m :: memRead m (a + 1) n

/-- Frame memory with bytes written from address `a`; addresses beyond the store are not written. -/
def memWrite (m : List Host.Cell) (a : Nat) : List Byte → List Host.Cell
  | [] => m
  | b :: r => memWrite (if a < memSize then memPut a b m else m) (a + 1) r

/-! ### State -/

/-- The state with its device changed; memory and queue stay. -/
def State.onDev (f : Dev → Dev) (s : State) : State := { s with dev := f s.dev }

/-! ### Counters (R87, R120) -/

/-- A saturating 32-bit counter plus one. -/
def satInc (c : U32) : U32 := if c = BitVec.allOnes 32 then c else c + 1
/-- A saturating 32-bit counter plus `n`. -/
def satAdd (c : U32) (n : Nat) : U32 := BitVec.ofNat 32 (min (c.toNat + n) 0xFFFFFFFF)

/-! ### Device time -/

/-- Quarter picoseconds in a microsecond. -/
def usQ : Nat := 4000000
/-- Quarter picoseconds in a millisecond. -/
def msQ : Nat := 4000000000
/-- Quarter picoseconds in a second. -/
def secQ : Nat := 4000000000000
/-- Counts U of R10 in a nanosecond. -/
def nsU : Nat := 65536
/-- Counts U in a second. -/
def secU : Nat := 65536000000000

/-- `to_ps` of R13. -/
def toPs (u : Nat) : Nat := (32768 + 1000 * u) / 65536
/-- `to_u` of R13. -/
def toU (p : Nat) : Nat := (500 + 65536 * p) / 1000
/-- The count U of a quarter-picosecond time, rounded as R13 rounds (R139). -/
def uOfQ (q : Nat) : Nat := (500 + 16384 * q) / 1000
/-- The quarter-picosecond time of a count U, rounded to the nearest. -/
def qOfU (u : Nat) : Nat := (8192 + 1000 * u) / 16384
/-- ts40 of R14, from a quarter-picosecond time. -/
def ts40OfQ (q : Nat) : Nat := toPs (uOfQ q) % 2 ^ 40

/-- Device time in quarter picoseconds at instant `t` (R12, R29): it counts from its base at OSC's nominal rate and the rate word. -/
def Clock.devQ (c : Clock) (t : Nat) : Nat :=
  let dt : Int := (t : Int) - (c.baseT : Int)
  ((c.baseQ : Int) + (c.baseF + dt * (65536000000 + c.rate)) / 65536000000).toNat

/-- The sleep counter of PD01, in nanoseconds (R366): it counts from its base unless ETH_REFCLK has stopped (R548). -/
def Clock.sleepNs (c : Clock) : Nat := c.sleepQ + if c.sleepHeld then 0 else (c.now - c.baseT) / 4000

/-- Device time now, in quarter picoseconds; in sleep, the sleep counter. -/
def Dev.nowQ (d : Dev) : Nat := if d.pow.phase == .asleep then 4000 * d.clk.sleepNs else d.clk.devQ d.clk.now
/-- Device time now, as the count U. -/
def Dev.nowU (d : Dev) : Nat := uOfQ d.nowQ

/-- The first instant at which device time reads `q` quarter picoseconds or more, at the rate word in force (R29). -/
def Clock.instantOf (c : Clock) (q : Nat) : Nat :=
  let p : Int := 65536000000
  ((c.baseT : Int) - (((c.baseQ : Int) - (q : Int)) * p + c.baseF) / (p + c.rate)).toNat

/-- Something leaves the pins. -/
def Dev.emit (o : Output) (d : Dev) : Dev := { d with out := d.out ++ [o] }

/-! ### Unit records -/

/-- Record `n` of `blocks`. -/
def Dev.block (d : Dev) (n : Nat) : BlockSt := smGet {} n d.blocks
/-- The device with record `n` of `blocks` set. -/
def Dev.setBlock (n : Nat) (x : BlockSt) (d : Dev) : Dev := { d with blocks := smPut n x d.blocks }
/-- The device with record `n` of `blocks` mapped. -/
def Dev.modBlock (n : Nat) (f : BlockSt → BlockSt) (d : Dev) : Dev := d.setBlock n (f (d.block n))

/-- Record `n` of `lanes`. -/
def Dev.lane (d : Dev) (n : Nat) : LaneSt := smGet {} n d.lanes
/-- The device with record `n` of `lanes` set. -/
def Dev.setLane (n : Nat) (x : LaneSt) (d : Dev) : Dev := { d with lanes := smPut n x d.lanes }
/-- The device with record `n` of `lanes` mapped. -/
def Dev.modLane (n : Nat) (f : LaneSt → LaneSt) (d : Dev) : Dev := d.setLane n (f (d.lane n))

/-- Record `n` of `txLines`. -/
def Dev.txLine (d : Dev) (n : Nat) : TxLine := smGet {} n d.txLines
/-- The device with record `n` of `txLines` set. -/
def Dev.setTxLine (n : Nat) (x : TxLine) (d : Dev) : Dev := { d with txLines := smPut n x d.txLines }
/-- The device with record `n` of `txLines` mapped. -/
def Dev.modTxLine (n : Nat) (f : TxLine → TxLine) (d : Dev) : Dev := d.setTxLine n (f (d.txLine n))

/-- Record `n` of `txQueues`. -/
def Dev.txQueue (d : Dev) (n : Nat) : TxQueue := smGet {} n d.txQueues
/-- The device with record `n` of `txQueues` set. -/
def Dev.setTxQueue (n : Nat) (x : TxQueue) (d : Dev) : Dev := { d with txQueues := smPut n x d.txQueues }
/-- The device with record `n` of `txQueues` mapped. -/
def Dev.modTxQueue (n : Nat) (f : TxQueue → TxQueue) (d : Dev) : Dev := d.setTxQueue n (f (d.txQueue n))

/-- Record `n` of `ingress`. -/
def Dev.is (d : Dev) (n : Nat) : IngressSt := smGet {} n d.ingress
/-- The device with record `n` of `ingress` set. -/
def Dev.setIs (n : Nat) (x : IngressSt) (d : Dev) : Dev := { d with ingress := smPut n x d.ingress }
/-- The device with record `n` of `ingress` mapped. -/
def Dev.modIs (n : Nat) (f : IngressSt → IngressSt) (d : Dev) : Dev := d.setIs n (f (d.is n))

/-- Record `n` of `egress`. -/
def Dev.es (d : Dev) (n : Nat) : EgressSt := smGet {} n d.egress
/-- The device with record `n` of `egress` set. -/
def Dev.setEs (n : Nat) (x : EgressSt) (d : Dev) : Dev := { d with egress := smPut n x d.egress }
/-- The device with record `n` of `egress` mapped. -/
def Dev.modEs (n : Nat) (f : EgressSt → EgressSt) (d : Dev) : Dev := d.setEs n (f (d.es n))

/-- Record `n` of `caps`. -/
def Dev.cap (d : Dev) (n : Nat) : CapSt := smGet {} n d.caps
/-- The device with record `n` of `caps` set. -/
def Dev.setCap (n : Nat) (x : CapSt) (d : Dev) : Dev := { d with caps := smPut n x d.caps }
/-- The device with record `n` of `caps` mapped. -/
def Dev.modCap (n : Nat) (f : CapSt → CapSt) (d : Dev) : Dev := d.setCap n (f (d.cap n))

/-- Record `n` of `rings`. -/
def Dev.ring (d : Dev) (n : Nat) : SurfaceSt := smGet {} n d.rings
/-- The device with record `n` of `rings` set. -/
def Dev.setRing (n : Nat) (x : SurfaceSt) (d : Dev) : Dev := { d with rings := smPut n x d.rings }
/-- The device with record `n` of `rings` mapped. -/
def Dev.modRing (n : Nat) (f : SurfaceSt → SurfaceSt) (d : Dev) : Dev := d.setRing n (f (d.ring n))

/-- Record `n` of `layers`. -/
def Dev.layer (d : Dev) (n : Nat) : LayerSt := smGet {} n d.layers
/-- The device with record `n` of `layers` set. -/
def Dev.setLayer (n : Nat) (x : LayerSt) (d : Dev) : Dev := { d with layers := smPut n x d.layers }
/-- The device with record `n` of `layers` mapped. -/
def Dev.modLayer (n : Nat) (f : LayerSt → LayerSt) (d : Dev) : Dev := d.setLayer n (f (d.layer n))

/-- Record `n` of `heads`. -/
def Dev.head (d : Dev) (n : Nat) : HeadSt := smGet {} n d.heads
/-- The device with record `n` of `heads` set. -/
def Dev.setHead (n : Nat) (x : HeadSt) (d : Dev) : Dev := { d with heads := smPut n x d.heads }
/-- The device with record `n` of `heads` mapped. -/
def Dev.modHead (n : Nat) (f : HeadSt → HeadSt) (d : Dev) : Dev := d.setHead n (f (d.head n))

/-- Record `n` of `xchans`. -/
def Dev.xchan (d : Dev) (n : Nat) : Xc := smGet {} n d.xchans
/-- The device with record `n` of `xchans` set. -/
def Dev.setXchan (n : Nat) (x : Xc) (d : Dev) : Dev := { d with xchans := smPut n x d.xchans }
/-- The device with record `n` of `xchans` mapped. -/
def Dev.modXchan (n : Nat) (f : Xc → Xc) (d : Dev) : Dev := d.setXchan n (f (d.xchan n))

/-- Record `n` of `audio`. -/
def Dev.ec (d : Dev) (n : Nat) : EcSt := smGet {} n d.audio
/-- The device with record `n` of `audio` set. -/
def Dev.setEc (n : Nat) (x : EcSt) (d : Dev) : Dev := { d with audio := smPut n x d.audio }
/-- The device with record `n` of `audio` mapped. -/
def Dev.modEc (n : Nat) (f : EcSt → EcSt) (d : Dev) : Dev := d.setEc n (f (d.ec n))

/-- Record `n` of `refs`. -/
def Dev.ref (d : Dev) (n : Nat) : RefSt := smGet {} n d.refs
/-- The device with record `n` of `refs` set. -/
def Dev.setRef (n : Nat) (x : RefSt) (d : Dev) : Dev := { d with refs := smPut n x d.refs }
/-- The device with record `n` of `refs` mapped. -/
def Dev.modRef (n : Nat) (f : RefSt → RefSt) (d : Dev) : Dev := d.setRef n (f (d.ref n))

/-- Record `n` of `tcs`. -/
def Dev.tc (d : Dev) (n : Nat) : TcSt := smGet {} n d.tcs
/-- The device with record `n` of `tcs` set. -/
def Dev.setTc (n : Nat) (x : TcSt) (d : Dev) : Dev := { d with tcs := smPut n x d.tcs }
/-- The device with record `n` of `tcs` mapped. -/
def Dev.modTc (n : Nat) (f : TcSt → TcSt) (d : Dev) : Dev := d.setTc n (f (d.tc n))

/-- Record `n` of `ckos`. -/
def Dev.cko (d : Dev) (n : Nat) : CkoSt := smGet {} n d.ckos
/-- The device with record `n` of `ckos` set. -/
def Dev.setCko (n : Nat) (x : CkoSt) (d : Dev) : Dev := { d with ckos := smPut n x d.ckos }
/-- The device with record `n` of `ckos` mapped. -/
def Dev.modCko (n : Nat) (f : CkoSt → CkoSt) (d : Dev) : Dev := d.setCko n (f (d.cko n))

/-- Record `n` of `fpos`. -/
def Dev.fpo (d : Dev) (n : Nat) : FpoSt := smGet {} n d.fpos
/-- The device with record `n` of `fpos` set. -/
def Dev.setFpo (n : Nat) (x : FpoSt) (d : Dev) : Dev := { d with fpos := smPut n x d.fpos }
/-- The device with record `n` of `fpos` mapped. -/
def Dev.modFpo (n : Nat) (f : FpoSt → FpoSt) (d : Dev) : Dev := d.setFpo n (f (d.fpo n))

/-- Record `n` of `tpins`. -/
def Dev.tpin (d : Dev) (n : Nat) : TpinSt := smGet {} n d.tpins
/-- The device with record `n` of `tpins` set. -/
def Dev.setTpin (n : Nat) (x : TpinSt) (d : Dev) : Dev := { d with tpins := smPut n x d.tpins }
/-- The device with record `n` of `tpins` mapped. -/
def Dev.modTpin (n : Nat) (f : TpinSt → TpinSt) (d : Dev) : Dev := d.setTpin n (f (d.tpin n))

/-- Record `n` of `probes`. -/
def Dev.probe (d : Dev) (n : Nat) : ProbeSt := smGet {} n d.probes
/-- The device with record `n` of `probes` set. -/
def Dev.setProbe (n : Nat) (x : ProbeSt) (d : Dev) : Dev := { d with probes := smPut n x d.probes }
/-- The device with record `n` of `probes` mapped. -/
def Dev.modProbe (n : Nat) (f : ProbeSt → ProbeSt) (d : Dev) : Dev := d.setProbe n (f (d.probe n))


end Sys2Proof.Machine
end

