-- ==== Sys2Proof/Machine/Transmit.lean ====
section
/-! DEFINITION. What the TX directions of the lanes send, slot by slot (R52, R55 to R64, R73, R75, R76, R84, R90, R91), the egress
stream assemblers that fill DATA rows (R22, R93, R96, R110, R119), and the instant of a command, up to which they have sent. -/
namespace Sys2Proof.Machine
open Sys2Proof

/-! ### Lanes and bonds -/

/-- rx_trace_ps of a lane, quarter picoseconds (R83). -/
def LaneSt.rxTrace (l : LaneSt) : Nat := fieldU l.profile 4 4
/-- tx_trace_ps of a lane, quarter picoseconds (R83). -/
def LaneSt.txTrace (l : LaneSt) : Nat := fieldU l.profile 8 4
/-- tx_enable (R83). -/
def LaneSt.txEnable (l : LaneSt) : Bool := bit (fieldU l.profile 0 2) 4
/-- tx_idle_unused (R83). -/
def LaneSt.txIdleUnused (l : LaneSt) : Bool := bit (fieldU l.profile 0 2) 3
/-- rx_enable (R83). -/
def LaneSt.rxEnable (l : LaneSt) : Bool := bit (fieldU l.profile 2 2) 8

/-- The egress stream whose bond covers a lane. -/
def Cfg.egressAt (n : Nat) (c : Cfg) : Option (Nat × EgressCfg) := c.egress.find? (fun e => decide (e.1 ≤ n) && decide (n < e.1 + e.2.bondSize))
/-- The ingress stream whose bond covers a lane. -/
def Cfg.ingressAt (n : Nat) (c : Cfg) : Option (Nat × IngressCfg) := c.ingress.find? (fun e => decide (e.1 ≤ n) && decide (n < e.1 + e.2.bondSize))
/-- The lanes of an egress stream's bond. -/
def Cfg.egressLanes (e : Nat) (c : Cfg) : List Nat :=
  match smFind e c.egress with
  | some x => (List.range x.bondSize).map (· + e)
  | none => []

/-- Reported RX state (R65, R83, R88): 0 DOWN, 1 LOCKED, 2 IDLE, 3 PRBS. A direction with rx_enable 0 reports DOWN in PRBS mode too: R83
ignores the direction, R86 has one in PRBS mode report PRBS, and neither names the other (DESIGN CHOICE, log entry 23). -/
def LaneSt.rxCode (l : LaneSt) : Nat :=
  if !l.rxEnable then 0
  else if l.rxPattern != 0 then 3
  else match l.rx with
    | .locked | .idlePending => 1
    | .idle | .relock => 2
    | .hunt | .verify => 0

/-- The ingress state that a TX direction reports of the reverse direction of its lane (R61): 0 DOWN, 1 LOCKED, 2 BONDED, 3 IDLE,
0xFF in PRBS mode, for which R61 lists no code (DEDUCED, log entry 21). -/
def Dev.peerState (n : Nat) (d : Dev) : Nat :=
  match (d.lane n).rxCode with
  | 1 => (match d.cfg.ingressAt n with | some (s, _) => if (d.is s).bonded then 2 else 1 | none => 1)
  | 2 => 3
  | 3 => 0xFF
  | _ => 0

/-- lane_index and bond_size that a TX direction sends: those of its egress bond, or 0 and 1 without one (R61, R64). -/
def Cfg.txPlace (n : Nat) (c : Cfg) : Nat × Nat := match c.egressAt n with | some (e, x) => (n - e, x.bondSize) | none => (0, 1)

/-! ### The egress stream assembler (R22, R90, R93, R96) -/

/-- An IDLE packet of a given length, header included (R95, R110). -/
def idlePacket (total : Nat) : List Byte := packetHeader 15 (total - 4) ++ zeros (total - 4)

/-- The bytes of a packet (R93). -/
def TxEntry.bytes (x : TxEntry) : List Byte := packetHeader x.type x.payload.length ++ x.payload

/-- A VIDEO_LINE cut after its first `k` groups (R96, R103, R104): the two segments cover its pixels once. -/
def TxEntry.cut (k : Nat) (x : TxEntry) : TxEntry × TxEntry :=
  let p := x.payload
  let first := fieldU p 2 2
  let count := fieldU p 4 2
  let n := k * x.group.2
  let bits := leNat (p.drop 8)
  let seg (from_ len value : Nat) : List Byte :=
    p.take 2 ++ toBE 2 from_ ++ toBE 2 len ++ zeros 2 ++ toLE ((len / max 1 x.group.2 * x.group.1 + 7) / 8) value
  ({ x with payload := seg first n (bits % 2 ^ (k * x.group.1)) }, { x with payload := seg (first + n) (count - n) (bits / 2 ^ (k * x.group.1)) })

/-- The packet that starts at a boundary with `left` bytes of the run to come, and the queue after it: a packet that fits, or the
part of a VIDEO_LINE that fits, so that no run ends with more than 64 bytes of IDLE for want of a cut (R96). -/
def TxEntry.fit (left : Nat) (x : TxEntry) (r : List TxEntry) : Option (List Byte × List TxEntry) :=
  if 4 + x.payload.length ≤ left then some (x.bytes, r)
  else if x.type = 3 then
    let k := (left - 12) * 8 / max 1 x.group.1
    if left < 12 || k = 0 || fieldU x.payload 4 2 ≤ k * x.group.2 then none
    else some ((x.cut k).1.bytes, (x.cut k).2 :: r)
  else none

/-- Whether a packet may leave before those of some types that stand ahead of it (R97, R107): AUDIO, CLOCK_INFO and AUX stand anywhere
between other packets and keep their own order, and the packets of a frame pass those three only. -/
def overtakes (type : Nat) (ahead : List Nat) : Bool :=
  if 5 ≤ type && type ≤ 7 then !ahead.contains type else ahead.all fun k => decide (5 ≤ k) && decide (k ≤ 7)

/-- The first ready packet of a queue that stands in the `left` bytes to the end of the run (R96), and the queue without it. -/
def pickEntry (at_ left : Nat) : List Nat → List TxEntry → Option (List Byte × List TxEntry)
  | _, [] => none
  | ahead, x :: r =>
    if at_ < x.ready then none
    else match (if overtakes x.type ahead then x.fit left r else none) with
      | some q => some q
      | none => (pickEntry at_ left (x.type :: ahead) r).map fun q => (q.1, x :: q.2)

/-- The next bytes of a row at a packet boundary: `room` bytes of the row are free, `left` bytes of the run are to come, `row` is a row's
length. A packet that is ready starts, else IDLE fills the row (R22, R91, R119); an IDLE packet that cannot stand in the last 3 bytes
of a row fills the next row too, unless the run ends there, before a Dusk entry (`closing`) or an ALIGN slot (R96). -/
def TxQueue.next (at_ room left row : Nat) (closing : Bool) (q : TxQueue) : List Byte × List TxEntry :=
  let idle (n : Nat) : List Byte := if n < 4 then zeros n else idlePacket (min n 8196)
  let fill := if room < 4 && room < left then idle (room + row) else idle room
  match q.queue with
  | x :: _ => if x.ready ≤ at_ then (pickEntry at_ left [] q.queue).getD (idle left, q.queue) else (fill, q.queue)
  | [] => (if closing then idle room else fill, [])

/-- The payload bytes of one DATA row, and the assembler after it (R90, R96). -/
def TxQueue.row (at_ row left : Nat) (closing : Bool) : Nat → Nat → TxQueue → List Byte × TxQueue
  | 0, room, q => (zeros room, q)
  | fuel + 1, room, q =>
    if room = 0 then ([], q)
    else
      let (bs, queue) := if q.rest.isEmpty then q.next at_ room (left - (row - room)) row closing else (q.rest, q.queue)
      let mark := if q.rest.isEmpty && bs.headD 0 == 2 then some (row - room) else q.mark
      let (tail, q') := TxQueue.row at_ row left closing fuel (room - min room bs.length) { q with queue := queue, rest := bs.drop room, mark := mark }
      (bs.take room ++ tail, q')

/-! ### One block slot -/

/-- Running disparity after symbols (R52). -/
def rdAfter (rd : Bool) (syms : List Sym) : Bool := syms.foldl (fun r s => rdNext 10 r s.toNat) rd

/-- The block type of a lane's next slot (R60, R64, R73, R75, R76, R91): ALIGN in every 1,024th slot; then TRAIN in the TRAIN period and
in a Dawn burst, IDLE_ENTER in a Dusk entry once what the assembler holds has been sent, and DATA or NULL otherwise. -/
def TxLine.kind (tx : TxState) (bonded waits : Bool) (x : TxLine) : Nat :=
  if x.slot = 0 then 2
  else
    let data := if bonded then 0 else 4
    match tx with
    | .train => 1
    | .burst => if x.burstLeft = 0 then data else 1
    | .dusk => if x.idleLeft = 4 && bonded && waits then 0 else 3
    | .run | .down => data

/-- The TX direction of a lane sends one block in its slot: the encoded symbols, its counters and its disparity after it (R52, R55, R57,
R59 to R64). The driver goes to common mode after the last IDLE_ENTER (R75). -/
def Dev.sendBlock (n kind : Nat) (payload : List Byte) (d : Dev) : Dev :=
  let l := d.lane n
  let x := d.txLine n
  let p := d.cfg.txPlace n
  let marker := if kind = 2 then (x.marker + 1) % 65536 else x.marker
  let body := match kind with
    | 0 => payload
    | 1 => trainPayload p.1 p.2 n (d.peerState n) marker
    | 2 => alignPayload p.1 p.2 n (d.peerState n) marker
    | 3 => idleEnterPayload (x.idleLeft - 1) l.duskReason marker
    | _ => zeros 60
  let syms := encodeBlock x.rd kind x.slot body
  let next := x.at_ + blockQ (d.block (n / 32)).rateCode
  let idle := if kind = 3 then x.idleLeft - 1 else x.idleLeft
  let ends := kind == 3 && idle == 0
  let d := d.setTxLine n { x with at_ := next, slot := (x.slot + 1) % 1024, marker := marker, rd := rdAfter x.rd syms, idleLeft := idle,
                                  idleT := if ends then next else x.idleT, burstLeft := x.burstLeft - 1 }
  { d with out := (if ends then [.driver n false] else []) ++ .block n x.at_ syms :: d.out }

/-- `k` more bits of a PRBS generator, in the order sent (R84): each is the recurrence over those before it. -/
def prbsRun (pattern : Nat) : Nat → List Bool → List Bool × List Bool
  | 0, reg => ([], reg)
  | k + 1, reg =>
    let b := prbsPredict pattern reg
    let q := prbsRun pattern k (b :: reg.dropLast)
    (b :: q.1, q.2)

/-- The TX direction of a lane in PRBS mode sends 640 bits in a block time (R84). -/
def Dev.sendPrbs (n : Nat) (d : Dev) : Dev :=
  let x := d.txLine n
  let q := prbsRun (d.lane n).txPattern 640 x.reg
  let d := d.setTxLine n { x with at_ := x.at_ + blockQ (d.block (n / 32)).rateCode, reg := q.2 }
  { d with out := .prbs n x.at_ q.1 :: d.out }

/-- Whether a TX direction sends anything in its slots: blocks, or a PRBS pattern. -/
def Dev.sends (n : Nat) (d : Dev) : Bool :=
  let l := d.lane n
  if l.txPattern != 0 then l.txEnable && (d.block (n / 32)).pll
  else match l.tx with
    | .down => false
    | .dusk => (d.txLine n).idleLeft != 0
    | .train | .run | .burst => true

/-- Frame start of an egress frame: device time at which the symbol that carries the first byte of its FRAME_START leaves the lane with
lane_index 0, for a slot that begins at `at_`, plus that lane's trace (R55, R460). -/
def TxQueue.started (c : Clock) (at_ rate trace : Nat) (q : TxQueue) : TxQueue :=
  match q.mark with
  | some i => { q with mark := none, startQ := some (c.devQ (at_ + (2 + i % 60) * symbolQ rate) + trace) }
  | none => q

/-- One block slot of a bond, or of a lane without one: the lanes that carry blocks follow the first of them, and a DATA row is dealt
out in order of lane_index (R90, R91). -/
def Dev.sendSlot (e : Option Nat) (lanes : List Nat) (d : Dev) : Dev :=
  let on := lanes.filter fun n => (d.lane n).txPattern = 0 && d.sends n
  let d := (lanes.filter fun n => (d.lane n).txPattern != 0 && d.sends n).foldl (fun d n => d.sendPrbs n) d
  match on with
  | [] => d
  | m :: _ =>
    let x := d.txLine m
    let q := match e with | some e => d.txQueue e | none => {}
    let tx := (d.lane m).tx
    let kind := x.kind tx e.isSome (!q.rest.isEmpty || !q.queue.isEmpty)
    let row := 60 * lanes.length
    let (bs, q') := if kind = 0 then q.row x.at_ row ((1024 - x.slot) * row) (tx == .dusk) (row + 1) row else ([], q)
    let d := match e with | some e => if kind = 0 then d.setTxQueue e (q'.started d.clk x.at_ (d.block (m / 32)).rateCode (d.lane e).txTrace) else d | none => d
    on.foldl (fun d n => d.sendBlock n kind ((bs.drop (60 * lanes.idxOf n)).take 60)) d

/-- The block slots of a bond, or of a lane without one, that begin before an instant. -/
def Dev.sendSlots (e : Option Nat) (lanes : List Nat) : Nat → Dev → Dev
  | 0, d => d
  | k + 1, d => Dev.sendSlots e lanes k (d.sendSlot e lanes)

/-- How many block slots of a lane begin before an instant. -/
def Dev.slotsBefore (t n : Nat) (d : Dev) : Nat :=
  if d.sends n then ceilDiv (t - (d.txLine n).at_) (blockQ (d.block (n / 32)).rateCode) else 0

/-- Every TX direction has sent the slots that begin before an instant: bonds first, then the lanes without an egress stream. -/
def Dev.sendTo (t : Nat) (d : Dev) : Dev :=
  let d := d.cfg.egress.foldl (fun d e =>
    let ls := d.cfg.egressLanes e.1
    d.sendSlots (some e.1) ls (ls.foldl (fun k n => max k (d.slotsBefore t n)) 0)) d
  (d.lanes.filter fun l => (d.cfg.egressAt l.1).isNone).foldl (fun d l => d.sendSlots none [l.1] (d.slotsBefore t l.1)) d

/-! ### The instant of a command -/

/-- The device at the instant of a command: the clock moves on, what the TX directions have sent since the last command leaves the
pins, oldest first, and nothing else does. Time never runs back. -/
def Dev.arrive (t : Nat) (d : Dev) : Dev :=
  let q := Dev.sendTo t { d with out := [] }
  { d with clk := { d.clk with now := max d.clk.now t }, txLines := q.txLines, txQueues := q.txQueues, out := q.out.reverse }

/-- The state at the instant of a command. -/
def State.arrive (t : Nat) (s : State) : State := s.onDev (Dev.arrive t)

/-- A happening with an instant of its own acts at that instant, `d`; a command that comes before it only moves the clock on, and one that
comes after it acts as of `d`, or as of the last command where that is later (log entry 1). -/
def State.due (d t : Nat) (f : State → State) (s : State) : State := if t < d then s.arrive t else f (s.arrive d)

/-- A happening whose instant the spec only bounds acts when its command comes, or at its latest instant `d` (log entry 1). -/
def State.within (d t : Nat) (f : State → State) (s : State) : State := f (s.arrive (min t d))

/-- The first CORE cycle at or after an instant (R34, R255, R376). -/
def coreUp (t : Nat) : Nat := ceilDiv t 3200 * 3200

end Sys2Proof.Machine
end

