-- ==== Sys2Proof/Machine/Flags.lean ====
section
/-! DEFINITION. Status codes, events, the event log and the commit ledger: how a happening is counted, logged and reported. -/
namespace Sys2Proof.Machine
open Sys2Proof

/-- Status codes (R443). -/
def Status.code : Status → Nat
  | .ok => 0x0000 | .accepted => 0x0001 | .badVersion => 0x0100 | .badLength => 0x0101 | .unknownOpcode => 0x0102
  | .badParam => 0x0103 | .noLease => 0x0200 | .staleSeq => 0x0201 | .busy => 0x0202 | .notReady => 0x0203
  | .sleeping => 0x0204 | .resourceBusy => 0x0300 | .tcFreq => 0x0301 | .capacity => 0x0302 | .linebuf => 0x0303
  | .budget => 0x0304 | .notSync => 0x0305 | .late => 0x0306 | .noStage => 0x0307 | .stageFull => 0x0308
  | .memError => 0x0400 | .locked => 0x0500 | .authFailed => 0x0501 | .backoff => 0x0502 | .badImage => 0x0503
  | .trial => 0x0504 | .settingsUnreadable => 0x0505 | .attestRetired => 0x0506 | .internal => 0x0600

/-- Ingress states as R131 codes. -/
def IsState.code : IsState → Nat
  | .off => 0 | .down => 1 | .search => 2 | .locked => 3 | .mismatch => 4 | .selfRefresh => 5
/-- Surface states as R162 codes. -/
def SurfState.code : SurfState → Nat
  | .empty => 0 | .writing => 1 | .complete => 2 | .incomplete => 3 | .open_ => 4 | .sealed => 5
/-- Selection states as R337 codes. -/
def SelState.code : SelState → Nat
  | .freerun => 0 | .tracking => 1 | .switching => 2 | .holdover => 3 | .jumpWait => 4
/-- Reference states; the codes are those of R319. -/
def RefState.code : RefState → Nat
  | .disabled => 0 | .noActivity => 1 | .outOfRange => 2 | .qualifying => 3 | .qualified => 4
/-- Servo states as R365 codes. -/
def ServoState.code : ServoState → Nat
  | .free => 0 | .acquiring => 1 | .locked => 2 | .holdover => 3
/-- Bundle states as R485 codes. -/
def BundleState.code : BundleState → Nat
  | .none => 0 | .activating => 1 | .trial => 2 | .pendingBoot => 3 | .completed => 4 | .reverted => 5

/-! ### Event sources (R447) -/

/-- BLANK, LINE, DONE, UNDERRUN of a head: x = 0 to 3. -/
def srcHead (h x : Nat) : Nat := 4 * h + x
/-- LOCK, FORMAT, INTEGRITY of an ingress stream: x = 0 to 2. -/
def srcIngress (s x : Nat) : Nat := 1024 + 3 * s + x
/-- TAKE, SR of an egress stream: x = 0, 1. -/
def srcEgress (e x : Nat) : Nat := 2560 + 2 * e + x
/-- LOCK, PRBS of a lane: x = 0, 1. -/
def srcLane (n x : Nat) : Nat := 3584 + 2 * n + x
/-- Reference events: group r mod 16 (R338). -/
def srcRef (r x : Nat) : Nat := 4608 + 4 * (r % 16) + x
/-- TC events (R339). -/
def srcTc (c x : Nat) : Nat := 4672 + 4 * c + x

/-- Sources that are never logged: BLANK, LINE and DONE of the heads (R454). -/
def neverLogged (src : Nat) : Bool := decide (src < 1024) && (src % 4 != 3)

/-- A log ring with one entry more; the oldest falls out when `cap` entries are held (R454, R456). -/
def ringAdd {α : Type} (cap : Nat) (l : List α) (x : α) : List α := if l.length < cap then l ++ [x] else l.drop 1 ++ [x]

/-- One occurrence of a source at the event unit (R448, R449, R454). `tNow` is the elapsed instant, `u` the device time. -/
def Events.occur (src detail u tNow : Nat) (e : Events) : Events :=
  let x := smGet ({} : EvSrc) src e.srcs
  let open_ := match x.loggedAt with
    | none => true
    | some w => decide (msQ + w ≤ tNow)
  let log := !neverLogged src && open_
  let x' : EvSrc := { count := x.count + 1, lastTime := u, lastOcc := e.nextOcc, lastDetail := detail,
                      loggedAt := if log then some tNow else x.loggedAt }
  { e with
    srcs := smPut src x' e.srcs
    nextOcc := e.nextOcc + 1
    log := if log then ringAdd 16384 e.log { seq := e.logNext, source := src, time := u, detail := detail } else e.log
    logNext := if log then e.logNext + 1 else e.logNext
    suppressed := if !neverLogged src && !open_ then e.suppressed + 1 else e.suppressed }

/-- An occurrence now (R28: stamped by the replica of the unit, here device time at the command's instant). -/
def Dev.raise (src detail : Nat) (d : Dev) : Dev := { d with ev := d.ev.occur src detail d.nowU d.clk.now }

/-- An occurrence now, when a condition holds. -/
def Dev.raiseIf (c : Bool) (src detail : Nat) (d : Dev) : Dev := if c then d.raise src detail else d

/-- One ledger entry at the boundary that has just passed (R38, R456). -/
def Dev.ledger (gen : U32) (kind outcome unit : Nat) (boundary : Nat) (frame : U32) (d : Dev) : Dev :=
  { d with ev := { d.ev with
    ledger := ringAdd 65536 d.ev.ledger { seq := d.ev.ledgerNext, generation := gen, kind := kind, outcome := outcome,
                                          unit := unit, boundary := boundary, frameNumber := frame }
    ledgerNext := d.ev.ledgerNext + 1 } }

/-- A frame number that has become known fills in a ledger entry (R456). -/
def Dev.ledgerFill (seq : Nat) (frame : U32) (d : Dev) : Dev :=
  { d with ev := { d.ev with ledger := d.ev.ledger.map (fun x => if x.seq = seq then { x with frameNumber := frame } else x) } }

/-- System event sources (R451). -/
def evState := 4800
/-- EV.SYS.LEASE. -/
def evLease := 4801
/-- EV.SYS.STAGE_EXPIRED. -/
def evStageExpired := 4802
/-- EV.SYS.COMMIT_DISCARDED. -/
def evDiscarded := 4803
/-- EV.SYS.WATCHDOG. -/
def evWatchdog := 4804
/-- EV.SYS.TIME_STEP. -/
def evTimeStep := 4805
/-- EV.SYS.FP_REALIGN. -/
def evFpRealign := 4806
/-- EV.SYS.TIME_SERVO. -/
def evServo := 4807
/-- EV.SYS.PTP. -/
def evPtp := 4808
/-- EV.SYS.LINK. -/
def evLink := 4809
/-- EV.SYS.NET. -/
def evNet := 4810
/-- EV.SYS.THERMAL. -/
def evThermal := 4811
/-- EV.SYS.POWER. -/
def evPower := 4812
/-- EV.SYS.FW. -/
def evFw := 4813
/-- EV.SYS.SETTINGS. -/
def evSettings := 4814
/-- EV.SYS.SECURITY. -/
def evSecurity := 4815
/-- EV.SYS.CALIBRATION. -/
def evCalibration := 4816
/-- EV.PROBE.FREEZE. -/
def evFreeze := 4817

/-- Signed value as the low `bits` bits of an event detail. -/
def sBits (bits : Nat) (v : Int) : Nat := (v.emod (2 ^ bits)).toNat

end Sys2Proof.Machine
end

