-- ==== Sys2Proof/Machine/Operands.lean ====
section
/-! DEFINITION. The operand forms: the parameter layouts of the configuration operations, each as the spec's table gives it:
the rules of its fields (R6, R7, R11), how a record is read from parameter bytes and how it is written into a reply. -/
namespace Sys2Proof.Machine
open Sys2Proof

/-- How a field of a layout is checked (R6, R7, R11). -/
inductive FieldKind where
  /-- Unsigned: any value when no range is given. -/
  | unsigned
  /-- Two's complement. -/
  | signed
  /-- Reserved: zero (R7). -/
  | reserved
  /-- time96: nanoseconds at most 999,999,999 (R11). -/
  | time
  deriving DecidableEq, Repr

/-- A field of a layout: offset and size in bytes, kind, and the value ranges the spec allows. -/
structure FieldRule where
  /-- Byte offset. -/
  off : Nat
  /-- Bytes. -/
  size : Nat
  /-- Kind of check. -/
  kind : FieldKind
  /-- Allowed ranges, ends included; none given allows every value. -/
  ranges : List (Int × Int) := []
  deriving DecidableEq, Repr

/-- Whether a field of the parameters obeys its rule. -/
def FieldRule.ok (p : List Byte) (f : FieldRule) : Bool :=
  match f.kind with
  | .unsigned => f.ranges.isEmpty || f.ranges.any (fun r => decide (r.1 ≤ (fieldU p f.off f.size : Int)) && decide ((fieldU p f.off f.size : Int) ≤ r.2))
  | .signed => f.ranges.isEmpty || f.ranges.any (fun r => decide (r.1 ≤ fieldS p f.off f.size) && decide (fieldS p f.off f.size ≤ r.2))
  | .reserved => fieldU p f.off f.size == 0
  | .time => decide (fieldU p (f.off + 6) 4 ≤ 999999999)

/-- Offset of the first field that breaks its rule (R7, R421). -/
def firstBad (fs : List FieldRule) (p : List Byte) : Option Nat := (fs.find? (fun f => !f.ok p)).map (·.off)

/-- Offset of the first field of a releasing record that breaks its rule (R7): a field of it may also be zero, since the release uses
none but the number it releases. DEDUCED, log entry 63. -/
def firstBadFree (fs : List FieldRule) (p : List Byte) : Option Nat := (fs.find? (fun f => !(f.ok p || fieldU p f.off f.size == 0))).map (·.off)

/-- The record of R99 read at offset `o`. -/
def readDesc (p : List Byte) (o : Nat) : Desc :=
  { descriptorId := fieldU p (o + 0) 1,
    colourFormat := fieldU p (o + 1) 1,
    bitDepth := fieldU p (o + 2) 1,
    scan := fieldU p (o + 3) 1,
    width := fieldU p (o + 4) 2,
    height := fieldU p (o + 6) 2,
    hTotal := fieldU p (o + 8) 2,
    vTotal := fieldU p (o + 10) 2,
    rateNum := fieldU p (o + 12) 4,
    rateDen := fieldU p (o + 16) 4,
    colorimetry := fieldU p (o + 20) 1,
    transfer := fieldU p (o + 21) 1,
    range := fieldU p (o + 22) 1,
    siting := fieldU p (o + 23) 1,
    presOffset := fieldU p (o + 24) 4,
    tsScale := fieldU p (o + 28) 1 }

/-- The 32 bytes of the record of R99. -/
def writeDesc (x : Desc) : List Byte :=
  toBE 1 x.descriptorId ++
  toBE 1 x.colourFormat ++
  toBE 1 x.bitDepth ++
  toBE 1 x.scan ++
  toBE 2 x.width ++
  toBE 2 x.height ++
  toBE 2 x.hTotal ++
  toBE 2 x.vTotal ++
  toBE 4 x.rateNum ++
  toBE 4 x.rateDen ++
  toBE 1 x.colorimetry ++
  toBE 1 x.transfer ++
  toBE 1 x.range ++
  toBE 1 x.siting ++
  toBE 4 x.presOffset ++
  toBE 1 x.tsScale ++
  zeros 3

/-- The record of R211 read at offset `o`. -/
def readMatrixBlk (p : List Byte) (o : Nat) : MatrixBlk :=
  { c00 := fieldS p (o + 0) 4,
    c01 := fieldS p (o + 4) 4,
    c02 := fieldS p (o + 8) 4,
    c10 := fieldS p (o + 12) 4,
    c11 := fieldS p (o + 16) 4,
    c12 := fieldS p (o + 20) 4,
    c20 := fieldS p (o + 24) 4,
    c21 := fieldS p (o + 28) 4,
    c22 := fieldS p (o + 32) 4,
    pre0 := fieldS p (o + 36) 4,
    pre1 := fieldS p (o + 40) 4,
    pre2 := fieldS p (o + 44) 4,
    post0 := fieldS p (o + 48) 4,
    post1 := fieldS p (o + 52) 4,
    post2 := fieldS p (o + 56) 4 }

/-- The 60 bytes of the record of R211. -/
def writeMatrixBlk (x : MatrixBlk) : List Byte :=
  toBEs 4 x.c00 ++
  toBEs 4 x.c01 ++
  toBEs 4 x.c02 ++
  toBEs 4 x.c10 ++
  toBEs 4 x.c11 ++
  toBEs 4 x.c12 ++
  toBEs 4 x.c20 ++
  toBEs 4 x.c21 ++
  toBEs 4 x.c22 ++
  toBEs 4 x.pre0 ++
  toBEs 4 x.pre1 ++
  toBEs 4 x.pre2 ++
  toBEs 4 x.post0 ++
  toBEs 4 x.post1 ++
  toBEs 4 x.post2

/-- Field rules of R127. -/
def ingressCfgFields : List FieldRule :=
  [⟨0, 2, .unsigned, [(0, 511)]⟩,
   ⟨2, 1, .unsigned, [(0, 0)]⟩,
   ⟨3, 1, .unsigned, [(0, 0), (1, 1), (2, 2), (4, 4), (8, 8), (16, 16), (32, 32)]⟩,
   ⟨4, 2, .unsigned, [(0, 4095)]⟩,
   ⟨6, 2, .reserved, []⟩,
   ⟨9, 1, .unsigned, [(0, 3)]⟩,
   ⟨10, 1, .unsigned, [(6, 6), (8, 8), (10, 10), (12, 12), (14, 14), (16, 16)]⟩,
   ⟨11, 1, .unsigned, [(0, 2)]⟩,
   ⟨12, 2, .unsigned, [(1, 16384)]⟩,
   ⟨14, 2, .unsigned, [(1, 8704)]⟩,
   ⟨28, 1, .unsigned, [(0, 3)]⟩,
   ⟨29, 1, .unsigned, [(0, 4)]⟩,
   ⟨30, 1, .unsigned, [(0, 1)]⟩,
   ⟨31, 1, .unsigned, [(0, 2)]⟩,
   ⟨37, 3, .reserved, []⟩,
   ⟨40, 4, .unsigned, [(0, 100000)]⟩,
   ⟨44, 4, .unsigned, [(0, 1000000)]⟩,
   ⟨48, 1, .unsigned, [(0, 1)]⟩,
   ⟨49, 3, .reserved, []⟩]

/-- The record of R127 read at offset `o`. -/
def readIngressCfg (p : List Byte) (o : Nat) : IngressCfg :=
  { stream := fieldU p (o + 0) 2,
    direction := fieldU p (o + 2) 1,
    bondSize := fieldU p (o + 3) 1,
    matchBits := fieldU p (o + 4) 2,
    expected := readDesc p (o + 8),
    rateTolPpm := fieldU p (o + 40) 4,
    jitterAllowNs := fieldU p (o + 44) 4,
    crcCheck := fieldU p (o + 48) 1 }

/-- The 52 bytes of the record of R127. -/
def writeIngressCfg (x : IngressCfg) : List Byte :=
  toBE 2 x.stream ++
  toBE 1 x.direction ++
  toBE 1 x.bondSize ++
  toBE 2 x.matchBits ++
  zeros 2 ++
  writeDesc x.expected ++
  toBE 4 x.rateTolPpm ++
  toBE 4 x.jitterAllowNs ++
  toBE 1 x.crcCheck ++
  zeros 3

/-- Field rules of R439. -/
def egressCfgFields : List FieldRule :=
  [⟨0, 2, .unsigned, [(0, 511)]⟩,
   ⟨2, 1, .unsigned, [(1, 1)]⟩,
   ⟨3, 1, .unsigned, [(0, 0), (1, 1), (2, 2), (4, 4), (8, 8), (16, 16), (32, 32)]⟩,
   ⟨4, 4, .unsigned, [(10000, 1000000)]⟩,
   ⟨8, 4, .reserved, []⟩]

/-- The record of R439 read at offset `o`. -/
def readEgressCfg (p : List Byte) (o : Nat) : EgressCfg :=
  { stream := fieldU p (o + 0) 2,
    direction := fieldU p (o + 2) 1,
    bondSize := fieldU p (o + 3) 1,
    presOffsetNs := fieldU p (o + 4) 4 }

/-- The 12 bytes of the record of R439. -/
def writeEgressCfg (x : EgressCfg) : List Byte :=
  toBE 2 x.stream ++
  toBE 1 x.direction ++
  toBE 1 x.bondSize ++
  toBE 4 x.presOffsetNs ++
  zeros 4

/-- Field rules of R144. -/
def takeCfgFields : List FieldRule :=
  [⟨0, 2, .unsigned, [(0, 511)]⟩,
   ⟨2, 1, .unsigned, [(0, 2)]⟩,
   ⟨3, 1, .unsigned, [(0, 1)]⟩,
   ⟨4, 2, .unsigned, [(0, 511)]⟩,
   ⟨6, 1, .unsigned, [(0, 2)]⟩]

/-- The record of R144 read at offset `o`. -/
def readTakeCfg (p : List Byte) (o : Nat) : TakeCfg :=
  { egress := fieldU p (o + 0) 2,
    sourceKind := fieldU p (o + 2) 1,
    flags := fieldU p (o + 3) 1,
    source := fieldU p (o + 4) 2,
    audioTransition := fieldU p (o + 6) 1,
    fadeMs := fieldU p (o + 7) 1 }

/-- The 8 bytes of the record of R144. -/
def writeTakeCfg (x : TakeCfg) : List Byte :=
  toBE 2 x.egress ++
  toBE 1 x.sourceKind ++
  toBE 1 x.flags ++
  toBE 2 x.source ++
  toBE 1 x.audioTransition ++
  toBE 1 x.fadeMs

/-- Field rules of R172. -/
def capCfgFields : List FieldRule :=
  [⟨0, 2, .unsigned, [(0, 511)]⟩,
   ⟨2, 1, .unsigned, [(0, 1)]⟩,
   ⟨3, 1, .unsigned, [(0, 1)]⟩,
   ⟨4, 1, .unsigned, [(0, 0), (2, 16)]⟩,
   ⟨5, 1, .unsigned, [(0, 1)]⟩,
   ⟨6, 2, .reserved, []⟩]

/-- The record of R172 read at offset `o`. -/
def readCapCfg (p : List Byte) (o : Nat) : CapCfg :=
  { channel := fieldU p (o + 0) 2,
    enable := fieldU p (o + 2) 1,
    storage := fieldU p (o + 3) 1,
    ringLen := fieldU p (o + 4) 1,
    crcPolicy := fieldU p (o + 5) 1,
    cropX := fieldU p (o + 8) 2,
    cropY := fieldU p (o + 10) 2,
    cropWidth := fieldU p (o + 12) 2,
    cropHeight := fieldU p (o + 14) 2,
    ringBase := fieldU p (o + 16) 8,
    pitchBytes := fieldU p (o + 24) 4,
    slotBytes := fieldU p (o + 28) 4 }

/-- The 32 bytes of the record of R172. -/
def writeCapCfg (x : CapCfg) : List Byte :=
  toBE 2 x.channel ++
  toBE 1 x.enable ++
  toBE 1 x.storage ++
  toBE 1 x.ringLen ++
  toBE 1 x.crcPolicy ++
  zeros 2 ++
  toBE 2 x.cropX ++
  toBE 2 x.cropY ++
  toBE 2 x.cropWidth ++
  toBE 2 x.cropHeight ++
  toBE 8 x.ringBase ++
  toBE 4 x.pitchBytes ++
  toBE 4 x.slotBytes

/-- Field rules of R160. -/
def surfCfgFields : List FieldRule :=
  [⟨0, 2, .unsigned, [(8192, 16383)]⟩,
   ⟨2, 1, .reserved, []⟩,
   ⟨3, 1, .reserved, []⟩,
   ⟨4, 1, .unsigned, [(0, 1)]⟩,
   ⟨5, 1, .unsigned, [(0, 5)]⟩,
   ⟨6, 1, .unsigned, [(6, 6), (8, 8), (10, 10), (12, 12), (14, 14), (16, 16)]⟩,
   ⟨7, 1, .reserved, []⟩,
   ⟨8, 2, .unsigned, [(1, 16384)]⟩,
   ⟨10, 2, .unsigned, [(1, 8704)]⟩,
   ⟨24, 4, .reserved, []⟩,
   ⟨28, 4, .reserved, []⟩,
   ⟨32, 12, .reserved, []⟩,
   ⟨44, 12, .reserved, []⟩,
   ⟨56, 4, .reserved, []⟩,
   ⟨60, 2, .reserved, []⟩,
   ⟨62, 2, .reserved, []⟩]

/-- The record of R160 read at offset `o`. -/
def readSurfCfg (p : List Byte) (o : Nat) : SurfCfg :=
  { surface := fieldU p (o + 0) 2,
    storage := fieldU p (o + 4) 1,
    colourFormat := fieldU p (o + 5) 1,
    bitDepth := fieldU p (o + 6) 1,
    width := fieldU p (o + 8) 2,
    height := fieldU p (o + 10) 2,
    pitchBytes := fieldU p (o + 12) 4,
    baseAddr := fieldU p (o + 16) 8 }

/-- The 64 bytes of the record of R160. -/
def writeSurfCfg (x : SurfCfg) : List Byte :=
  toBE 2 x.surface ++
  zeros 1 ++
  zeros 1 ++
  toBE 1 x.storage ++
  toBE 1 x.colourFormat ++
  toBE 1 x.bitDepth ++
  zeros 1 ++
  toBE 2 x.width ++
  toBE 2 x.height ++
  toBE 4 x.pitchBytes ++
  toBE 8 x.baseAddr ++
  zeros 4 ++
  zeros 4 ++
  zeros 12 ++
  zeros 12 ++
  zeros 4 ++
  zeros 2 ++
  zeros 2

/-- Field rules of R198. -/
def layerCfgFields : List FieldRule :=
  [⟨0, 2, .unsigned, [(0, 1023)]⟩,
   ⟨2, 2, .unsigned, [(0, 255)]⟩,
   ⟨4, 1, .unsigned, [(0, 2)]⟩,
   ⟨5, 1, .unsigned, [(0, 15)]⟩,
   ⟨6, 1, .unsigned, [(0, 2)]⟩,
   ⟨7, 1, .unsigned, [(0, 3)]⟩,
   ⟨8, 2, .signed, [(-16384, 16383)]⟩,
   ⟨10, 2, .signed, [(-8704, 8703)]⟩,
   ⟨12, 2, .unsigned, [(1, 16384)]⟩,
   ⟨14, 2, .unsigned, [(1, 8704)]⟩,
   ⟨16, 2, .unsigned, [(0, 16383)]⟩,
   ⟨18, 2, .unsigned, [(0, 8703)]⟩,
   ⟨20, 2, .unsigned, [(1, 16384)]⟩,
   ⟨22, 2, .unsigned, [(1, 8704)]⟩,
   ⟨26, 1, .unsigned, [(0, 7), (255, 255)]⟩,
   ⟨27, 1, .unsigned, [(0, 1)]⟩,
   ⟨28, 1, .unsigned, [(0, 7)]⟩,
   ⟨29, 1, .unsigned, [(0, 1)]⟩,
   ⟨30, 1, .unsigned, [(0, 2)]⟩,
   ⟨31, 1, .reserved, []⟩,
   ⟨32, 2, .unsigned, [(0, 1023), (65535, 65535)]⟩,
   ⟨34, 6, .reserved, []⟩,
   ⟨40, 8, .unsigned, [(0, 1152921504606846975)]⟩,
   ⟨48, 1, .unsigned, [(0, 2)]⟩,
   ⟨49, 1, .unsigned, [(0, 3)]⟩]

/-- The record of R198 read at offset `o`. -/
def readLayerCfg (p : List Byte) (o : Nat) : LayerCfg :=
  { slot := fieldU p (o + 0) 2,
    head := fieldU p (o + 2) 2,
    enable := fieldU p (o + 4) 1,
    z := fieldU p (o + 5) 1,
    alphaMode := fieldU p (o + 6) 1,
    notReadyPolicy := fieldU p (o + 7) 1,
    dstX := fieldS p (o + 8) 2,
    dstY := fieldS p (o + 10) 2,
    dstWidth := fieldU p (o + 12) 2,
    dstHeight := fieldU p (o + 14) 2,
    srcX := fieldU p (o + 16) 2,
    srcY := fieldU p (o + 18) 2,
    srcWidth := fieldU p (o + 20) 2,
    srcHeight := fieldU p (o + 22) 2,
    layerAlpha := fieldU p (o + 24) 2,
    scaler := fieldU p (o + 26) 1,
    shortBufferPolicy := fieldU p (o + 27) 1,
    lutSelect := fieldU p (o + 28) 1,
    matrixEnable := fieldU p (o + 29) 1,
    chromaSiting := fieldU p (o + 30) 1,
    seamSlot := fieldU p (o + 32) 2,
    fillColour := fieldU p (o + 40) 8,
    sourceKind := fieldU p (o + 48) 1,
    syncMode := fieldU p (o + 49) 1,
    fieldMode := fieldU p (o + 50) 1,
    cadenceLen := fieldU p (o + 51) 1,
    source := fieldU p (o + 52) 2,
    chaseLines := fieldU p (o + 54) 2,
    cadencePattern := fieldU p (o + 56) 4,
    blendDelayNs := fieldU p (o + 60) 4 }

/-- The 64 bytes of the record of R198. -/
def writeLayerCfg (x : LayerCfg) : List Byte :=
  toBE 2 x.slot ++
  toBE 2 x.head ++
  toBE 1 x.enable ++
  toBE 1 x.z ++
  toBE 1 x.alphaMode ++
  toBE 1 x.notReadyPolicy ++
  toBEs 2 x.dstX ++
  toBEs 2 x.dstY ++
  toBE 2 x.dstWidth ++
  toBE 2 x.dstHeight ++
  toBE 2 x.srcX ++
  toBE 2 x.srcY ++
  toBE 2 x.srcWidth ++
  toBE 2 x.srcHeight ++
  toBE 2 x.layerAlpha ++
  toBE 1 x.scaler ++
  toBE 1 x.shortBufferPolicy ++
  toBE 1 x.lutSelect ++
  toBE 1 x.matrixEnable ++
  toBE 1 x.chromaSiting ++
  zeros 1 ++
  toBE 2 x.seamSlot ++
  zeros 6 ++
  toBE 8 x.fillColour ++
  toBE 1 x.sourceKind ++
  toBE 1 x.syncMode ++
  toBE 1 x.fieldMode ++
  toBE 1 x.cadenceLen ++
  toBE 2 x.source ++
  toBE 2 x.chaseLines ++
  toBE 4 x.cadencePattern ++
  toBE 4 x.blendDelayNs

/-- The record of R215 read at offset `o`. -/
def readSynthCfg (p : List Byte) (o : Nat) : SynthCfg :=
  { slot := fieldU p (o + 0) 2,
    kind := fieldU p (o + 2) 1,
    prbsReseed := fieldU p (o + 3) 1,
    cellWidth := fieldU p (o + 4) 2,
    cellHeight := fieldU p (o + 6) 2,
    colour0 := fieldU p (o + 8) 8,
    colour1 := fieldU p (o + 16) 8,
    alpha0 := fieldU p (o + 24) 2,
    alpha1 := fieldU p (o + 26) 2,
    prbsSeed := fieldU p (o + 28) 4 }

/-- The 32 bytes of the record of R215. -/
def writeSynthCfg (x : SynthCfg) : List Byte :=
  toBE 2 x.slot ++
  toBE 1 x.kind ++
  toBE 1 x.prbsReseed ++
  toBE 2 x.cellWidth ++
  toBE 2 x.cellHeight ++
  toBE 8 x.colour0 ++
  toBE 8 x.colour1 ++
  toBE 2 x.alpha0 ++
  toBE 2 x.alpha1 ++
  toBE 4 x.prbsSeed

/-- Field rules of R229. -/
def scalerCfgFields : List FieldRule :=
  [⟨0, 2, .unsigned, [(0, 1023)]⟩,
   ⟨2, 1, .unsigned, [(0, 2)]⟩,
   ⟨3, 1, .unsigned, [(0, 5)]⟩,
   ⟨4, 1, .unsigned, [(0, 5)]⟩,
   ⟨5, 1, .reserved, []⟩,
   ⟨6, 2, .signed, [(-2048, 2047)]⟩,
   ⟨8, 2, .signed, [(-2048, 2047)]⟩,
   ⟨10, 6, .reserved, []⟩]

/-- The record of R229 read at offset `o`. -/
def readScalerCfg (p : List Byte) (o : Nat) : ScalerCfg :=
  { slot := fieldU p (o + 0) 2,
    op := fieldU p (o + 2) 1,
    hKernel := fieldU p (o + 3) 1,
    vKernel := fieldU p (o + 4) 1,
    hOffset := fieldS p (o + 6) 2,
    vOffset := fieldS p (o + 8) 2 }

/-- The 16 bytes of the record of R229. -/
def writeScalerCfg (x : ScalerCfg) : List Byte :=
  toBE 2 x.slot ++
  toBE 1 x.op ++
  toBE 1 x.hKernel ++
  toBE 1 x.vKernel ++
  zeros 1 ++
  toBEs 2 x.hOffset ++
  toBEs 2 x.vOffset ++
  zeros 6

/-- Field rules of R247. -/
def timingCfgFields : List FieldRule :=
  [⟨0, 2, .unsigned, [(0, 255)]⟩,
   ⟨2, 1, .unsigned, [(0, 1)]⟩,
   ⟨3, 1, .unsigned, [(0, 2)]⟩,
   ⟨4, 1, .unsigned, [(0, 7)]⟩,
   ⟨5, 1, .unsigned, [(0, 2)]⟩,
   ⟨6, 1, .unsigned, [(0, 1)]⟩,
   ⟨7, 1, .unsigned, [(0, 8)]⟩,
   ⟨8, 2, .unsigned, [(1, 16384)]⟩,
   ⟨16, 2, .unsigned, [(1, 8704)]⟩,
   ⟨28, 1, .unsigned, [(0, 1)]⟩,
   ⟨29, 1, .reserved, []⟩,
   ⟨32, 4, .unsigned, [(2000000000, 3200000000)]⟩,
   ⟨36, 4, .unsigned, [(1, 4294967295)]⟩,
   ⟨40, 4, .unsigned, [(1, 4294967295)]⟩,
   ⟨45, 1, .reserved, []⟩,
   ⟨52, 4, .reserved, []⟩,
   ⟨56, 12, .time, []⟩,
   ⟨68, 4, .reserved, []⟩,
   ⟨72, 8, .unsigned, [(0, 1152921504606846975)]⟩]

/-- The record of R247 read at offset `o`. -/
def readTimingCfg (p : List Byte) (o : Nat) : TimingCfg :=
  { head := fieldU p (o + 0) 2,
    enable := fieldU p (o + 2) 1,
    mode := fieldU p (o + 3) 1,
    tc := fieldU p (o + 4) 1,
    scan := fieldU p (o + 5) 1,
    tilePair := fieldU p (o + 6) 1,
    blackFrames := fieldU p (o + 7) 1,
    hActive := fieldU p (o + 8) 2,
    hFp := fieldU p (o + 10) 2,
    hSync := fieldU p (o + 12) 2,
    hBp := fieldU p (o + 14) 2,
    vActive := fieldU p (o + 16) 2,
    vFp := fieldU p (o + 18) 2,
    vSync := fieldU p (o + 20) 2,
    vBp := fieldU p (o + 22) 2,
    vFpMin := fieldU p (o + 24) 2,
    vFpMax := fieldU p (o + 26) 2,
    interlaceExtra := fieldU p (o + 28) 1,
    eventLine := fieldU p (o + 30) 2,
    dcoFreqHz := fieldU p (o + 32) 4,
    pclkNum := fieldU p (o + 36) 4,
    pclkDen := fieldU p (o + 40) 4,
    followKind := fieldU p (o + 44) 1,
    followSource := fieldU p (o + 46) 2,
    followOffsetNs := fieldS p (o + 48) 4,
    startTime := fieldT p (o + 56),
    underrunColour := fieldU p (o + 72) 8 }

/-- The 80 bytes of the record of R247. -/
def writeTimingCfg (x : TimingCfg) : List Byte :=
  toBE 2 x.head ++
  toBE 1 x.enable ++
  toBE 1 x.mode ++
  toBE 1 x.tc ++
  toBE 1 x.scan ++
  toBE 1 x.tilePair ++
  toBE 1 x.blackFrames ++
  toBE 2 x.hActive ++
  toBE 2 x.hFp ++
  toBE 2 x.hSync ++
  toBE 2 x.hBp ++
  toBE 2 x.vActive ++
  toBE 2 x.vFp ++
  toBE 2 x.vSync ++
  toBE 2 x.vBp ++
  toBE 2 x.vFpMin ++
  toBE 2 x.vFpMax ++
  toBE 1 x.interlaceExtra ++
  zeros 1 ++
  toBE 2 x.eventLine ++
  toBE 4 x.dcoFreqHz ++
  toBE 4 x.pclkNum ++
  toBE 4 x.pclkDen ++
  toBE 1 x.followKind ++
  zeros 1 ++
  toBE 2 x.followSource ++
  toBEs 4 x.followOffsetNs ++
  zeros 4 ++
  timeBytes x.startTime ++
  zeros 4 ++
  toBE 8 x.underrunColour

/-- Field rules of R222. -/
def colourCfgFields : List FieldRule :=
  [⟨0, 2, .unsigned, [(0, 255)]⟩,
   ⟨2, 1, .unsigned, [(0, 3)]⟩,
   ⟨3, 1, .unsigned, [(6, 6), (8, 8), (10, 10), (12, 12), (14, 14), (16, 16)]⟩,
   ⟨4, 1, .unsigned, [(0, 3)]⟩,
   ⟨5, 1, .unsigned, [(0, 4)]⟩,
   ⟨6, 1, .unsigned, [(0, 1)]⟩,
   ⟨7, 1, .unsigned, [(0, 2)]⟩,
   ⟨8, 1, .unsigned, [(0, 1)]⟩,
   ⟨9, 1, .unsigned, [(0, 1)]⟩,
   ⟨10, 6, .reserved, []⟩,
   ⟨16, 8, .unsigned, [(0, 1152921504606846975)]⟩,
   ⟨24, 4, .signed, [(-524288, 524287)]⟩,
   ⟨28, 4, .signed, [(-524288, 524287)]⟩,
   ⟨32, 4, .signed, [(-524288, 524287)]⟩,
   ⟨36, 4, .signed, [(-524288, 524287)]⟩,
   ⟨40, 4, .signed, [(-524288, 524287)]⟩,
   ⟨44, 4, .signed, [(-524288, 524287)]⟩,
   ⟨48, 4, .signed, [(-524288, 524287)]⟩,
   ⟨52, 4, .signed, [(-524288, 524287)]⟩,
   ⟨56, 4, .signed, [(-524288, 524287)]⟩,
   ⟨60, 4, .signed, [(-1048576, 1048575)]⟩,
   ⟨64, 4, .signed, [(-1048576, 1048575)]⟩,
   ⟨68, 4, .signed, [(-1048576, 1048575)]⟩,
   ⟨72, 4, .signed, [(-1048576, 1048575)]⟩,
   ⟨76, 4, .signed, [(-1048576, 1048575)]⟩,
   ⟨80, 4, .signed, [(-1048576, 1048575)]⟩]

/-- The record of R222 read at offset `o`. -/
def readColourCfg (p : List Byte) (o : Nat) : ColourCfg :=
  { head := fieldU p (o + 0) 2,
    outFormat := fieldU p (o + 2) 1,
    outDepth := fieldU p (o + 3) 1,
    colorimetry := fieldU p (o + 4) 1,
    transfer := fieldU p (o + 5) 1,
    range := fieldU p (o + 6) 1,
    siting := fieldU p (o + 7) 1,
    matrixEnable := fieldU p (o + 8) 1,
    legalClip := fieldU p (o + 9) 1,
    background := fieldU p (o + 16) 8,
    matrix := readMatrixBlk p (o + 24) }

/-- The 84 bytes of the record of R222. -/
def writeColourCfg (x : ColourCfg) : List Byte :=
  toBE 2 x.head ++
  toBE 1 x.outFormat ++
  toBE 1 x.outDepth ++
  toBE 1 x.colorimetry ++
  toBE 1 x.transfer ++
  toBE 1 x.range ++
  toBE 1 x.siting ++
  toBE 1 x.matrixEnable ++
  toBE 1 x.legalClip ++
  zeros 6 ++
  toBE 8 x.background ++
  writeMatrixBlk x.matrix

/-- Field rules of R269. -/
def srCfgFields : List FieldRule :=
  [⟨0, 2, .unsigned, [(0, 255)]⟩,
   ⟨2, 1, .unsigned, [(0, 1)]⟩,
   ⟨3, 1, .unsigned, [(0, 1)]⟩,
   ⟨4, 4, .reserved, []⟩]

/-- The record of R269 read at offset `o`. -/
def readSrCfg (p : List Byte) (o : Nat) : SrCfg :=
  { head := fieldU p (o + 0) 2,
    op := fieldU p (o + 2) 1,
    dusk := fieldU p (o + 3) 1 }

/-- The 8 bytes of the record of R269. -/
def writeSrCfg (x : SrCfg) : List Byte :=
  toBE 2 x.head ++
  toBE 1 x.op ++
  toBE 1 x.dusk ++
  zeros 4

/-- Field rules of R284. -/
def audioChCfgFields : List FieldRule :=
  [⟨0, 2, .unsigned, [(0, 16383)]⟩,
   ⟨2, 1, .unsigned, [(0, 3)]⟩,
   ⟨3, 1, .unsigned, [(0, 2)]⟩,
   ⟨4, 2, .unsigned, [(0, 16383)]⟩,
   ⟨6, 1, .unsigned, [(0, 1)]⟩,
   ⟨7, 1, .unsigned, [(0, 2)]⟩,
   ⟨8, 2, .unsigned, [(0, 1023), (65535, 65535)]⟩,
   ⟨11, 1, .reserved, []⟩,
   ⟨12, 4, .signed, [(-192000, 768000)]⟩,
   ⟨20, 2, .unsigned, [(1, 4000)]⟩,
   ⟨22, 2, .reserved, []⟩]

/-- The record of R284 read at offset `o`. -/
def readAudioChCfg (p : List Byte) (o : Nat) : AudioChCfg :=
  { channel := fieldU p (o + 0) 2,
    sourceKind := fieldU p (o + 2) 1,
    conversion := fieldU p (o + 3) 1,
    source := fieldU p (o + 4) 2,
    delayMode := fieldU p (o + 6) 1,
    changeTransition := fieldU p (o + 7) 1,
    refSlot := fieldU p (o + 8) 2,
    fadeMs := fieldU p (o + 10) 1,
    trimSamples := fieldS p (o + 12) 4,
    manualDelayNs := fieldU p (o + 16) 4,
    delayMaxMs := fieldU p (o + 20) 2 }

/-- The 24 bytes of the record of R284. -/
def writeAudioChCfg (x : AudioChCfg) : List Byte :=
  toBE 2 x.channel ++
  toBE 1 x.sourceKind ++
  toBE 1 x.conversion ++
  toBE 2 x.source ++
  toBE 1 x.delayMode ++
  toBE 1 x.changeTransition ++
  toBE 2 x.refSlot ++
  toBE 1 x.fadeMs ++
  zeros 1 ++
  toBEs 4 x.trimSamples ++
  toBE 4 x.manualDelayNs ++
  toBE 2 x.delayMaxMs ++
  zeros 2

/-- Field rules of R288. -/
def audioStreamCfgFields : List FieldRule :=
  [⟨0, 2, .unsigned, [(0, 511)]⟩,
   ⟨2, 1, .unsigned, [(0, 7)]⟩,
   ⟨3, 1, .reserved, []⟩,
   ⟨4, 1, .unsigned, [(0, 6)]⟩,
   ⟨5, 1, .unsigned, [(0, 6)]⟩,
   ⟨6, 1, .unsigned, [(0, 6)]⟩,
   ⟨7, 1, .unsigned, [(0, 6)]⟩,
   ⟨8, 1, .unsigned, [(0, 1)]⟩,
   ⟨9, 1, .unsigned, [(0, 1)]⟩,
   ⟨10, 1, .unsigned, [(0, 1)]⟩,
   ⟨11, 1, .unsigned, [(0, 1)]⟩,
   ⟨12, 4, .reserved, []⟩]

/-- The record of R288 read at offset `o`. -/
def readAudioStreamCfg (p : List Byte) (o : Nat) : AudioStreamCfg :=
  { egress := fieldU p (o + 0) 2,
    audioTc := fieldU p (o + 2) 1,
    rate0 := fieldU p (o + 4) 1,
    rate1 := fieldU p (o + 5) 1,
    rate2 := fieldU p (o + 6) 1,
    rate3 := fieldU p (o + 7) 1,
    width0 := fieldU p (o + 8) 1,
    width1 := fieldU p (o + 9) 1,
    width2 := fieldU p (o + 10) 1,
    width3 := fieldU p (o + 11) 1 }

/-- The 16 bytes of the record of R288. -/
def writeAudioStreamCfg (x : AudioStreamCfg) : List Byte :=
  toBE 2 x.egress ++
  toBE 1 x.audioTc ++
  zeros 1 ++
  toBE 1 x.rate0 ++
  toBE 1 x.rate1 ++
  toBE 1 x.rate2 ++
  toBE 1 x.rate3 ++
  toBE 1 x.width0 ++
  toBE 1 x.width1 ++
  toBE 1 x.width2 ++
  toBE 1 x.width3 ++
  zeros 4

/-- The record of R301 read at offset `o`. -/
def readToneCfg (p : List Byte) (o : Nat) : ToneCfg :=
  { generator := fieldU p (o + 0) 1,
    kind := fieldU p (o + 1) 1,
    levelCdb := fieldU p (o + 2) 2,
    freqMhz := fieldU p (o + 4) 4,
    phaseUdeg := fieldU p (o + 8) 4,
    prbsSeed := fieldU p (o + 12) 4 }

/-- The 16 bytes of the record of R301. -/
def writeToneCfg (x : ToneCfg) : List Byte :=
  toBE 1 x.generator ++
  toBE 1 x.kind ++
  toBE 2 x.levelCdb ++
  toBE 4 x.freqMhz ++
  toBE 4 x.phaseUdeg ++
  toBE 4 x.prbsSeed

/-- Field rules of R309. -/
def refCfgFields : List FieldRule :=
  [⟨0, 1, .unsigned, [(0, 40)]⟩,
   ⟨1, 1, .unsigned, [(0, 1)]⟩,
   ⟨2, 1, .unsigned, [(0, 4)]⟩,
   ⟨3, 1, .unsigned, [(0, 1)]⟩,
   ⟨12, 4, .unsigned, [(10, 1000000)]⟩,
   ⟨16, 4, .unsigned, [(11, 1000000)]⟩,
   ⟨20, 4, .unsigned, [(100, 3600000)]⟩,
   ⟨24, 4, .unsigned, [(1, 1000000)]⟩,
   ⟨32, 2, .unsigned, [(0, 511)]⟩,
   ⟨34, 6, .reserved, []⟩]

/-- The record of R309 read at offset `o`. -/
def readRefCfg (p : List Byte) (o : Nat) : RefCfg :=
  { ref := fieldU p (o + 0) 1,
    enable := fieldU p (o + 1) 1,
    type := fieldU p (o + 2) 1,
    edge := fieldU p (o + 3) 1,
    nominalNum := fieldU p (o + 4) 4,
    nominalDen := fieldU p (o + 8) 4,
    acceptPpb := fieldU p (o + 12) 4,
    rejectPpb := fieldU p (o + 16) 4,
    qualTimeMs := fieldU p (o + 20) 4,
    jumpThresholdNs := fieldU p (o + 24) 4,
    tracePs := fieldU p (o + 28) 4,
    lrcStream := fieldU p (o + 32) 2 }

/-- The 40 bytes of the record of R309. -/
def writeRefCfg (x : RefCfg) : List Byte :=
  toBE 1 x.ref ++
  toBE 1 x.enable ++
  toBE 1 x.type ++
  toBE 1 x.edge ++
  toBE 4 x.nominalNum ++
  toBE 4 x.nominalDen ++
  toBE 4 x.acceptPpb ++
  toBE 4 x.rejectPpb ++
  toBE 4 x.qualTimeMs ++
  toBE 4 x.jumpThresholdNs ++
  toBE 4 x.tracePs ++
  toBE 2 x.lrcStream ++
  zeros 6

/-- Field rules of R320. -/
def selectCfgFields : List FieldRule :=
  [⟨0, 1, .unsigned, [(0, 7)]⟩,
   ⟨1, 1, .unsigned, [(0, 1)]⟩,
   ⟨2, 1, .unsigned, [(0, 3)]⟩,
   ⟨3, 1, .unsigned, [(0, 1)]⟩,
   ⟨4, 1, .unsigned, [(0, 8)]⟩,
   ⟨5, 1, .unsigned, [(0, 40), (255, 255)]⟩,
   ⟨6, 1, .unsigned, [(0, 2)]⟩,
   ⟨7, 1, .unsigned, [(0, 1)]⟩,
   ⟨16, 2, .unsigned, [(0, 3600)]⟩,
   ⟨18, 2, .unsigned, [(1, 3600)]⟩,
   ⟨20, 2, .unsigned, [(0, 600)]⟩,
   ⟨22, 2, .reserved, []⟩,
   ⟨24, 4, .unsigned, [(100, 1000000)]⟩,
   ⟨28, 4, .reserved, []⟩]

/-- The record of R320 read at offset `o`. -/
def readSelectCfg (p : List Byte) (o : Nat) : SelectCfg :=
  { tc := fieldU p (o + 0) 1,
    op := fieldU p (o + 1) 1,
    mode := fieldU p (o + 2) 1,
    revertive := fieldU p (o + 3) 1,
    listLen := fieldU p (o + 4) 1,
    manualRef := fieldU p (o + 5) 1,
    jumpPolicy := fieldU p (o + 6) 1,
    initialAlign := fieldU p (o + 7) 1,
    list := sliceB p (o + 8) 8,
    wtrS := fieldU p (o + 16) 2,
    historyS := fieldU p (o + 18) 2,
    guardS := fieldU p (o + 20) 2,
    slewPsPerS := fieldU p (o + 24) 4 }

/-- The 32 bytes of the record of R320. -/
def writeSelectCfg (x : SelectCfg) : List Byte :=
  toBE 1 x.tc ++
  toBE 1 x.op ++
  toBE 1 x.mode ++
  toBE 1 x.revertive ++
  toBE 1 x.listLen ++
  toBE 1 x.manualRef ++
  toBE 1 x.jumpPolicy ++
  toBE 1 x.initialAlign ++
  sliceB x.list 0 8 ++
  toBE 2 x.wtrS ++
  toBE 2 x.historyS ++
  toBE 2 x.guardS ++
  zeros 2 ++
  toBE 4 x.slewPsPerS ++
  zeros 4

/-- Field rules of R341. -/
def tcCfgFields : List FieldRule :=
  [⟨0, 1, .unsigned, [(0, 7)]⟩,
   ⟨1, 1, .unsigned, [(0, 1)]⟩,
   ⟨2, 2, .reserved, []⟩,
   ⟨4, 4, .unsigned, [(2000000000, 3200000000)]⟩,
   ⟨8, 4, .unsigned, [(0, 0), (100, 100000)]⟩,
   ⟨12, 4, .unsigned, [(0, 0), (10, 1000)]⟩,
   ⟨16, 4, .unsigned, [(0, 0), (1, 100)]⟩,
   ⟨20, 4, .unsigned, [(0, 0), (1, 100)]⟩,
   ⟨24, 4, .unsigned, [(0, 0), (1000, 100000)]⟩,
   ⟨28, 4, .unsigned, [(0, 10000)]⟩]

/-- The record of R341 read at offset `o`. -/
def readTcCfg (p : List Byte) (o : Nat) : TcCfg :=
  { tc := fieldU p (o + 0) 1,
    op := fieldU p (o + 1) 1,
    setFreqHz := fieldU p (o + 4) 4,
    bwClk := fieldU p (o + 8) 4,
    bwFp := fieldU p (o + 12) 4,
    bwPps := fieldU p (o + 16) 4,
    bwPtp := fieldU p (o + 20) 4,
    bwLrc := fieldU p (o + 24) 4,
    lockLimitPpb := fieldU p (o + 28) 4 }

/-- The 32 bytes of the record of R341. -/
def writeTcCfg (x : TcCfg) : List Byte :=
  toBE 1 x.tc ++
  toBE 1 x.op ++
  zeros 2 ++
  toBE 4 x.setFreqHz ++
  toBE 4 x.bwClk ++
  toBE 4 x.bwFp ++
  toBE 4 x.bwPps ++
  toBE 4 x.bwPtp ++
  toBE 4 x.bwLrc ++
  toBE 4 x.lockLimitPpb

/-- Field rules of R348. -/
def ckoCfgFields : List FieldRule :=
  [⟨0, 1, .unsigned, [(0, 63)]⟩,
   ⟨1, 1, .unsigned, [(0, 2)]⟩,
   ⟨2, 1, .unsigned, [(0, 7)]⟩,
   ⟨3, 1, .unsigned, [(0, 1)]⟩,
   ⟨4, 4, .unsigned, [(1, 16777216)]⟩,
   ⟨12, 2, .unsigned, [(0, 4095)]⟩,
   ⟨14, 1, .unsigned, [(0, 2)]⟩,
   ⟨15, 1, .reserved, []⟩,
   ⟨16, 4, .unsigned, [(0, 12000)]⟩,
   ⟨20, 4, .reserved, []⟩]

/-- The record of R348 read at offset `o`. -/
def readCkoCfg (p : List Byte) (o : Nat) : CkoCfg :=
  { cko := fieldU p (o + 0) 1,
    op := fieldU p (o + 1) 1,
    tc := fieldU p (o + 2) 1,
    enable := fieldU p (o + 3) 1,
    divider := fieldU p (o + 4) 4,
    coarseHalf := fieldU p (o + 8) 4,
    fineQ := fieldU p (o + 12) 2,
    drive := fieldU p (o + 14) 1,
    tracePs := fieldU p (o + 16) 4 }

/-- The 24 bytes of the record of R348. -/
def writeCkoCfg (x : CkoCfg) : List Byte :=
  toBE 1 x.cko ++
  toBE 1 x.op ++
  toBE 1 x.tc ++
  toBE 1 x.enable ++
  toBE 4 x.divider ++
  toBE 4 x.coarseHalf ++
  toBE 2 x.fineQ ++
  toBE 1 x.drive ++
  zeros 1 ++
  toBE 4 x.tracePs ++
  zeros 4

/-- Field rules of R353. -/
def fpoCfgFields : List FieldRule :=
  [⟨0, 1, .unsigned, [(0, 31)]⟩,
   ⟨1, 1, .unsigned, [(0, 2)]⟩,
   ⟨2, 1, .unsigned, [(0, 7)]⟩,
   ⟨3, 1, .unsigned, [(0, 2)]⟩,
   ⟨24, 1, .unsigned, [(0, 31), (255, 255)]⟩,
   ⟨25, 1, .unsigned, [(0, 1)]⟩,
   ⟨26, 2, .reserved, []⟩,
   ⟨28, 4, .unsigned, [(0, 12000)]⟩]

/-- The record of R353 read at offset `o`. -/
def readFpoCfg (p : List Byte) (o : Nat) : FpoCfg :=
  { fpo := fieldU p (o + 0) 1,
    op := fieldU p (o + 1) 1,
    tc := fieldU p (o + 2) 1,
    mode := fieldU p (o + 3) 1,
    rateNum := fieldU p (o + 4) 4,
    rateDen := fieldU p (o + 8) 4,
    widthNs := fieldU p (o + 12) 4,
    offsetQ := fieldS p (o + 16) 8,
    anchorRef := fieldU p (o + 24) 1,
    polarity := fieldU p (o + 25) 1,
    tracePs := fieldU p (o + 28) 4 }

/-- The 32 bytes of the record of R353. -/
def writeFpoCfg (x : FpoCfg) : List Byte :=
  toBE 1 x.fpo ++
  toBE 1 x.op ++
  toBE 1 x.tc ++
  toBE 1 x.mode ++
  toBE 4 x.rateNum ++
  toBE 4 x.rateDen ++
  toBE 4 x.widthNs ++
  toBEs 8 x.offsetQ ++
  toBE 1 x.anchorRef ++
  toBE 1 x.polarity ++
  zeros 2 ++
  toBE 4 x.tracePs

/-- Field rules of R358. -/
def tpinCfgFields : List FieldRule :=
  [⟨0, 1, .unsigned, [(0, 15)]⟩,
   ⟨1, 1, .unsigned, [(0, 2)]⟩,
   ⟨2, 1, .unsigned, [(0, 2)]⟩,
   ⟨3, 1, .unsigned, [(0, 31), (255, 255)]⟩,
   ⟨4, 4, .reserved, []⟩]

/-- The record of R358 read at offset `o`. -/
def readTpinCfg (p : List Byte) (o : Nat) : TpinCfg :=
  { tpin := fieldU p (o + 0) 1,
    op := fieldU p (o + 1) 1,
    role := fieldU p (o + 2) 1,
    copyFpo := fieldU p (o + 3) 1 }

/-- The 8 bytes of the record of R358. -/
def writeTpinCfg (x : TpinCfg) : List Byte :=
  toBE 1 x.tpin ++
  toBE 1 x.op ++
  toBE 1 x.role ++
  toBE 1 x.copyFpo ++
  zeros 4

/-- Field rules of R359. -/
def timeCfgFields : List FieldRule :=
  [⟨0, 1, .unsigned, [(0, 2)]⟩,
   ⟨1, 1, .unsigned, [(0, 31), (255, 255)]⟩,
   ⟨2, 1, .unsigned, [(0, 1)]⟩,
   ⟨3, 1, .unsigned, [(0, 2)]⟩,
   ⟨4, 1, .unsigned, [(0, 127)]⟩,
   ⟨5, 1, .unsigned, [(0, 1)]⟩,
   ⟨6, 2, .reserved, []⟩,
   ⟨8, 4, .unsigned, [(0, 1000)]⟩,
   ⟨12, 4, .unsigned, [(0, 0), (100, 1000000000)]⟩,
   ⟨16, 4, .unsigned, [(0, 100000)]⟩,
   ⟨20, 4, .signed, [(-1000000, 1000000)]⟩,
   ⟨24, 4, .reserved, []⟩]

/-- The record of R359 read at offset `o`. -/
def readTimeCfg (p : List Byte) (o : Nat) : TimeCfg :=
  { source := fieldU p (o + 0) 1,
    ppsRef := fieldU p (o + 1) 1,
    ptpProfile := fieldU p (o + 2) 1,
    ptpTransport := fieldU p (o + 3) 1,
    ptpDomain := fieldU p (o + 4) 1,
    ptpDelay := fieldU p (o + 5) 1,
    servoBwMhz := fieldU p (o + 8) 4,
    stepThresholdNs := fieldU p (o + 12) 4,
    slewMaxPpb := fieldU p (o + 16) 4,
    asymmetryNs := fieldS p (o + 20) 4 }

/-- The 28 bytes of the record of R359. -/
def writeTimeCfg (x : TimeCfg) : List Byte :=
  toBE 1 x.source ++
  toBE 1 x.ppsRef ++
  toBE 1 x.ptpProfile ++
  toBE 1 x.ptpTransport ++
  toBE 1 x.ptpDomain ++
  toBE 1 x.ptpDelay ++
  zeros 2 ++
  toBE 4 x.servoBwMhz ++
  toBE 4 x.stepThresholdNs ++
  toBE 4 x.slewMaxPpb ++
  toBEs 4 x.asymmetryNs ++
  zeros 4

/-- Field rules of R406. -/
def netCfgFields : List FieldRule :=
  [⟨0, 1, .unsigned, [(0, 1)]⟩,
   ⟨1, 1, .unsigned, [(0, 15)]⟩,
   ⟨2, 2, .unsigned, [(0, 1023), (65535, 65535)]⟩,
   ⟨4, 2, .unsigned, [(0, 4094)]⟩,
   ⟨6, 1, .unsigned, [(0, 7)]⟩,
   ⟨7, 1, .reserved, []⟩,
   ⟨13, 3, .reserved, []⟩,
   ⟨20, 4, .unsigned, [(0, 0), (3758096384, 4026531839)]⟩,
   ⟨41, 7, .reserved, []⟩,
   ⟨48, 16, .unsigned, [(0, 0), (338953138925153547590470800371487866880, 340282366920938463463374607431768211455)]⟩,
   ⟨64, 6, .reserved, []⟩,
   ⟨70, 2, .reserved, []⟩]

/-- The record of R406 read at offset `o`. -/
def readNetCfg (p : List Byte) (o : Nat) : NetCfg :=
  { op := fieldU p (o + 0) 1,
    ipMode := fieldU p (o + 1) 1,
    deviceNumber := fieldU p (o + 2) 2,
    vlanId := fieldU p (o + 4) 2,
    vlanPcp := fieldU p (o + 6) 1,
    ipv4Addr := fieldU p (o + 8) 4,
    ipv4Prefix := fieldU p (o + 12) 1,
    ipv4Gateway := fieldU p (o + 16) 4,
    ipv4Group := fieldU p (o + 20) 4,
    ipv6Addr := fieldU p (o + 24) 16,
    ipv6Prefix := fieldU p (o + 40) 1,
    ipv6Group := fieldU p (o + 48) 16 }

/-- The 72 bytes of the record of R406. -/
def writeNetCfg (x : NetCfg) : List Byte :=
  toBE 1 x.op ++
  toBE 1 x.ipMode ++
  toBE 2 x.deviceNumber ++
  toBE 2 x.vlanId ++
  toBE 1 x.vlanPcp ++
  zeros 1 ++
  toBE 4 x.ipv4Addr ++
  toBE 1 x.ipv4Prefix ++
  zeros 3 ++
  toBE 4 x.ipv4Gateway ++
  toBE 4 x.ipv4Group ++
  toBE 16 x.ipv6Addr ++
  toBE 1 x.ipv6Prefix ++
  zeros 7 ++
  toBE 16 x.ipv6Group ++
  zeros 6 ++
  zeros 2

/-- Field rules of R459. -/
def probeCfgFields : List FieldRule :=
  [⟨0, 2, .unsigned, [(0, 511)]⟩,
   ⟨2, 1, .unsigned, [(0, 1)]⟩,
   ⟨3, 1, .unsigned, [(0, 1)]⟩,
   ⟨12, 4, .reserved, []⟩]

/-- The record of R459 read at offset `o`. -/
def readProbeCfg (p : List Byte) (o : Nat) : ProbeCfg :=
  { stream := fieldU p (o + 0) 2,
    direction := fieldU p (o + 2) 1,
    enable := fieldU p (o + 3) 1,
    statsX := fieldU p (o + 4) 2,
    statsY := fieldU p (o + 6) 2,
    statsWidth := fieldU p (o + 8) 2,
    statsHeight := fieldU p (o + 10) 2 }

/-- The 16 bytes of the record of R459. -/
def writeProbeCfg (x : ProbeCfg) : List Byte :=
  toBE 2 x.stream ++
  toBE 1 x.direction ++
  toBE 1 x.enable ++
  toBE 2 x.statsX ++
  toBE 2 x.statsY ++
  toBE 2 x.statsWidth ++
  toBE 2 x.statsHeight ++
  zeros 4

/-- Field rules of R461. -/
def freezeCfgFields : List FieldRule :=
  [⟨0, 2, .unsigned, [(0, 511)]⟩,
   ⟨2, 1, .unsigned, [(0, 1)]⟩,
   ⟨3, 1, .unsigned, [(0, 5)]⟩,
   ⟨6, 2, .reserved, []⟩,
   ⟨12, 12, .time, []⟩,
   ⟨24, 4, .reserved, []⟩]

/-- The record of R461 read at offset `o`. -/
def readFreezeCfg (p : List Byte) (o : Nat) : FreezeCfg :=
  { stream := fieldU p (o + 0) 2,
    direction := fieldU p (o + 2) 1,
    trigger := fieldU p (o + 3) 1,
    surface := fieldU p (o + 4) 2,
    frameNumber := fieldU p (o + 8) 4,
    time := fieldT p (o + 12) }

/-- The 28 bytes of the record of R461. -/
def writeFreezeCfg (x : FreezeCfg) : List Byte :=
  toBE 2 x.stream ++
  toBE 1 x.direction ++
  toBE 1 x.trigger ++
  toBE 2 x.surface ++
  zeros 2 ++
  toBE 4 x.frameNumber ++
  timeBytes x.time ++
  zeros 4

end Sys2Proof.Machine
end

