-- ==== Sys2Proof/Machine/Daond.lean ====
section
/-! DEFINITION. The Daond engine: what makes a datagram a command (R408), the order of the checks (R411), sequences and the
reply cache (R412 to R414), the lease (R415 to R418), and how a command's answer leaves (R410, R420, R421). -/
namespace Sys2Proof.Machine
open Sys2Proof

/-- The core that executes an operation (R442). -/
inductive CoreId where
  | c | t | m
  deriving DecidableEq, Repr

/-- Number of a core in events and in the list of restarting cores (R451). -/
def CoreId.num : CoreId → Nat
  | .c => 0 | .t => 1 | .m => 2

/-- What R442, R443, R484, R491 and R495 say of an operation. -/
structure OpRow where
  /-- Opcode. -/
  code : Nat
  /-- Executing core. -/
  core : CoreId := .m
  /-- Bytes of the parameters that the row of the opcode table fixes (an `op`, a direction, a mode). -/
  fix : List (Nat × Byte) := []
  /-- How many codes, from 0 on, each of those bytes has (R7). -/
  codes : Nat := 256
  /-- Whether the operation needs the lease (R442). -/
  lease : List Byte → Bool := fun _ => true
  /-- Whether it changes state, so that it runs in order of arrival (R419). -/
  changes : List Byte → Bool := fun _ => true
  /-- Whether the parameters have the length of the operation's layout (R411 step 8). -/
  lenOk : List Byte → Bool
  /-- Runs in sleep (R443). -/
  asleep : Bool := false
  /-- Runs while a component has no valid image (R475). -/
  repair : Bool := false
  /-- Refused while a trial activation runs (R484). -/
  trial : Bool := false
  /-- Writes the settings store: refused in the provisional state (R491). -/
  stores : Bool := false
  /-- Scope of the service plane that it needs (R495). -/
  scope : Option Nat := none
  /-- SYS.LEASE acquire, which comes from a host without the lease (R417). -/
  acquires : Bool := false

/-- A failure: the status and the detail record of R421. -/
structure Fail where
  /-- Status. -/
  status : Status
  /-- Failing operation of a transaction. -/
  opIndex : Nat := 0
  /-- Check of R43 that failed. -/
  check : Nat := 0
  /-- Kind of the object named. -/
  kind : Nat := 0
  /-- Object named. -/
  index : Nat := 0
  /-- Shortfall. -/
  amount : Int := 0
  /-- Offset of the first offending field. -/
  field : Nat := 0xFFFF
  deriving DecidableEq, Repr

/-- The 20-byte detail record (R421). -/
def Fail.detail (f : Fail) : List Byte :=
  toBE 2 f.opIndex ++ toBE 1 f.check ++ toBE 1 f.kind ++ toBE 8 f.index ++ toBEs 4 f.amount ++ toBE 2 f.field ++ zeros 2

/-- A parameter that breaks its field rule, for a command on its own (check 1 of R43). -/
def badField (off : Nat) : Fail := { status := .badParam, check := 1, field := off }

/-- A conflict with an object that the reply names (R421, R443). -/
def busyWith (kind index : Nat) : Fail := { status := .resourceBusy, kind := kind, index := index }
/-- A resource that another object owns (check 2 of R43). -/
def ownedBy (kind index : Nat) : Fail := { status := .resourceBusy, check := 2, kind := kind, index := index }
/-- A refusal that names nothing. -/
def plainFail (st : Status) : Fail := { status := st }

/-- What a meaning answers. -/
abbrev Result := Host.Outcome State Fault Refusal

/-- What a command's own work answers. -/
inductive Answer where
  /-- Done: status and reply parameters (R420), with the more flag (R435). -/
  | done (status : Status) (params : List Byte) (more : Bool)
  /-- Refused or failed (R421). -/
  | fail (f : Fail)
  /-- The reply follows when something completes. -/
  | later (k : DeferKind)
  deriving DecidableEq, Repr

/-- Done with ST_OK and the given reply parameters. -/
def Answer.ok (params : List Byte) : Answer := .done .ok params false

/-- The work of a command, run once every check before step 10 of R411 has passed. -/
abbrev Effect := Datagram → State → State × Answer

/-- The datagram with the bytes that its row fixes; a byte that is no code at all stays as it is (R7). -/
def OpRow.apply (r : OpRow) (d : Datagram) : Datagram :=
  { d with params := r.fix.foldl (fun p e => if fieldU p e.1 1 < r.codes then p.set e.1 e.2 else p) d.params }

/-- Offset of a byte that should hold one of the row's codes and holds none (R7). -/
def OpRow.badCode (r : OpRow) (p : List Byte) : Option Nat := (r.fix.find? fun e => decide (r.codes ≤ fieldU p e.1 1)).map (·.1)

/-! ### Device state (R436) -/

/-- Whether a trial activation runs (R484). -/
def Dev.onTrial (d : Dev) : Bool := d.fw.bundle == .activating || d.fw.bundle == .trial

/-- dev_state of R436: 0 BOOTING, 1 READY, 2 SLEEP, 3 PROVISIONAL, 4 TRIAL. -/
def Dev.devState (d : Dev) : Nat :=
  match d.pow.phase with
  | .reset | .booting => 0
  | .asleep | .waking => 2
  | .running | .entering => if d.settings.provisional then 3 else if d.onTrial then 4 else 1

/-- A change of dev_state occurs as EV.SYS.STATE (R451). -/
def Dev.stateEvent (old : Nat) (d : Dev) : Dev :=
  d.raiseIf (d.devState != old) evState (old * 256 + d.devState)

/-- The device with its dev_state changed by `f`, and the event of the change. -/
def Dev.withState (f : Dev → Dev) (d : Dev) : Dev := (f d).stateEvent d.devState

/-- Whether the core that executes an operation runs (R42, R443, R475). -/
def Dev.coreUp (k : CoreId) (d : Dev) : Bool := !d.pow.coreDown.contains k.num

/-- Step 7 of R411, as far as the bundle, the settings store and the service plane decide (R484, R491, R495). -/
def planeCheck (r : OpRow) (v : Dev) : Option Status :=
  if r.stores && v.settings.provisional then some .settingsUnreadable
  else if r.trial && v.onTrial then some .trial
  else if (r.code == 0x1402 || r.code == 0x1403) && v.fw.bundle == .pendingBoot then some .trial
  else match r.scope with
    | some k => if v.sec.scope.testBit k then none else some .locked
    | none => none

/-- Step 7 of R411: the device state in which an operation is refused (R443, R484, R491, R495, R512, R525). -/
def stateCheck (r : OpRow) (d : Datagram) (v : Dev) : Option Status :=
  match v.pow.phase with
  | .reset => some .notReady
  | .booting => if v.fw.bootOk then (if r.core == .c then planeCheck r v else some .notReady) else (if r.repair then planeCheck r v else some .notReady)
  | .entering => if r.asleep || !r.changes d.params then planeCheck r v else some .sleeping
  | .asleep => if r.asleep then planeCheck r v else some .sleeping
  | .waking => if r.asleep && r.code != 0x1702 then planeCheck r v else some .sleeping
  | .running => planeCheck r v
/-! ### Commands and the lease -/

/-- Bit `n` of the membership bitmap of a group datagram (R408, R429). -/
def memberBit (p : List Byte) (n : Nat) : Bool := ((sliceB p (20 + n / 8) 1).headD 0).getLsbD (n % 8)

/-- R408: whether a datagram to port 51730 is a command to this device. -/
def isCommand (d : Datagram) (v : Dev) : Bool :=
  let me := v.daond.net.cfg.deviceNumber
  d.magic == 0xDA0D && !bit d.flags 0 && (d.device == 0xFFFF || (d.device == me && me != 0xFFFF))
    && (!bit d.flags 2 || (me != 0xFFFF && memberBit d.params me))

/-- R415, and for GROUP.COMMIT R430: whether a command is under the lease. -/
def underLease (code : Nat) (d : Datagram) (v : Dev) : Bool :=
  match v.daond.lease with
  | some l => (l.tag == d.leaseTag || code == 0x1001) && l.addr == d.addr && l.port == d.port
  | none => false

/-- Steps 1 to 3 of R411. -/
def headerCheck (code : Nat) (d : Datagram) : Option Fail :=
  let f (s : Status) : Option Fail := some { status := s, opIndex := 0xFFFF }
  if d.version != 1 then f .badVersion
  else if d.paramLen > 8960 || d.paramLen != d.params.length then f .badLength
  else if d.flags ≥ 16 || bit d.flags 3 || (bit d.flags 2 != (code == 0x1001)) || d.status != 0 || d.rsvd != 0 then f .badParam
  else none

/-- The class of a sequence under R412. -/
inductive SeqClass where
  | fresh | inside | answered (r : Reply) | running | stale
  deriving DecidableEq, Repr

/-- R412, R414: the class of a command's sequence. -/
def classify (l : Lease) (s : U32) : SeqClass :=
  let ahead := (s - l.newest).toNat
  let back := (l.newest - s).toNat
  if l.running.contains s then .running
  else if 1 ≤ ahead && ahead ≤ 0x7FFFFFFF then .fresh
  else if back ≤ 255 then
    match l.cache.find? (fun e => e.1 == s) with
    | some e => .answered e.2
    | none => .inside
  else .stale

/-- The lease after a command under it has passed step 6 (R412, R417): the record moves on, the timer restarts. -/
def Lease.pass (s : U32) (fresh : Bool) (now : Nat) (l : Lease) : Lease :=
  let n := if fresh then s else l.newest
  { l with newest := n, cache := l.cache.filter (fun e => decide ((n - e.1).toNat ≤ 255)), running := s :: l.running, restartedAt := now }

/-! ### Replies -/

/-- The reply to a command (R410). The device's number is the one in force when the command arrived (R446). -/
def replyTo (code me : Nat) (d : Datagram) (st : Status) (params : List Byte) (more : Bool) : Reply :=
  { addr := d.addr, port := d.port, deviceNo := me, leaseTag := d.leaseTag, sequence := d.sequence, opcode := code,
    status := st, retransmit := false, more := more, params := params }

/-- Statuses whose replies are not cached (R413). -/
def uncached (s : Status) : Bool := s == .busy || s == .notReady || s == .sleeping || s == .staleSeq

/-- A reply leaves: it is cached when its command runs under the lease, and goes to every resend that waits (R413, R414). -/
def Dev.answer (r : Reply) (v : Dev) : Dev :=
  let v := { v with daond := { v.daond with busyReplies := if r.status == Status.busy then v.daond.busyReplies + 1 else v.daond.busyReplies } }
  match v.daond.lease with
  | some l =>
    if l.addr == r.addr && l.port == r.port && l.running.contains r.sequence then
      let again := (l.dups.filter (· == r.sequence)).map (fun _ => Output.reply { r with retransmit := true })
      let l' := { l with running := l.running.filter (· != r.sequence), dups := l.dups.filter (· != r.sequence),
                         cache := if uncached r.status then l.cache else (r.sequence, r) :: l.cache }
      { v with daond := { v.daond with lease := some l',
                                       retransmitsServed := v.daond.retransmitsServed + BitVec.ofNat 64 again.length },
               out := v.out ++ [Output.reply r] ++ again }
    else v.emit (.reply r)
  | none => v.emit (.reply r)

/-- The answer of a command's work leaves, or waits for its completion. -/
def Dev.conclude (code me : Nat) (d : Datagram) (a : Answer) (v : Dev) : Dev :=
  match a with
  | .done st p more => v.answer (replyTo code me d st p more)
  | .fail f => v.answer (replyTo code me d f.status f.detail false)
  | .later k => { v with daond := { v.daond with deferred := v.daond.deferred ++ [{ kind := k, code := code, dgram := d, since := v.clk.now }] } }

/-- The reply to a deferred command of the given kinds leaves (R507, R512, R514). -/
def Dev.complete (p : DeferKind → Bool) (a : Answer) (v : Dev) : Dev :=
  let due := v.daond.deferred.filter (fun x => p x.kind)
  let v := { v with daond := { v.daond with deferred := v.daond.deferred.filter (fun x => !p x.kind) } }
  due.foldl (fun v x => v.conclude x.code v.daond.net.cfg.deviceNumber x.dgram a) v

/-! ### Reception -/

/-- What the checks of R408 and R411 steps 1 to 9 decide. -/
inductive Screen where
  /-- Not a command: discarded (R408). -/
  | drop
  /-- A check before step 6 fails. -/
  | reject (f : Fail)
  /-- Step 6: the cached reply is resent. -/
  | resend (r : Reply)
  /-- Step 6: the original still runs (R414). -/
  | again
  /-- Step 6: ST_STALE_SEQ. -/
  | stale
  /-- Steps 7 to 9 fail. -/
  | refuse (s : Status)
  /-- The command waits until those before it are done (R419). -/
  | wait
  /-- An enumeration at an offset holds no code (R7, step 10). -/
  | code (off : Nat)
  /-- The command runs. -/
  | run
  deriving DecidableEq, Repr

/-- Whether a command waits: a state-changing one until those before it are done (R419) and while CORE.M admits nothing new (R479),
and every one until the core that executes it runs (R40, R42). -/
def Dev.holds (r : OpRow) (d : Datagram) (v : Dev) : Bool :=
  !v.coreUp r.core ||
  (r.changes d.params && (!v.daond.deferred.isEmpty || !v.daond.waiting.isEmpty || (r.core == .m && v.fw.queueWait.isSome)))

/-- Steps 7 to 9 of R411, once step 6 has passed. -/
def lateChecks (r : OpRow) (d : Datagram) (v : Dev) : Screen :=
  match stateCheck r d v with
  | some s => .refuse s
  | none =>
    if !r.lenOk d.params then .refuse .badLength
    else if r.changes d.params && (v.daond.waiting.length ≥ 256 || v.daond.commits.length + v.daond.prepared.length ≥ 4096) then .refuse .busy
    else if v.holds r d then .wait
    else match r.badCode d.params with | some o => .code o | none => .run

/-- R408 and the checks of R411 up to step 9. -/
def screen (r : OpRow) (d : Datagram) (v : Dev) : Screen :=
  if !isCommand d v then .drop
  else match headerCheck r.code d with
  | some f => .reject f
  | none =>
    let under := underLease r.code d v
    if r.lease d.params && !under then .reject { status := .noLease, opIndex := 0xFFFF }
    else match v.daond.lease with
      | some l =>
        if under then
          match classify l d.sequence with
          | .answered rep => .resend rep
          | .running => .again
          | .stale => .stale
          | _ => lateChecks r d v
        else if r.acquires && l.addr == d.addr && l.port == d.port then
          match classify l d.sequence with
          | .answered rep => .resend rep
          | _ => lateChecks r d v
        else lateChecks r d v
      | none => lateChecks r d v

/-- The sequence record and the timer move on for a command under the lease that passes step 6. -/
def Dev.passSeq (code : Nat) (d : Datagram) (v : Dev) : Dev :=
  match v.daond.lease with
  | some l =>
    if underLease code d v then
      { v with daond := { v.daond with lease := some (l.pass d.sequence (classify l d.sequence == .fresh) v.clk.now) } }
    else v
  | none => v

/-- A datagram is taken from the receive queue by CORE.C (R444). -/
def Dev.countRx (v : Dev) : Dev :=
  { v with daond := { v.daond with rxFrames := v.daond.rxFrames + 1 } }

/-- A datagram that is a command (R408). -/
def Dev.countCommand (v : Dev) : Dev :=
  { v with daond := { v.daond with commands := v.daond.commands + 1 } }

/-- The work of a command and its answer. -/
def runEffect (r : OpRow) (eff : Effect) (d : Datagram) (s : State) : State :=
  let me := s.dev.daond.net.cfg.deviceNumber
  let res := eff d s
  res.1.onDev (Dev.conclude r.code me d res.2)

/-- A command whose enumeration at `off` holds no code is refused: as its other fields have it where one before that is bad, and else with
nothing done (R7, R421). -/
def refuseCode (r : OpRow) (eff : Effect) (off : Nat) (d : Datagram) (s : State) : State :=
  let me := s.dev.daond.net.cfg.deviceNumber
  let other := s.onDev (Dev.conclude r.code me d (.fail (badField off)))
  match eff d s with
  | (u, .fail f) => if f.status == .badParam && decide (f.field ≤ off) then u.onDev (Dev.conclude r.code me d (.fail f)) else other
  | _ => other

/-- A datagram that is not a command is counted and discarded (R408). -/
def Dev.dropRx (v : Dev) : Dev := { v with daond := { v.daond with rxDropped := v.daond.rxDropped + 1 } }

/-- A command is counted and refused (R411, R421). -/
def Dev.refuse (code : Nat) (d : Datagram) (f : Fail) (v : Dev) : Dev := v.countCommand.conclude code v.daond.net.cfg.deviceNumber d (.fail f)

/-- A cached reply leaves again, with its retransmit flag set (R413). -/
def Dev.resend (rep : Reply) (v : Dev) : Dev :=
  let v := v.countCommand
  { v with daond := { v.daond with retransmitsServed := v.daond.retransmitsServed + 1 } }.emit (.reply { rep with retransmit := true })

/-- A resend of a command that still runs waits for its reply (R414). -/
def Dev.awaitReply (s : U32) (v : Dev) : Dev :=
  let v := v.countCommand
  { v with daond := { v.daond with lease := v.daond.lease.map (fun l => { l with dups := l.dups ++ [s] }) } }

/-- A stale sequence is counted and refused (R412). -/
def Dev.refuseStale (code : Nat) (d : Datagram) (v : Dev) : Dev :=
  { v with daond := { v.daond with staleSequences := v.daond.staleSequences + 1 } }.refuse code d { status := .staleSeq, opIndex := 0xFFFF }

/-- A command waits for those before it, or for its core (R419, R446). -/
def Dev.hold (i : Instr) (v : Dev) : Dev := { v with daond := { v.daond with waiting := v.daond.waiting ++ [i] } }

/-- A datagram that CORE.C takes up: the screening of R408 and R411, then its work and its answer. `i` is the command itself,
kept where it waits. -/
def receive (r : OpRow) (i : Instr) (eff : Effect) (d : Datagram) (s : State) : State :=
  match screen r d s.dev with
  | .drop => s.onDev Dev.dropRx
  | .reject f => s.onDev (Dev.refuse r.code d f)
  | .resend rep => s.onDev (Dev.resend rep)
  | .again => s.onDev (Dev.awaitReply d.sequence)
  | .stale => s.onDev (Dev.refuseStale r.code d)
  | .refuse st => s.onDev fun v => (v.countCommand.passSeq r.code d).conclude r.code v.daond.net.cfg.deviceNumber d (.fail { status := st, opIndex := 0xFFFF })
  | .wait => s.onDev fun v => (v.countCommand.passSeq r.code d).hold i
  | .code o => refuseCode r eff o d (s.onDev fun v => v.countCommand.passSeq r.code d)
  | .run => runEffect r eff d (s.onDev fun v => v.countCommand.passSeq r.code d)

/-- A datagram joins the receive queue while CORE.C restarts; one that meets a full queue is lost (R444, R446). -/
def Dev.queueRx (i : Instr) (v : Dev) : Dev :=
  if v.daond.rxQueue.length ≥ 4096 then { v with daond := { v.daond with rxOverflow := v.daond.rxOverflow + 1 } }
  else { v with daond := { v.daond with rxQueue := v.daond.rxQueue ++ [i] } }

/-- A Daond datagram arrives at instant `t`: nothing happens while the device is in reset or dead; while CORE.C restarts it waits
in the receive queue (R444, R446); otherwise CORE.C takes it up. -/
def serve (r : OpRow) (i : Instr) (t : Nat) (d : Datagram) (eff : Effect) (s : State) : State :=
  if s.dev.pow.phase == .reset || s.dev.fw.dead then s.arrive t
  else if !s.dev.coreUp .c then (s.arrive t).onDev (Dev.queueRx i)
  else receive r i eff (r.apply d) ((s.arrive t).onDev Dev.countRx)

/-! ### Queries (R435) -/

/-- Whether the parameters of a query are 8 bytes. -/
def len8 (p : List Byte) : Bool := p.length == 8
/-- Whether a query asks for a clear. -/
def clears (p : List Byte) : Bool := bit (fieldU p 2 1) 0

/-- R435: a query's parameters are checked, the records that fit are returned, and a clear acts on the records returned.
`units` is the number of units, `egress` says whether bit 1 of the flags is allowed, `size` the bytes of a record. -/
def query (units size : Nat) (egress : Bool) (record : Nat → Dev → List Byte) (clear : Nat → Dev → Dev) : Effect := fun d s =>
  let p := d.params
  let i := fieldU p 0 2
  let fl := fieldU p 2 1
  let n := fieldU p 4 2
  if i ≥ units then (s, .fail (badField 0))
  else if fl ≥ (if egress then 4 else 2) then (s, .fail (badField 2))
  else if fieldU p 3 1 != 0 then (s, .fail (badField 3))
  else if n = 0 || n > 512 || i + n > units then (s, .fail (badField 4))
  else if fieldU p 6 2 != 0 then (s, .fail (badField 6))
  else
    let fit := min n (8960 / size)
    let ids := (List.range fit).map (· + i)
    let out := ids.flatMap (fun k => record k s.dev)
    let s' := if bit fl 0 then s.onDev (fun v => ids.foldl (fun v k => clear k v) v) else s
    (s', .done .ok out (decide (fit < n)))

/-- The row of a query operation: `C` executes it, the lease is needed for a clear. -/
def queryRow (code : Nat) (leaseForClear : Bool) (asleep : Bool) : OpRow :=
  { code := code, core := .c, lease := fun p => leaseForClear && clears p, changes := fun p => leaseForClear && clears p,
    lenOk := len8, asleep := asleep }

end Sys2Proof.Machine
end

