-- ==== Sys2Proof/Machine/Commit.lean ====
section
/-! DEFINITION. Commits: what each staged operation does to the media configuration, at which unit it becomes live (R34, R41),
and how a unit takes its commits at its own boundary in order of E (R37, R38). -/
namespace Sys2Proof.Machine
open Sys2Proof

/-! ### Operations on the configuration -/

/-- Internal code of a seam slot's copy of a LAYER.CONFIG (R267). -/
def opSeam : Nat := 0x10701
/-- Internal code of the copy of a slot's other settings to its seam slot (R198, R267). -/
def opCopy : Nat := 0x10703
/-- Internal code of the line-buffer allocation made when a layer or its scaler settings are admitted (R240, R243). -/
def opGran : Nat := 0x10702
/-- Internal code of the odd head's part of a HEAD.TIMING of a tile pair (R266, R268). -/
def opPair : Nat := 0x10801
/-- Internal code of a take that auto-sync builds (R154). -/
def opSync : Nat := 0x10401

/-- The settings of a slot. -/
def Cfg.slot (c : Cfg) (n : Nat) : SlotCfg := smGet {} n c.slots
/-- The configuration with a slot mapped. -/
def Cfg.modSlot (n : Nat) (f : SlotCfg → SlotCfg) (c : Cfg) : Cfg := { c with slots := smPut n (f (c.slot n)) c.slots }
/-- The settings of a head. -/
def Cfg.head (c : Cfg) (n : Nat) : HeadCfg := smGet {} n c.heads
/-- The configuration with a head mapped. -/
def Cfg.modHead (n : Nat) (f : HeadCfg → HeadCfg) (c : Cfg) : Cfg := { c with heads := smPut n (f (c.head n)) c.heads }
/-- The route of an egress stream. -/
def Cfg.route (c : Cfg) (e : Nat) : Route := smGet {} e c.routes
/-- Audio settings of an egress stream. -/
def Cfg.audioStream (c : Cfg) (e : Nat) : AudioStreamCfg := smGet {} e c.audioStreams

/-- The source of a route: none, ingress stream or head (R18). -/
inductive Source where
  | none | ingress (s : Nat) | head (h : Nat)
  deriving DecidableEq, Repr

/-- What feeds an egress stream; an auto-sync route is fed by its head (R154). -/
def Route.source (r : Route) : Source :=
  match r.syncHead with
  | some h => .head h
  | none => if r.take.sourceKind = 1 then .ingress r.take.source else if r.take.sourceKind = 2 then .head r.take.source else .none

/-- What auto-sync claimed for a route is released (R155), but the channels below `keep`, which another route of the same stream has claimed
(R286). -/
def Cfg.releaseSync (e keep : Nat) (c : Cfg) : Cfg :=
  let r := c.route e
  let c := match r.syncHead with | some h => c.modHead h (fun x => { x with timing := none }) | none => c
  let c := match r.syncSlot with
    | some n => c.modSlot n (fun x => { x with layer := none, scaler := none, wBuf := 0, scGran := 0, chGran := 0 })
    | none => c
  let c := match r.syncCap with | some n => { c with caps := smErase n c.caps } | none => c
  { c with audio := c.audio.filter (fun a => !(decide (32 * e + keep ≤ a.1) && decide (a.1 < 32 * e + r.syncCh))) }

/-- A take on a route (R144, R155). -/
def Cfg.take (e : Nat) (r : Route) (c : Cfg) : Cfg :=
  let c := c.releaseSync e r.syncCh
  { c with routes := if r.take.sourceKind = 0 then smErase e c.routes else smPut e r c.routes }

/-- 0xFFFF as none. -/
def optU16 (n : Nat) : Option Nat := if n = 0xFFFF then none else some n

/-- The descriptor of a static surface as SURF.CREATE makes it (R160). -/
def newSurface (x : SurfCfg) : SurfaceSt :=
  let y : SurfaceSt := { state := .open_, storage := x.storage, colourFormat := x.colourFormat, bitDepth := x.bitDepth,
                         width := x.width, height := x.height, pitch := x.pitchBytes, base := x.baseAddr }
  { y with size := if x.storage = 1 then mtfSizeOf x else rawSizeOf x }
where
  mtfSizeOf (x : SurfCfg) : Nat :=
    let tx := ceilDiv x.width 32
    let ty := ceilDiv x.height 4
    let comps := if x.colourFormat ≥ 4 then 4 else 3
    let samples := if x.colourFormat = 2 then 256 else if x.colourFormat = 3 then 192 else 128 * comps
    ceilDiv (tx * ty) 4096 * 4096 + tx * ty * ceilDiv (samples * x.bitDepth) 512 * 64
  rawSizeOf (x : SurfCfg) : Nat :=
    let cb := if x.bitDepth ≤ 8 then 1 else 2
    let line := if x.colourFormat = 2 then 2 * cb * x.width else if x.colourFormat = 3 then cb * x.width
      else if x.colourFormat ≥ 4 then 4 * cb * x.width else 3 * cb * x.width
    let pitch := if x.pitchBytes = 0 then ceilDiv line 64 * 64 else x.pitchBytes
    if x.colourFormat = 3 then pitch * x.height * 3 / 2 else pitch * x.height

/-- What one operation does to the configuration (R423: operations take effect in the order they were added). -/
def applyOp (o : StagedOp) (c : Cfg) : Cfg :=
  let p := o.params
  let n := fieldU p 0 2
  if o.code = 0x0301 then
    if fieldU p 2 1 = 0 then { c with ingress := if fieldU p 3 1 = 0 then smErase n c.ingress else smPut n (readIngressCfg p 0) c.ingress }
    else { c with egress := if fieldU p 3 1 = 0 then smErase n c.egress else smPut n (readEgressCfg p 0) c.egress }
  else if o.code = 0x0401 then c.take n { take := readTakeCfg p 0 }
  else if o.code = opSync then
    c.take n { take := readTakeCfg p 0, syncHead := optU16 (fieldU p 8 2), syncSlot := optU16 (fieldU p 10 2),
               syncCap := optU16 (fieldU p 12 2), syncCh := fieldU p 14 2 }
  else if o.code = 0x0501 then { c with caps := if fieldU p 4 1 = 0 then smErase n c.caps else smPut n (readCapCfg p 0) c.caps }
  else if o.code = 0x0601 then { c with statics := smPut n (newSurface (readSurfCfg p 0)) c.statics }
  else if o.code = 0x0602 then
    { c with statics := match smFind n c.statics with
        | some x => smPut n { x with state := .sealed, measured := fieldU p 8 4, maxRow := fieldU p 12 2 } c.statics
        | none => c.statics }
  else if o.code = 0x0603 then
    { c with statics := match smFind n c.statics with
        | some x => smPut n { x with state := .open_, measured := 0, maxRow := 0, completeQ := 0 } c.statics
        | none => c.statics }
  else if o.code = 0x0604 then { c with statics := smErase n c.statics }
  else if o.code = 0x0701 then
    if fieldU p 4 1 = 0 then c.modSlot n fun x => { x with layer := none, scaler := none, wBuf := 0, scGran := 0, chGran := 0 }
    else c.modSlot n fun x => { x with layer := some (readLayerCfg p 0), seamOf := none }
  else if o.code = opSeam then
    if fieldU p 4 1 = 0 then c.modSlot n fun x => { x with layer := none, seamOf := none, scaler := none, wBuf := 0, scGran := 0, chGran := 0 }
    else c.modSlot n fun x => { x with layer := some (readLayerCfg p 0), seamOf := optU16 (fieldU p 64 2) }
  else if o.code = opCopy then
    let m := c.slot (fieldU p 2 2)
    c.modSlot n fun x => { x with matrix := m.matrix, synth := m.synth, synthLoads := x.synthLoads + 1, scalerSet := m.scalerSet, luts := m.luts, coeffs := m.coeffs }
  else if o.code = opGran then
    c.modSlot n fun x => { x with wBuf := fieldU p 2 2, scGran := fieldU p 4 2, chGran := fieldU p 6 2, scaler := optU16 (fieldU p 8 2) }
  else if o.code = 0x0702 then
    c.modSlot n fun x => { x with luts := smPut (fieldU p 2 1) ((List.range 1025).map (fun i => fieldU p (8 + 4 * i) 4)) x.luts }
  else if o.code = 0x0703 then c.modSlot n fun x => { x with matrix := readMatrixBlk p 4 }
  else if o.code = 0x0704 then c.modSlot n fun x => { x with synth := readSynthCfg p 0, synthLoads := x.synthLoads + 1 }
  else if o.code = 0x0705 then c.modSlot n fun x => { x with scalerSet := readScalerCfg p 0 }
  else if o.code = 0x0706 then
    c.modSlot n fun x => { x with coeffs := smPut (fieldU p 2 1) ((List.range 512).map (fun i => fieldS p (8 + 2 * i) 2)) x.coeffs }
  else if o.code = 0x0801 || o.code = opPair then
    c.modHead n fun x => { x with timing := if fieldU p 2 1 = 0 then none else some (readTimingCfg p 0) }
  else if o.code = 0x0802 then c.modHead n fun x => { x with colour := readColourCfg p 0 }
  else if o.code = 0x0803 then c.modHead n fun x => { x with sr := readSrCfg p 0 }
  else if o.code = 0x0901 then { c with audio := if fieldU p 2 1 = 0 then smErase n c.audio else smPut n (readAudioChCfg p 0) c.audio }
  else if o.code = 0x0902 then { c with audioStreams := smPut n (readAudioStreamCfg p 0) c.audioStreams }
  else if o.code = 0x0903 then { c with tones := smPut (fieldU p 0 1) (readToneCfg p 0) c.tones }
  else c

/-! ### Units and boundaries -/

/-- The configuration after the operations of a commit that are still to come at its units. -/
def Commit.applyAll (k : Commit) (c : Cfg) : Cfg := (k.ops.filter (fun o => k.left.contains o.1)).foldl (fun c o => applyOp o.2 c) c

/-- The configuration after the operations of a commit at one unit. -/
def Commit.applyAt (u : UnitId) (k : Commit) (c : Cfg) : Cfg := (k.ops.filter (fun o => o.1 == u)).foldl (fun c o => applyOp o.2 c) c

/-- Whether a commit comes before another: in order of E, then of admission (R37). -/
def Commit.before (a b : Commit) : Bool := decide (a.effective < b.effective) || (a.effective == b.effective && decide (a.order ≤ b.order))

/-- A commit put in its place in the queue. -/
def queueCommit (k : Commit) : List Commit → List Commit
  | [] => [k]
  | x :: r => if x.before k then x :: queueCommit k r else k :: x :: r

/-- The commits that some units, which share a boundary, take at it now: their E has come (R34, R37). -/
def Dev.dueAt (us : List UnitId) (v : Dev) : List Commit :=
  v.daond.commits.filter fun k => decide (k.effective ≤ v.nowU) && k.left.any us.contains

/-- The commits that a unit takes at a boundary now. -/
def Dev.due (u : UnitId) (v : Dev) : List Commit := v.dueAt [u]

/-- A commit once some units have taken it. -/
def Commit.less (us : List UnitId) (k : Commit) : Commit := { k with left := k.left.filter (fun u => !us.contains u) }

/-- A commit that some units take now, where `c` was live before: what it replaces stays counted until every unit has taken it (R45). -/
def Commit.taken (us : List UnitId) (c : Cfg) (k : Commit) : Commit := { k.less us with base := some (k.base.getD c) }

/-- Units that share a boundary take their due commits: the settings become live in order, and commits live at every unit leave the
queue (R37, R45). -/
def Dev.takeCommits (due : List Commit) (us : List UnitId) (v : Dev) : Dev :=
  { v with
    cfg := due.foldl (fun c k => (us.filter k.left.contains).foldl (fun c u => k.applyAt u c) c) v.cfg
    daond := { v.daond with
      commits := (v.daond.commits.map fun k => if due.contains k then k.taken us v.cfg else k).filter (fun k => !k.left.isEmpty) } }

/-- Units that share a boundary take the commits that are due at it now. -/
def Dev.goLiveAt (us : List UnitId) (v : Dev) : Dev := v.takeCommits (v.dueAt us) us

/-- A unit takes its due commits. -/
def Dev.goLive (u : UnitId) (v : Dev) : Dev := v.goLiveAt [u]

/-- A unit's commits are dropped without becoming live: a take that fails (R150), a commit not armed at a CORE.M reset (R42). -/
def Dev.dropDue (u : UnitId) (due : List Commit) (v : Dev) : Dev :=
  let drop (k : Commit) : Commit := if due.contains k then { k with left := k.left.filter (· != u) } else k
  { v with daond := { v.daond with commits := (v.daond.commits.map drop).filter (fun k => !k.left.isEmpty) } }

/-- Ledger entries of some commits at a boundary now (R38, R456). -/
def Dev.ledgerAll (ks : List Commit) (kind outcome unit : Nat) (frame : U32) (v : Dev) : Dev :=
  ks.foldl (fun v k => v.ledger k.generation kind outcome unit v.nowU frame) v

/-- Entries of an egress stream for some commits at a boundary now, with their sequences. -/
def Dev.ledgerEgress (e : Nat) : List Commit → Dev → Dev × List Nat
  | [], v => (v, [])
  | k :: r, v =>
    let rest := Dev.ledgerEgress e r (v.ledger k.generation 1 0 e v.nowU 0)
    (rest.1, v.ev.ledgerNext :: rest.2)

/-- Whether a commit takes the route of an egress stream: its one entry for that stream is the take's (R456). -/
def Commit.hasTake (e : Nat) (k : Commit) : Bool := k.ops.any fun o => o.1 == .take e

/-- Whether any commit still waits for a unit. -/
def Dev.queued (u : UnitId) (v : Dev) : Bool := v.daond.commits.any (fun k => k.left.contains u)

/-- The configurations that the admitted and prepared commits lead to, in order of E, the live one first (R44). -/
def cfgChain : Cfg → List Commit → List Cfg
  | c, [] => [c]
  | c, k :: r => c :: cfgChain (k.applyAll c) r

/-- What a route's auto-sync claims held, put back as it was in another configuration (R45, R155). -/
def restoreSync (e : Nat) (b c : Cfg) : Cfg :=
  let r := b.route e
  let c := match r.syncHead with | some h => { c with heads := smSet h (smFind h b.heads) c.heads } | none => c
  let c := match r.syncSlot with | some n => { c with slots := smSet n (smFind n b.slots) c.slots } | none => c
  let c := match r.syncCap with | some n => { c with caps := smSet n (smFind n b.caps) c.caps } | none => c
  (List.range r.syncCh).foldl (fun c k => { c with audio := smSet (32 * e + k) (smFind (32 * e + k) b.audio) c.audio }) c

/-- What an operation has set, put back as it was in another configuration. -/
def restoreOp (o : StagedOp) (b c : Cfg) : Cfg :=
  let p := o.params
  let n := fieldU p 0 2
  let f := o.code % 0x10000 / 0x100
  if f = 0x03 then
    if fieldU p 2 1 = 0 then { c with ingress := smSet n (smFind n b.ingress) c.ingress } else { c with egress := smSet n (smFind n b.egress) c.egress }
  else if f = 0x04 then restoreSync n b { c with routes := smSet n (smFind n b.routes) c.routes }
  else if f = 0x05 then { c with caps := smSet n (smFind n b.caps) c.caps }
  else if f = 0x06 then { c with statics := smSet n (smFind n b.statics) c.statics }
  else if f = 0x07 then { c with slots := smSet n (smFind n b.slots) c.slots }
  else if f = 0x08 then { c with heads := smSet n (smFind n b.heads) c.heads }
  else if o.code = 0x0901 then { c with audio := smSet n (smFind n b.audio) c.audio }
  else if o.code = 0x0902 then { c with audioStreams := smSet n (smFind n b.audioStreams) c.audioStreams }
  else { c with tones := smSet (fieldU p 0 1) (smFind (fieldU p 0 1) b.tones) c.tones }

/-- The demand that a commit in the course of becoming live still counts at units it has reached: their settings before it (R45). -/
def Commit.held (live : Cfg) (k : Commit) : Option Cfg := k.base.map fun b => k.ops.foldl (fun c o => restoreOp o.2 b c) live

/-- Every configuration that counts: what commits under way replace, the live one, and what each pending commit leads to (R44, R45). -/
def Dev.cfgs (v : Dev) : List Cfg := v.daond.commits.filterMap (Commit.held v.cfg) ++ cfgChain v.cfg v.daond.commits

/-- Whether a stream number lies inside another configured bond (R17). -/
def insideOf (xs : List (Nat × Nat)) (n : Nat) : Option Nat := (xs.find? fun e => decide (e.1 < n) && decide (n < e.1 + e.2)).map (·.1)

/-- Ingress bonds of a configuration. -/
def Cfg.inBonds (c : Cfg) : List (Nat × Nat) := c.ingress.map fun e => (e.1, e.2.bondSize)
/-- Egress bonds of a configuration. -/
def Cfg.outBonds (c : Cfg) : List (Nat × Nat) := c.egress.map fun e => (e.1, e.2.bondSize)

/-- What a command gets that names a stream inside another bond, live or admitted, other than at its lowest lane (R17): `dir` is 0 for
an ingress stream and 1 for an egress stream, `off` the place of the number. -/
def Dev.streamInside (dir n off : Nat) (v : Dev) : Option Fail :=
  (insideOf (v.cfgs.flatMap (if dir = 0 then Cfg.inBonds else Cfg.outBonds)) n).map fun k =>
    { status := .badParam, check := 1, kind := 2 + dir, index := k, field := off }

end Sys2Proof.Machine
end

