-- ==== Sys2Proof/Machine/Fabric.lean ====
section
/-! DEFINITION. The bus fabric and the memory ports (file 12): the address map, credits and grants, parking, master resets,
memory errors, and the SYS.FABRIC operations. -/
namespace Sys2Proof.Machine
open Sys2Proof

/-! ### The address map (R372) -/

/-- First address of region 2. -/
def region2 : Nat := 0x1400000000
/-- First address of region 3, the audio delay store. -/
def region3 : Nat := 0x1780000000

/-- Memory port of an address (R372). -/
def portOf (a : Nat) : Nat :=
  let g := a / 4096
  if a < region2 then g % 16 else if a < region3 then (g - 0x1400000) % 14 else 14 + (g - 0x1780000) % 2

/-- Byte within the port's 6 GiB of an address (R372). -/
def portOffset (a : Nat) : Nat :=
  let g := a / 4096
  let l := if a < region2 then g / 16 else if a < region3 then 0x140000 + (g - 0x1400000) / 14 else 0x140000 + (g - 0x1780000) / 2
  l * 4096 + a % 4096

/-- The address at an offset of a port: the map of R372 read backwards. -/
def addrOfPort (p off : Nat) : Nat :=
  let l := off / 4096
  let g := if l < 0x140000 then l * 16 + p
    else if p < 14 then 0x1400000 + (l - 0x140000) * 14 + p
    else 0x1780000 + (l - 0x140000) * 2 + (p - 14)
  g * 4096 + off % 4096

/-! ### Masters and targets (R375, R377, R388) -/

/-- Whether master `m` has a path to target `t` (R375). -/
def reaches (m t : Nat) : Bool :=
  if m < 48 then t < 16
  else if m = 48 then t = 14 || t = 15
  else if m = 49 then t < 16
  else if m = 50 then t ≤ 16
  else if m = 51 then t ≤ 19
  else if m = 52 then t = 16 || t = 19
  else if m = 53 then t ≤ 17 || t = 19
  else false

/-- The fixed budget of a master at each memory port (R388). -/
def fixedBudget (m p : Nat) : Nat :=
  if m = 48 then (if p ≥ 14 then 160 else 0)
  else if m = 49 then 64 else if m = 50 then 16 else if m = 51 then 4 else if m = 53 then 4 else 0

/-- A master before any setting: its default best-effort permission and its fixed budget, with credit equal to it (R375, R384). -/
def masterReset (m : Nat) : MasterSt :=
  let b := (List.range 16).map (fixedBudget m)
  { bestEffort := decide (49 ≤ m), budget := b, credit := b.map Int.ofNat }

/-- The factory default master of a target (R377). -/
def factoryMaster (t : Nat) : Nat := if t < 14 then 16 + 2 * t else if t < 16 then 48 else if t < 19 then 51 else 53

/-- A fabric master. -/
def Dev.master (v : Dev) (m : Nat) : MasterSt := (smFind m v.fabric.masters).getD (masterReset m)
/-- The device with a fabric master mapped. -/
def Dev.modMaster (m : Nat) (f : MasterSt → MasterSt) (v : Dev) : Dev :=
  { v with fabric := { v.fabric with masters := smPut m (f (v.master m)) v.fabric.masters } }
/-- A fabric target. -/
def Dev.target (v : Dev) (t : Nat) : TargetSt := (smFind t v.fabric.targets).getD { defaultMaster := factoryMaster t }
/-- The device with a fabric target mapped. -/
def Dev.modTarget (t : Nat) (f : TargetSt → TargetSt) (v : Dev) : Dev :=
  { v with fabric := { v.fabric with targets := smPut t (f (v.target t)) v.fabric.targets } }

/-! ### Grants (R377, R384) -/

/-- What a grant does at its port beside the beats: the switch parks (R377), and the hold-backs of the request are counted (R379). -/
def Dev.granted (m p : Nat) (f : TargetSt → TargetSt) (v : Dev) : Dev :=
  let v := v.modTarget p fun y =>
    { f y with parkedOn := some (if y.parkMode = 0 then m else y.defaultMaster)
               heldBack := satAdd y.heldBack (Config.holdBacks v.fabric.holds) }
  { v with fabric := { v.fabric with holds := v.fabric.holds + 1 } }

/-- A request of `n` beats of master `m` at port `p` (R384): charged while credit is above 0, else best-effort, else it waits for
credit until the next window, which delays the grant and no other effect of the access (log entry 38). -/
def Dev.grant (m p n : Nat) (v : Dev) : Dev :=
  let x := v.master m
  if x.credit.getD p 0 > 0 then
    (v.modMaster m fun x => { x with credit := x.credit.set p (x.credit.getD p 0 - n) }).granted m p fun y =>
      { y with windowBeats := y.windowBeats + n }
  else if x.bestEffort then
    v.granted m p fun y => { y with bestEffortBeats := y.bestEffortBeats + BitVec.ofNat 64 n }
  else
    let v := v.modMaster m fun x =>
      if x.waitWindow = some v.fabric.window then x
      else { x with creditWaits := satInc x.creditWaits, waitWindow := some v.fabric.window }
    { v with fabric := { v.fabric with waiting := v.fabric.waiting ++ [(m, p, n)] } }

/-- The requests that wait for credit are judged again, oldest first (R384). -/
def Dev.regrant (v : Dev) : Dev :=
  v.fabric.waiting.foldl (fun v q => v.grant q.1 q.2.1 q.2.2) { v with fabric := { v.fabric with waiting := [] } }

/-- The requests of an access of `n` bytes from an address, one for each 4 KiB granule (R384). -/
def accessGrants (m : Nat) : Nat → Nat → Nat → Dev → Dev
  | 0, _, _, v => v
  | k + 1, a, n, v =>
    if n = 0 then v
    else
      let here := min n (4096 - a % 4096)
      accessGrants m k (a + here) (n - here) (v.grant m (portOf a) ((a + here + 63) / 64 - a / 64))

/-- An access of master `m` to `n` bytes of frame memory from `a`. -/
def Dev.access (m a n : Nat) (v : Dev) : Dev := accessGrants m (n / 4096 + 2) a n v

/-! ### Surfaces and the freeze at a reset (R177, R383, R462) -/

/-- The surfaces in WRITING of some capture channels become INCOMPLETE (R177); the frames in progress are written no further. Such a cut
counts no frames_incomplete, whose rule R178 gives no meaning beside its name (DESIGN CHOICE, log entry 32). -/
def Dev.cutCaptures (p : Nat → Bool) (v : Dev) : Dev :=
  { v with
    rings := v.rings.map (fun e => if p (e.1 / 16) && e.2.state == .writing then (e.1, { e.2 with state := .incomplete }) else e)
    caps := v.caps.map (fun e => if p e.1 then (e.1, { e.2 with writing := none }) else e)
    ingress := v.ingress.map (fun e =>
      if p e.1 then (e.1, { e.2 with frame := e.2.frame.map (fun f => { f with surface := none }) }) else e) }

/-- The device with the state of a static surface changed. -/
def Dev.modStatic (n : Nat) (f : SurfaceSt → SurfaceSt) (v : Dev) : Dev :=
  match smFind n v.cfg.statics with
  | some x => { v with cfg := { v.cfg with statics := smPut n (f x) v.cfg.statics } }
  | none => v

/-- EV.PROBE.FREEZE's detail (R451): stream, direction, 1 FROZEN or 2 FAILED, frame number. -/
def freezeDetail (c : FreezeCfg) (result frame : Nat) : Nat :=
  c.stream * 2 ^ 48 + c.direction * 2 ^ 40 + result * 2 ^ 32 + frame

/-- An armed freeze ends FAILED and leaves its surface INCOMPLETE (R462). -/
def Dev.freezeFail (v : Dev) : Dev :=
  if v.freeze.state = 1 then
    ({ v with freeze := { v.freeze with state := 3, writing := false } }.modStatic v.freeze.cfg.surface
      (fun x => { x with state := .incomplete })).raise evFreeze (freezeDetail v.freeze.cfg 2 0)
  else v

/-! ### Master resets (R381 to R383) -/

/-- A master is reset: blocked and drained; ports parked on it or with it as default master move to their default master, or
stay unparked where that is in reset too; its requests are drained; the unit's consequence follows (R382, R383, R398). -/
def Dev.resetMaster (m cause : Nat) (v : Dev) : Dev :=
  let v := v.modMaster m fun x => { x with draining := true, resets := satInc x.resets }
  let v := { v with fabric := { v.fabric with waiting := v.fabric.waiting.filter fun q => q.1 != m } }
  let v := (List.range 20).foldl (fun v t =>
    let y := v.target t
    if y.parkedOn = some m || y.defaultMaster = m then
      v.modTarget t fun y => { y with parkedOn := if (v.master y.defaultMaster).draining then none else some y.defaultMaster
                                      drains := m :: y.drains }
    else v) v
  let v := v.raise 4784 (cause * 256 + m)
  if m < 16 then v.cutCaptures (fun c => c / 32 == m)
  else if m = 49 then v.freezeFail
  else v

/-- The drain ends and the master is unblocked; ports left unparked by it park on their default master, once no other reset holds them
(R382, R398). -/
def Dev.drained (m : Nat) (v : Dev) : Dev :=
  if (v.master m).draining then
    let v := v.modMaster m fun x => { x with draining := false }
    (List.range 20).foldl (fun v t =>
      let y := v.target t
      if y.drains.contains m then
        let left := y.drains.filter (· != m)
        v.modTarget t fun y => { y with drains := left, parkedOn := if y.parkedOn.isNone && left.isEmpty then some y.defaultMaster else y.parkedOn }
      else v) v
  else v

/-- Whether the units of PD02 to PD29 run: awake, being restored by a wake, or booting from images that verify. From the start of a
sleep entry they do nothing more (R512; log entry 30). -/
def Dev.mediaOn (v : Dev) : Bool :=
  match v.pow.phase with
  | .running | .waking => true
  | .booting => v.fw.bootOk && !v.fw.dead
  | _ => false

/-- MASTER_RESET (R381, R382): cause 0 stall, 1 core-ordered, 2 watchdog, 3 power-off. -/
def execMasterReset (t : Nat) (master : Fin 54) (cause : Fin 4) (s : State) : Result :=
  .next ((s.arrive t).onDev fun v => if v.mediaOn then v.resetMaster master cause else v)

/-- DRAIN_COMPLETE (R382). -/
def execDrainComplete (t : Nat) (master : Fin 54) (s : State) : Result :=
  .next ((s.arrive t).onDev fun v => if v.mediaOn then v.drained master else v)

/-- EV_FABRIC_LATE (R386). -/
def execEvFabricLate (t : Nat) (master : Fin 54) (port : Fin 16) (s : State) : Result :=
  .next ((s.arrive t).onDev fun v =>
    if v.mediaOn then
      (v.modTarget port fun y => { y with late := satInc y.late }).raise 4785 (port.val * 256 + master.val)
    else v)

/-! ### Memory errors (R392) -/

/-- An ECC error at an address: counted at its port, EV.MEM.ECC with the port offset (R392, R450). -/
def Dev.eccError (uncorrectable : Bool) (a : Nat) (v : Dev) : Dev :=
  (v.modTarget (portOf a) fun y =>
    if uncorrectable then { y with eccUncorrected := satInc y.eccUncorrected } else { y with eccCorrected := satInc y.eccCorrected }).raise
      (4768 + portOf a) (b01 uncorrectable * 2 ^ 56 + portOffset a)

/-- The 64-byte beats of a range that hold an uncorrectable error. -/
def Dev.badBeats (a n : Nat) (v : Dev) : List Nat := v.fabric.bad.filter fun b => decide (b < a + n) && decide (a < b + 64)

/-- The first 64-byte beat of a range that holds an uncorrectable error. -/
def Dev.badBeat (a n : Nat) (v : Dev) : Option Nat :=
  (v.badBeats a n).min?

/-- A write replaces the data of the beats it covers whole (R392). -/
def Dev.healBeats (a n : Nat) (v : Dev) : Dev :=
  { v with fabric := { v.fabric with bad := v.fabric.bad.filter (fun b => !(decide (a ≤ b) && decide (b + 64 ≤ a + n))) } }

/-- SCRUBBING (R392): a scrub read finds an error at an offset of a port; an uncorrectable one stays in the beat until it is written. -/
def execScrubbing (t : Nat) (port : Fin 16) (offset : Nat) (uncorrectable : Bool) (s : State) : Result :=
  .next ((s.arrive t).onDev fun v =>
    if v.mediaOn then
      let a := addrOfPort port (offset % 0x180000000)
      let b := a / 64 * 64
      let v := v.eccError uncorrectable a
      if uncorrectable && !v.fabric.bad.contains b then { v with fabric := { v.fabric with bad := b :: v.fabric.bad } } else v
    else v)

end Sys2Proof.Machine
end

