-- ==== Sys2Proof/Machine/Pixels.lean ====
section
/-! DEFINITION. Pictures as bytes: component packing (R104), frame CRCs (R225, R226), raw surfaces (R163) and the Miomas tile
format (R164 to R171). A line of a picture is held as its components in order: Y or R, then Cb or G, then Cr or B, then alpha. -/
namespace Sys2Proof.Machine
open Sys2Proof

/-! ### CRC-32 (R225) -/

/-- One bit of the reflected CRC-32. -/
def crc32Bit (c : U32) : U32 := if c.getLsbD 0 then (c >>> 1) ^^^ 0xEDB88320#32 else c >>> 1
/-- One byte of the CRC-32. -/
def crc32Byte (c : U32) (b : Byte) : U32 :=
  let c := c ^^^ (b.setWidth 32)
  crc32Bit (crc32Bit (crc32Bit (crc32Bit (crc32Bit (crc32Bit (crc32Bit (crc32Bit c)))))))
/-- `crc32` of R225 over bytes. -/
def crc32 (bs : List Byte) : U32 := (bs.foldl crc32Byte 0xFFFFFFFF#32) ^^^ 0xFFFFFFFF#32
/-- The running CRC of a component after more samples, two bytes each, low byte first (R226). -/
def crcSamples (c : U32) (vs : List Nat) : U32 := vs.foldl (fun c v => crc32Byte (crc32Byte c (BitVec.ofNat 8 v)) (BitVec.ofNat 8 (v / 256))) c
/-- The final value of a running CRC. -/
def crcDone (c : U32) : U32 := c ^^^ 0xFFFFFFFF#32

/-! ### Formats -/

/-- Whether a colour format has half as many chroma samples across (codes of R99 and R160). -/
def subsampled (fmt : Nat) : Bool := fmt == 2 || fmt == 3
/-- Components of a full pixel of a surface. -/
def components (fmt : Nat) : Nat := if fmt == 4 || fmt == 5 then 4 else 3
/-- Bytes of a sample's container (R163). -/
def container (bd : Nat) : Nat := if bd ≤ 8 then 1 else 2
/-- Samples of each component on a line of `w` pixels; `chroma` says whether a 4:2:0 line carries chroma. -/
def lineWidths (fmt w : Nat) (chroma : Bool) : List Nat :=
  if fmt == 2 then [w, w / 2, w / 2]
  else if fmt == 3 then (if chroma then [w, w / 2, w / 2] else [w, 0, 0])
  else List.replicate (components fmt) w

/-! ### Packing of VIDEO_LINE pixels (R104) -/

/-- The `n` values of `bd` bits of a bit sequence held as a number, first value lowest. -/
def unpackBits (bd : Nat) : Nat → Nat → List Nat
  | 0, _ => []
  | n + 1, v => v % 2 ^ bd :: unpackBits bd n (v / 2 ^ bd)

/-- The number whose bit sequence is the values of `bd` bits, first value lowest. -/
def packBits (bd : Nat) : List Nat → Nat
  | [] => 0
  | v :: r => v % 2 ^ bd + 2 ^ bd * packBits bd r

/-- Values per group of pixels, and pixels per group (R104). -/
def groupValues (fmt : Nat) (chroma : Bool) : Nat := if fmt == 2 then 4 else if fmt == 3 then (if chroma then 4 else 2) else 3
/-- Pixels per group. -/
def groupPixels (fmt : Nat) : Nat := if subsampled fmt then 2 else 1
/-- Values in `n` pixels. -/
def valueCount (fmt n : Nat) (chroma : Bool) : Nat := n / groupPixels fmt * groupValues fmt chroma
/-- Pixel bytes of a VIDEO_LINE with `n` pixels (R104). -/
def pixelBytes (fmt bd n : Nat) (chroma : Bool) : Nat := ceilDiv (valueCount fmt n chroma * bd) 8

/-- Values in packing order split into the components of the line. -/
def splitGroups (fmt : Nat) (chroma : Bool) : List Nat → List (List Nat)
  | a :: b :: r =>
    if fmt == 3 && !chroma then
      match splitGroups fmt chroma r with
      | y :: t => (a :: b :: y) :: t
      | [] => [[a, b]]
    else
      match r with
      | c :: r' =>
        if subsampled fmt then
          match r' with
          | d :: r'' =>
            match splitGroups fmt chroma r'' with
            | [y, u, v] => [a :: c :: y, b :: u, d :: v]
            | _ => [[a, c], [b], [d]]
          | [] => [[], [], []]
        else
          match splitGroups fmt chroma r' with
          | [x, y, z] => [a :: x, b :: y, c :: z]
          | _ => [[a], [b], [c]]
      | [] => [[], [], []]
  | _ => [[], [], []]

/-- The components of a line put in packing order. -/
def joinGroups (fmt : Nat) (chroma : Bool) (l : List (List Nat)) : List Nat :=
  let y := l.getD 0 []
  let u := l.getD 1 []
  let v := l.getD 2 []
  if fmt == 3 && !chroma then y
  else if subsampled fmt then
    (List.range (y.length / 2)).flatMap fun j => [y.getD (2 * j) 0, u.getD j 0, y.getD (2 * j + 1) 0, v.getD j 0]
  else (List.range y.length).flatMap fun j => [y.getD j 0, u.getD j 0, v.getD j 0]

/-- The pixel bytes of a VIDEO_LINE read as components (R104). -/
def unpackLine (fmt bd n : Nat) (chroma : Bool) (bs : List Byte) : List (List Nat) :=
  splitGroups fmt chroma (unpackBits bd (valueCount fmt n chroma) (leNat bs))

/-- Components packed into pixel bytes (R104). -/
def packLine (fmt bd n : Nat) (chroma : Bool) (l : List (List Nat)) : List Byte :=
  toLE (pixelBytes fmt bd n chroma) (packBits bd (joinGroups fmt chroma l))

/-! ### Raw surfaces (R163) -/

/-- Bytes of a line of a raw surface (R163). -/
def lineBytes (fmt bd w : Nat) : Nat :=
  container bd * w * (if fmt == 2 then 2 else if fmt == 3 then 1 else components fmt)
/-- The smallest pitch of a raw surface: a multiple of 64 that holds a line (R173). -/
def minPitch (fmt bd w : Nat) : Nat := ceilDiv (lineBytes fmt bd w) 64 * 64
/-- size_bytes of a raw surface (R163). -/
def rawSize (fmt pitch h : Nat) : Nat := if fmt == 3 then pitch * h * 3 / 2 else pitch * h

/-! ### Miomas tiles: layout (R164) -/

/-- Tiles across. -/
def tilesX (w : Nat) : Nat := ceilDiv w 32
/-- Tiles down. -/
def tilesY (h : Nat) : Nat := ceilDiv h 4
/-- Samples of a tile. -/
def tileSamples (fmt : Nat) : Nat := if fmt == 2 then 256 else if fmt == 3 then 192 else 128 * components fmt
/-- raw_sectors. -/
def rawSectors (fmt bd : Nat) : Nat := ceilDiv (tileSamples fmt * bd) 512
/-- meta_bytes. -/
def metaBytes (w h : Nat) : Nat := ceilDiv (tilesX w * tilesY h) 4096 * 4096
/-- size_bytes of an MTF surface. -/
def mtfSize (fmt bd w h : Nat) : Nat := metaBytes w h + tilesX w * tilesY h * rawSectors fmt bd * 64
/-- Address of a tile's metadata. -/
def metaAddr (base w tx ty : Nat) : Nat := base + ty * tilesX w + tx
/-- Address of a tile's slot. -/
def slotAddr (base fmt bd w h tx ty : Nat) : Nat := base + metaBytes w h + (ty * tilesX w + tx) * rawSectors fmt bd * 64

/-- size_bytes of a surface (R163, R164). -/
def surfaceSize (storage fmt bd w h pitch : Nat) : Nat :=
  if storage == 1 then mtfSize fmt bd w h else rawSize fmt (if pitch = 0 then minPitch fmt bd w else pitch) h

/-! ### Miomas tiles: coding (R166 to R170) -/

/-- `wrap` of R168. -/
def mtfWrap (bd : Nat) (d : Int) : Int := (d + 2 ^ (bd - 1)).emod (2 ^ bd) - 2 ^ (bd - 1)
/-- `zig` of R168. -/
def zig (r : Int) : Nat := if r ≥ 0 then (2 * r).toNat else (-2 * r - 1).toNat
/-- `unzig` of R168. -/
def unzig (u : Nat) : Int := if u % 2 = 0 then ((u / 2 : Nat) : Int) else -(((u + 1) / 2 : Nat) : Int)
/-- `rice_len` of R168. -/
def riceLen (bd u k : Nat) : Nat := if u / 2 ^ k < 16 then u / 2 ^ k + 1 + k else 16 + bd

/-- The low `n` bits of a number, least significant first. -/
def bitsOf : Nat → Nat → List Bool
  | 0, _ => []
  | n + 1, v => (v % 2 == 1) :: bitsOf n (v / 2)

/-- The Rice code of u with parameter k (R168). -/
def riceCode (bd u k : Nat) : List Bool :=
  if u / 2 ^ k < 16 then List.replicate (u / 2 ^ k) true ++ [false] ++ bitsOf k u else List.replicate 16 true ++ bitsOf bd u

/-- The residual codes of a line of one component, each sample predicted from the one before it (R167, R168). -/
def residuals (bd : Nat) : Nat → List Nat → List Nat
  | _, [] => []
  | p, v :: r => zig (mtfWrap bd ((v : Int) - (p : Int))) :: residuals bd v r

/-- The parameter of R170 step 2: the smallest k that gives the least total length. -/
def bestK (bd : Nat) (us : List Nat) : Nat :=
  let cost (k : Nat) : Nat := (us.map (fun u => riceLen bd u k)).sum
  (List.range 16).foldl (fun best k => if cost k < cost best then k else best) 0

/-- One line of one component coded (R169): k, the raw first sample where nothing predicts it, the Rice codes. -/
def codeLine (bd : Nat) (above : Option Nat) (vs : List Nat) : List Bool :=
  match above, vs with
  | some p, _ =>
    let us := residuals bd p vs
    let k := bestK bd us
    bitsOf 4 k ++ us.flatMap (fun u => riceCode bd u k)
  | none, v :: r =>
    let us := residuals bd v r
    let k := bestK bd us
    bitsOf 4 k ++ bitsOf bd v ++ us.flatMap (fun u => riceCode bd u k)
  | none, [] => []

/-- First samples that predict the next tile line, by component (R167). -/
def nextAbove : List (Option Nat) → List (List Nat) → List (Option Nat)
  | a :: ar, l :: lr => (match l with
      | v :: _ => some v
      | [] => a) :: nextAbove ar lr
  | ar, [] => ar
  | [], _ => []

/-- One tile line coded, component by component; a component that the line does not carry is left out (R166). -/
def codeTileLine (bd : Nat) : List (Option Nat) → List (List Nat) → List Bool
  | a :: ar, l :: lr => (if l.isEmpty then [] else codeLine bd a l) ++ codeTileLine bd ar lr
  | _, _ => []

/-- The bits of a CODED tile (R169). -/
def codeTile (bd : Nat) : List (Option Nat) → List (List (List Nat)) → List Bool
  | _, [] => []
  | above, l :: r => codeTileLine bd above l ++ codeTile bd (nextAbove above l) r

/-- Bits as bytes, bit i at bit i mod 8 of byte i div 8 (R169). -/
def bytesOfBits (n : Nat) (bs : List Bool) : List Byte :=
  toLE n (bs.foldr (fun b v => (if b then 1 else 0) + 2 * v) 0)

/-- Whether every sample of a component over the tile equals the first. -/
def constantComponent (t : List (List (List Nat))) (k : Nat) : Bool :=
  let vs := t.flatMap (fun l => l.getD k [])
  vs.all (· == vs.headD 0)

/-- A tile as the device writes it (R170): its metadata byte and its data. `t` holds the four tile lines, padding included. -/
def writeTile (fmt bd : Nat) (t : List (List (List Nat))) : Byte × List Byte :=
  let n := components fmt
  let rs := rawSectors fmt bd
  if (List.range n).all (constantComponent t) then
    let vals := (List.range n).flatMap (fun k => toLE 2 ((t.flatMap (fun l => l.getD k [])).headD 0))
    (BitVec.ofNat 8 (1 * 32 + 1), vals ++ zeros (64 - 2 * n))
  else
    let bits := codeTile bd (List.replicate n none) t
    let sec := ceilDiv bits.length 512
    if sec < rs then (BitVec.ofNat 8 sec, bytesOfBits (64 * sec) bits)
    else (BitVec.ofNat 8 (2 * 32 + rs), bytesOfBits (64 * rs) ((t.flatMap (fun l => l.flatten)).flatMap (bitsOf bd)))

/-! ### Miomas tiles: reading (R171) -/

/-- The number in the first `n` bits, least significant first, and the rest; none beyond the end. -/
def takeBits : Nat → List Bool → Option (Nat × List Bool)
  | 0, r => some (0, r)
  | _ + 1, [] => none
  | n + 1, b :: r => (takeBits n r).map fun q => ((if b then 1 else 0) + 2 * q.1, q.2)

/-- The number of one-bits before a zero-bit, at most `n`; with `n` ones no zero follows. -/
def takeOnes : Nat → List Bool → Option (Nat × List Bool)
  | 0, r => some (0, r)
  | _ + 1, [] => none
  | n + 1, b :: r => if b then (takeOnes n r).map fun q => (q.1 + 1, q.2) else some (0, r)

/-- One Rice code read (R168). -/
def readRice (bd k : Nat) (bs : List Bool) : Option (Nat × List Bool) :=
  (takeOnes 16 bs).bind fun q =>
    if q.1 < 16 then (takeBits k q.2).map fun w => (q.1 * 2 ^ k + w.1, w.2)
    else takeBits bd q.2

/-- `n` samples decoded, each predicted from the one before it (R167, R168). -/
def readSamples (bd k : Nat) : Nat → Nat → List Bool → Option (List Nat × List Bool)
  | 0, _, bs => some ([], bs)
  | n + 1, p, bs =>
    (readRice bd k bs).bind fun q =>
      let v := (((p : Int) + unzig q.1).emod (2 ^ bd)).toNat
      (readSamples bd k n v q.2).map fun w => (v :: w.1, w.2)

/-- One line of one component decoded. -/
def readLine (bd n : Nat) (above : Option Nat) (bs : List Bool) : Option (List Nat × List Bool) :=
  if n = 0 then some ([], bs)
  else (takeBits 4 bs).bind fun kq =>
    match above with
    | some p => readSamples bd kq.1 n p kq.2
    | none => (takeBits bd kq.2).bind fun v => (readSamples bd kq.1 (n - 1) v.1 v.2).map fun w => (v.1 :: w.1, w.2)

/-- One tile line decoded. -/
def readTileLine (bd : Nat) : List (Option Nat) → List Nat → List Bool → Option (List (List Nat) × List Bool)
  | a :: ar, n :: nr, bs =>
    (readLine bd n a bs).bind fun q => (readTileLine bd ar nr q.2).map fun w => (q.1 :: w.1, w.2)
  | _, _, bs => some ([], bs)

/-- The tile lines decoded; `ws` holds the samples of each component on each line. -/
def readTileLines (bd : Nat) : List (Option Nat) → List (List Nat) → List Bool → Option (List (List (List Nat)))
  | _, [], _ => some []
  | above, w :: wr, bs =>
    (readTileLine bd above w bs).bind fun q => (readTileLines bd (nextAbove above q.1) wr q.2).map fun r => q.1 :: r

/-- Samples of each component on the four lines of a tile (R166). -/
def tileWidths (fmt : Nat) : List (List Nat) := (List.range 4).map fun y => lineWidths fmt 32 (y % 2 == 0)

/-- Values in RAW order split into lines and components. -/
def splitRaw : List (List Nat) → List Nat → List (List (List Nat))
  | [], _ => []
  | ws :: r, vs =>
    let line := ws.foldl (fun (acc : List (List Nat) × List Nat) n => (acc.1 ++ [acc.2.take n], acc.2.drop n)) ([], vs)
    line.1 :: splitRaw r line.2

/-- A tile read from its metadata and its data: the samples, and whether it was malformed (R171). -/
def readTile (fmt bd : Nat) (meta_ : Byte) (data : List Byte) : List (List (List Nat)) × Bool :=
  let ws := tileWidths fmt
  let blank := ws.map (fun l => l.map (fun n => List.replicate n 0))
  let kind := meta_.toNat / 32
  if kind = 1 then
    ((ws.map fun l => (List.range l.length).map fun k => List.replicate (l.getD k 0) (leNat (sliceB data (2 * k) 2))), false)
  else if kind = 2 then (splitRaw ws (unpackBits bd (tileSamples fmt) (leNat data)), false)
  else if kind = 0 then
    match readTileLines bd (List.replicate (components fmt) none) ws (bitsOf (512 * (meta_.toNat % 32)) (leNat data)) with
    | some t => (t, false)
    | none => (blank, true)
  else (blank, true)

/-! ### Lines of surfaces in memory -/

/-- Pitch of a surface: as set, or the smallest for 0 (R160). -/
def SurfaceSt.realPitch (x : SurfaceSt) : Nat := if x.pitch = 0 then minPitch x.colourFormat x.bitDepth x.width else x.pitch

/-- Address and length of a line of the first plane of a raw surface, and of the chroma line of its pair of lines (R163). -/
def SurfaceSt.rawLine (x : SurfaceSt) (chroma : Bool) (y : Nat) : Nat × Nat :=
  (x.base + (if chroma then x.realPitch * x.height + y / 2 * x.realPitch else y * x.realPitch), lineBytes x.colourFormat x.bitDepth x.width)

/-- What a line written to a raw surface occupies: chroma of 4:2:0 comes with even lines. -/
def SurfaceSt.rawWritten (x : SurfaceSt) (y : Nat) : List (Nat × Nat) :=
  x.rawLine false y :: (if x.colourFormat == 3 && y % 2 == 0 then [x.rawLine true y] else [])

/-- Samples in containers (R163). -/
def containerBytes (bd : Nat) (vs : List Nat) : List Byte := vs.flatMap (toLE (container bd))

/-- A line written to a raw surface (R163). -/
def writeRawLine (x : SurfaceSt) (y : Nat) (l : List (List Nat)) (m : List Host.Cell) : List Host.Cell :=
  let p := x.realPitch
  if x.colourFormat == 3 then
    let m := memWrite m (x.base + y * p) (containerBytes x.bitDepth (l.getD 0 []))
    if y % 2 = 0 then
      let u := l.getD 1 []
      memWrite m (x.base + p * x.height + y / 2 * p)
        (containerBytes x.bitDepth ((List.range u.length).flatMap fun j => [u.getD j 0, (l.getD 2 []).getD j 0]))
    else m
  else if x.colourFormat == 2 then memWrite m (x.base + y * p) (containerBytes x.bitDepth (joinGroups 2 true l))
  else
    let w := (l.getD 0 []).length
    memWrite m (x.base + y * p) (containerBytes x.bitDepth ((List.range w).flatMap fun j => l.map (fun c => c.getD j 0)))

/-- Values in containers read back; unused high bits are ignored (R163). -/
def readContainers (bd : Nat) (m : List Host.Cell) (a n : Nat) : List Nat :=
  (List.range n).map fun j => leNat (memRead m (a + j * container bd) (container bd)) % 2 ^ bd

/-- Every `n`-th value from the `k`-th. -/
def strided (n k cnt : Nat) (vs : List Nat) : List Nat := (List.range cnt).map fun j => vs.getD (n * j + k) 0

/-- A line read from a raw surface, by component; a 4:2:0 line comes with the chroma of its pair of lines. -/
def readRawLine (x : SurfaceSt) (m : List Host.Cell) (y : Nat) : List (List Nat) :=
  let p := x.realPitch
  let w := x.width
  if x.colourFormat == 3 then
    let c := readContainers x.bitDepth m (x.base + p * x.height + y / 2 * p) w
    [readContainers x.bitDepth m (x.base + y * p) w, strided 2 0 (w / 2) c, strided 2 1 (w / 2) c]
  else if x.colourFormat == 2 then splitGroups 2 true (readContainers x.bitDepth m (x.base + y * p) (2 * w))
  else
    let n := components x.colourFormat
    let c := readContainers x.bitDepth m (x.base + y * p) (n * w)
    (List.range n).map fun k => strided n k w c

/-- One component of a tile line cut from a surface line, padded to the right with its last sample (R166). -/
def tileCut (n o : Nat) (vs : List Nat) : List Nat :=
  let c := (vs.drop o).take n
  c ++ List.replicate (n - c.length) (vs.getLastD 0)

/-- The tile row's lines padded below with copies: a luma line copies the last line, a chroma line the last that carries chroma (R166). -/
def padRow (fmt : Nat) (ls : List (List (List Nat))) : List (List (List Nat)) :=
  (List.range 4).map fun y =>
    if y < ls.length then ls.getD y []
    else if fmt == 3 then
      let src := ls.getLastD []
      let chroma := ls.getD ((ls.length - 1) / 2 * 2) []
      [src.getD 0 [], if y % 2 = 0 then chroma.getD 1 [] else [], if y % 2 = 0 then chroma.getD 2 [] else []]
    else ls.getLastD []

/-- A tile row written: the tiles' data, then the metadata of the row (R176). `ls` holds its one to four lines. -/
def writeTileRow (x : SurfaceSt) (ty : Nat) (ls : List (List (List Nat))) (m : List Host.Cell) : List Host.Cell :=
  let fmt := x.colourFormat
  let rows := padRow fmt ls
  let tile (tx : Nat) : Byte × List Byte :=
    writeTile fmt x.bitDepth ((List.range 4).map fun y =>
      let w := lineWidths fmt 32 (y % 2 == 0)
      (List.range w.length).map fun k =>
        if w.getD k 0 = 0 then [] else tileCut (w.getD k 0) (tx * (if k = 0 || !subsampled fmt then 32 else 16)) ((rows.getD y []).getD k []))
  let ts := (List.range (tilesX x.width)).map tile
  let m := (List.range (tilesX x.width)).foldl (fun m tx => memWrite m (slotAddr x.base fmt x.bitDepth x.width x.height tx ty) (ts.getD tx (0, [])).2) m
  memWrite m (metaAddr x.base x.width 0 ty) (ts.map (·.1))

/-- The place of a tile's data: its slot, and the length in bytes that its metadata names (R171). -/
def SurfaceSt.tileData (x : SurfaceSt) (m : List Host.Cell) (tx ty : Nat) : Nat × Nat :=
  (slotAddr x.base x.colourFormat x.bitDepth x.width x.height tx ty,
    64 * min ((memGet (metaAddr x.base x.width tx ty) m).toNat % 32) (rawSectors x.colourFormat x.bitDepth))

/-- What a tile row written occupies: the sectors of each tile, then the metadata of the row (R176). -/
def SurfaceSt.tileRowData (x : SurfaceSt) (m : List Host.Cell) (ty : Nat) : List (Nat × Nat) :=
  ((List.range (tilesX x.width)).map fun tx => x.tileData m tx ty) ++ [(metaAddr x.base x.width 0 ty, tilesX x.width)]

/-- A tile of an MTF surface as a reader decodes it, and whether it is malformed (R171). -/
def SurfaceSt.readTileAt (x : SurfaceSt) (m : List Host.Cell) (tx ty : Nat) : List (List (List Nat)) × Bool :=
  let g := x.tileData m tx ty
  readTile x.colourFormat x.bitDepth (memGet (metaAddr x.base x.width tx ty) m) (memRead m g.1 g.2)

/-- A line read from an MTF surface, by component, with the number of malformed tiles met (R171). -/
def readMtfLine (x : SurfaceSt) (m : List Host.Cell) (y : Nat) : List (List Nat) × Nat :=
  let fmt := x.colourFormat
  let ts := (List.range (tilesX x.width)).map fun tx => x.readTileAt m tx (y / 4)
  let pick (k : Nat) : List Nat :=
    let yy := if fmt == 3 && k != 0 then y % 4 / 2 * 2 else y % 4
    (ts.flatMap fun t => (t.1.getD yy []).getD k []).take (if k = 0 || !subsampled fmt then x.width else x.width / 2)
  ((List.range (components fmt)).map pick, (ts.filter (·.2)).length)

/-- A line read from a surface, by component, with the number of malformed tiles met. -/
def readSurfaceLine (x : SurfaceSt) (m : List Host.Cell) (y : Nat) : List (List Nat) × Nat :=
  if x.storage == 1 then readMtfLine x m y else (readRawLine x m y, 0)

end Sys2Proof.Machine
end

