-- ==== Sys2Proof/Machine/Probe.lean ====
section
/-! DEFINITION. How the lines of a frame are put together as they pass (R97, R103, R117), and the stream probes and the freeze
capture that measure them (R458 to R463). -/
namespace Sys2Proof.Machine
open Sys2Proof

/-! ### Lines of a frame -/

/-- Whether a line of a frame carries chroma in 4:2:0 (R104). -/
def chromaAt (field line : Nat) : Bool := if field = 0 then line % 2 == 0 else line / 2 % 2 == 0

/-- Active lines of the frames of a stream: of the frame, or of each field (R97, R99). -/
def Desc.frameLines (d : Desc) : Nat := if d.scan = 0 then d.height else d.height / 2

/-- Row of a line within its frame or field. -/
def rowOf (field line : Nat) : Nat := if field = 0 then line else line / 2

/-- Whether the fields of a VIDEO_LINE payload lie in the ranges of R103, and its length is that of R104. -/
def lineValid (d : Desc) (field : Nat) (p : List Byte) : Bool :=
  let line := fieldU p 0 2
  let first := fieldU p 2 2
  let n := fieldU p 4 2
  decide (line < d.height) && decide (first < d.width) && decide (1 ≤ n) && decide (first + n ≤ d.width)
    && (!subsampled d.colourFormat || (first % 2 == 0 && n % 2 == 0))
    && (field == 0 || (line % 2 == if field = 1 then 0 else 1))
    && p.length == 8 + pixelBytes d.colourFormat d.bitDepth n (chromaAt field line)

/-- Whether a VIDEO_LINE stands in the order of R97: lines rise, and pixels rise within a line. -/
def Meter.inOrder (m : Meter) (line first : Nat) : Bool :=
  match m.line with
  | none => true
  | some l => decide (l < line) || (l == line && decide (m.nextPixel ≤ first))

/-- A VIDEO_LINE passes: the measurement after it, and the line by component when it is now whole (R103). A line whose pixels
do not follow one another holds no samples from then on. -/
def Meter.add (m : Meter) (p : List Byte) : Meter × Option (Nat × List (List Nat)) :=
  let d := m.desc
  let line := fieldU p 0 2
  let first := fieldU p 2 2
  let n := fieldU p 4 2
  let vals := unpackLine d.colourFormat d.bitDepth n (chromaAt m.field line) (p.drop 8)
  let same := m.line == some line
  let have_ := if same then m.lineBuf else [[], [], []]
  let follows := first == (if same then m.nextPixel else 0) && !have_.isEmpty
  let buf := if follows then (List.range 3).map (fun k => have_.getD k [] ++ vals.getD k []) else []
  let whole := follows && first + n == d.width
  ({ m with line := some line, nextPixel := first + n, lineBuf := buf,
            crcs := (List.range 3).map (fun k => crcSamples (m.crcs.getD k 0) (vals.getD k [])),
            lines := if whole then m.lines + 1 else m.lines,
            first := some (min line (m.first.getD line)), last := max line m.last },
   if whole then some (line, buf) else none)

/-- What a FRAME_END says of a frame (R105): lines_sent, crc_present, the CRCs. -/
structure FrameEnd where
  /-- frame_number. -/
  frameNumber : Nat
  /-- crc_c0 to crc_c2. -/
  crcs : List Nat
  /-- lines_sent. -/
  linesSent : Nat
  /-- crc_present. -/
  present : Nat
  deriving DecidableEq, Repr

/-- The payload of a FRAME_END (R105). -/
def readFrameEnd (p : List Byte) : FrameEnd :=
  { frameNumber := fieldU p 0 4, crcs := [fieldU p 4 4, fieldU p 8 4, fieldU p 12 4], linesSent := fieldU p 16 2, present := fieldU p 18 1 }

/-- Result per component of comparing a frame's CRCs with its FRAME_END: 0 not compared, 1 match, 2 mismatch (R134, R460). -/
def crcResults (m : Meter) (e : Option FrameEnd) : List Nat :=
  (List.range 3).map fun k =>
    match e with
    | some x => if bit x.present k then (if (crcDone (m.crcs.getD k 0)).toNat = x.crcs.getD k 0 then 1 else 2) else 0
    | none => 0

/-! ### Probes (R458 to R460) -/

/-- Probe of a stream: ingress s, or egress e. -/
def probeNo (dir n : Nat) : Nat := dir * 512 + n

/-- The samples of one component that lie in the statistics window of a line: `step` pixels stand between samples (R460). -/
def inWindow (x w step : Nat) (first : Nat) (vs : List Nat) : List Nat :=
  ((List.range vs.length).zip vs).filterMap fun e =>
    let px := first + e.1 * step
    if x ≤ px && (w = 0 || px < x + w) then some e.2 else none

/-- Count, least, greatest, sum and sum of squares with more samples. -/
def statsAdd (a : List Nat) (vs : List Nat) : List Nat :=
  vs.foldl (fun a v =>
    let c := a.getD 0 0
    [c + 1, if c = 0 then v else min v (a.getD 1 0), max v (a.getD 2 0), a.getD 3 0 + v, a.getD 4 0 + v * v]) a

/-- The statistics of a run with one more VIDEO_LINE (R460). -/
def ProbeRun.stats (c : ProbeCfg) (r : ProbeRun) (p : List Byte) : List (List Nat) :=
  let d := r.meter.desc
  let line := fieldU p 0 2
  if c.statsY ≤ line && (c.statsHeight = 0 || line < c.statsY + c.statsHeight) then
    let vals := unpackLine d.colourFormat d.bitDepth (fieldU p 4 2) (chromaAt r.meter.field line) (p.drop 8)
    (List.range 3).map fun k =>
      let step := if k > 0 && subsampled d.colourFormat then 2 else 1
      statsAdd (r.acc.getD k []) (inWindow c.statsX c.statsWidth step (fieldU p 2 2) (vals.getD k []))
  else r.acc

/-- Whether the freeze is armed on a stream. -/
def Dev.freezesOn (v : Dev) (dir n : Nat) : Bool := v.freeze.state == 1 && v.freeze.cfg.direction == dir && v.freeze.cfg.stream == n

/-- Whether a frame fits the freeze's surface (R461, R462). -/
def freezeFits (x : SurfaceSt) (d : Desc) : Bool :=
  x.colourFormat == d.colourFormat && x.bitDepth == d.bitDepth && x.width == d.width && x.height == d.frameLines

/-- The freeze meets the end of a frame: it ends FROZEN when the trigger is satisfied (R462). NEXT and TIME take the first frame of the
surface's format that qualifies, since one of another format cannot trigger (DEDUCED, log entry 41). -/
def Dev.freezeTest (dir n : Nat) (r : ProbeRun) (complete : Bool) (res : List Nat) (v : Dev) : Dev :=
  if v.freezesOn dir n && v.freeze.writing then
    let c := v.freeze.cfg
    let hit := match c.trigger with
      | 1 => true
      | 2 => r.frameNo == c.frameNumber
      | 3 => decide (c.time ≤ uOfQ r.startQ)
      | 4 => res.any (· == 2)
      | _ => !complete
    if hit then
      { v with freeze := { v.freeze with state := 2, writing := false,
                                         held := some { cfg := c, frameNo := r.frameNo, startQ := r.startQ, lines := v.freeze.lines } } }.raise evFreeze
        (freezeDetail c 1 r.frameNo)
    else { v with freeze := { v.freeze with writing := false } }
  else v

/-- Frame start of a frame that ends: on egress that of the FRAME_START that has left, or the earliest it can still have (R460). -/
def Dev.frameStartQ (dir n : Nat) (r : ProbeRun) (v : Dev) : Nat := if dir = 1 then (v.txQueue n).startQ.getD r.startQ else r.startQ

/-- The frame on a probe ends, with a FRAME_END or without (R458, R460); `ok` says that nothing made it incomplete. -/
def Dev.probeEnd (dir n : Nat) (ok : Bool) (e : Option FrameEnd) (v : Dev) : Dev :=
  let p := v.probe (probeNo dir n)
  match p.run with
  | none => v
  | some r =>
    let r := { r with startQ := v.frameStartQ dir n r }
    let res := crcResults r.meter e
    let complete := ok && r.meter.lines == r.meter.desc.frameLines &&
      (match e with | some x => x.frameNumber == r.frameNo && x.linesSent == r.meter.lines | none => false)
    let follows := decide (0 < p.frames.toNat) && (p.frameNo + 1) % 2 ^ 32 == r.frameNo
    let p' := if p.cfg.enable = 1 then
        { p with run := none, frameNo := r.frameNo,
                 flags := b01 complete + 2 * b01 (r.meter.field != 0) + 4 * b01 (r.meter.field == 2),
                 crcResult := res.getD 0 0 + 4 * res.getD 1 0 + 16 * res.getD 2 0,
                 crc := r.meter.crcs.map crcDone, startQ := r.startQ,
                 periodQ := if follows then r.startQ - p.startQ else 0,
                 linesReceived := r.meter.lines, firstLine := r.meter.first.getD 0, lastLine := r.meter.last,
                 linesSent := (e.map (·.linesSent)).getD 0, frames := p.frames + 1,
                 mismatchFrames := if res.any (· == 2) then satInc p.mismatchFrames else p.mismatchFrames, stats := r.acc }
      else { p with run := none }
    (v.setProbe (probeNo dir n) p').freezeTest dir n r complete res

/-- A frame starts on a probe (R459: a new record takes effect here); a frame in progress ends incomplete. -/
def Dev.probeStart (dir n : Nat) (d : Desc) (p : List Byte) (startQ : Nat) (v : Dev) : Dev :=
  let v := v.probeEnd dir n false none
  let i := probeNo dir n
  let x := v.probe i
  let c := x.next.getD x.cfg
  let frz := v.freezesOn dir n
  let run : ProbeRun := { meter := { desc := d, field := fieldU p 10 1 }, frameNo := fieldU p 0 4, startQ := startQ,
                          acc := List.replicate 3 [0, 0, 0, 0, 0] }
  let v := v.setProbe i { x with cfg := c, next := none, run := if (c.enable = 1 || frz) && !v.pow.off.contains 29 then some run else none }
  if frz then
    let fits := match smFind v.freeze.cfg.surface v.cfg.statics with | some y => freezeFits y d | none => false
    { v with freeze := { v.freeze with writing := fits, lines := if fits then 0 else v.freeze.lines } }
  else v

/-- A VIDEO_LINE passes a probe; a line that it makes whole is written into the freeze surface (R462). -/
def State.probeLine (dir n : Nat) (p : List Byte) (s : State) : State :=
  let i := probeNo dir n
  let x := s.dev.probe i
  match x.run with
  | none => s
  | some r =>
    let st := r.meter.add p
    let r' := { r with acc := r.stats x.cfg p, meter := st.1 }
    let s := s.onDev (Dev.setProbe i { x with run := some r' })
    if s.dev.freezesOn dir n && s.dev.freeze.writing then
      match st.2, smFind s.dev.freeze.cfg.surface s.dev.cfg.statics with
      | some l, some y =>
        let row := rowOf r.meter.field l.1
        { s with mem := writeRawLine y row l.2 s.mem,
                 dev := ({ s.dev with freeze := { s.dev.freeze with lines := s.dev.freeze.lines + 1 } }.access 49 (y.base + row * y.realPitch)
                           (lineBytes y.colourFormat y.bitDepth y.width)) }
      | _, _ => s
    else s

/-- A FRAME_END passes a probe. -/
def Dev.probeFinish (dir n : Nat) (ok : Bool) (p : List Byte) (v : Dev) : Dev := v.probeEnd dir n ok (some (readFrameEnd p))

end Sys2Proof.Machine
end

