-- ==== Sys2Proof/Machine/TcPhase.lean ====
section
/-! DEFINITION. The phase of a timing channel: its DCO cycle count C and the instants of counts (R252, R343, R344), the build-out
slew (R334, R336), and the phase marks of a reference (R325, R326). -/
namespace Sys2Proof.Machine
open Sys2Proof

/-- 1 as s32.16 ppm times a million: the scale of `dcoScaled`. -/
def ppmOne : Nat := 65536000000

/-- `TcSt.phase` of one DCO cycle. -/
def cycleP : Nat := 2048 * secQ * ppmOne

/-- DCO frequency against OSC, in Hz times `ppmOne` (R347). -/
def TcSt.dcoScaled (x : TcSt) : Nat := ((x.cfg.setFreqHz : Int) * ((ppmOne : Int) + x.dcoOffset)).toNat

/-- build_out_ns in 2^-16 ns at an instant: it moves towards its final value at slew_ps_per_s (R334, R336). -/
def TcSt.outAt (t : Nat) (x : TcSt) : Int :=
  if !x.following then x.buildOut
  else
    let n : Int := (x.sel.slewPsPerS * 65536 * (t - x.slewT) / (1000 * secQ) : Nat)
    if x.slewTo ≤ x.buildOut then max x.slewTo (x.buildOut - n) else min x.slewTo (x.buildOut + n)

/-- What 2^-16 ns of build-out is in the unit of `TcSt.phase`: 125 secQ / 2048 quarter ps make a 2^-16 ns times `secQ`. -/
def TcSt.outP (b : Int) (x : TcSt) : Int := 125 * b * x.dcoScaled

/-- C at an instant, exact (R344). The phase marks stand at build_out_ns after the reference's instants (R326), so a slew of
build_out_ns takes C back by as much. -/
def TcSt.phaseAt (t : Nat) (x : TcSt) : Nat :=
  ((x.phase : Int) + 2048 * ((t : Int) - x.phaseT) * x.dcoScaled - x.outP (x.outAt t - x.buildOut)).toNat

/-- Whole DCO cycles at an instant, as TC.STATUS reports them (R344, R347). -/
def TcSt.count (x : TcSt) (t : Nat) : Nat := x.phaseAt t / cycleP % 2 ^ 64

/-- The channel with its count and its build-out brought to an instant, before its frequency or its build-out changes: neither steps. -/
def TcSt.rebase (t : Nat) (x : TcSt) : TcSt :=
  let u := max x.phaseT t
  { x with phase := x.phaseAt u, phaseT := u, buildOut := x.outAt u, slewT := u }

/-- The first instant at which C has reached a count, at the frequency in force (R252, R344); a slew under way shifts it, found in two
rounds. -/
def TcSt.whenP (p : Nat) (x : TcSt) : Nat :=
  let f : Int := 2048 * max 1 x.dcoScaled
  let at_ (shift : Int) : Nat := ((x.phaseT : Int) - ((x.phase : Int) - p - shift) / f).toNat
  let t := at_ 0
  let t := at_ (x.outP (x.outAt t - x.buildOut))
  at_ (x.outP (x.outAt t - x.buildOut))

/-- build_out_ns of 2^-16 ns in quarter ps, and back, to the nearest. -/
def outToQ (b : Int) : Int := (2000 * b + 16384) / 32768
/-- Quarter ps as 2^-16 ns, to the nearest. -/
def qToOut (q : Int) : Int := (32768 * q + 1000) / 2000

/-- How long after an instant, in quarter ps, the phase mark stands that corresponds to the position `pos` of a reference of nominal
frequency f (R325, R344): marks stand at C = m K, and of those that fit the one nearest to `near` after the instant is taken. -/
def TcSt.markOffset (f : Nat × Nat) (pos : Nat) (near : Int) (t : Nat) (x : TcSt) : Int :=
  let period : Int := (max 1 (x.cfg.setFreqHz * f.2 * cycleP) : Nat)
  let whole : Int := period * secQ
  let away : Int := (pos : Int) * period - (x.phaseAt t : Int) * f.1 * secQ
  let unit : Int := 2048 * max 1 x.dcoScaled * (max 1 f.1 : Nat) * secQ
  let n := near * unit
  let r := n + ((away - n + whole / 2).emod whole - whole / 2)
  (2 * r + unit) / (2 * unit)

/-- The channel with its phase moved on by a time in quarter ps over `d`. -/
def TcSt.pull (num : Int) (d : Nat) (x : TcSt) : TcSt :=
  { x with phase := ((x.phase : Int) + 2048 * num * x.dcoScaled / (max 1 d : Nat)).toNat }

end Sys2Proof.Machine
end

