-- ==== Sys2Proof/Machine/Outputs.lean ====
section
/-! DEFINITION. The edges of the clock outputs (R350, R351), the calibration of the output paths (R352), and the pulses of the
frame-pulse outputs (R353 to R356), all at the far-side reference plane. -/
namespace Sys2Proof.Machine
open Sys2Proof

/-! ### Clock outputs (R350, R351) -/

/-- Half DCO periods up to rising edge j of an output, its coarse delay included (R350). -/
def CkoCfg.halves (j : Nat) (c : CkoCfg) : Nat := 2 * j * c.divider + c.coarseHalf

/-- t(C) for a count in half DCO periods (R344, R350). -/
def TcSt.halfT (halves : Nat) (x : TcSt) : Nat := x.whenP (halves * (cycleP / 2))

/-- t_rise(j) of R350 with a fine delay. -/
def TcSt.riseT (c : CkoCfg) (fine j : Nat) (x : TcSt) : Nat := x.halfT (c.halves j) + fine

/-- t_fall(j) of R350: half of the divider, in DCO periods, after the rise. -/
def TcSt.fallT (c : CkoCfg) (fine j : Nat) (x : TcSt) : Nat := x.halfT (c.halves j + c.divider) + fine

/-- Output period in quarter ps, rounded down. -/
def TcSt.ckoPeriodQ (c : CkoCfg) (x : TcSt) : Nat := c.divider * secQ * ppmOne / max 1 x.dcoScaled

/-- The fine delay of an output at an instant (R351): with a period of 100 ns or longer a new one acts from the next rising edge on, else
it is reached by 1 ps a period. -/
def CkoSt.fineAt (t : Nat) (k : TcSt) (x : CkoSt) : Nat :=
  let per := max 1 (k.ckoPeriodQ x.cfg)
  if 400000 ≤ per then
    let j := ((k.phaseAt x.fineT / (cycleP / 2) - x.cfg.coarseHalf) / max 1 (2 * x.cfg.divider)) + 1
    if t < k.riseT x.cfg x.fineFrom j then x.fineFrom else x.cfg.fineQ
  else
    let n := 4 * ((t - x.fineT) / per)
    if x.cfg.fineQ ≤ x.fineFrom then max x.cfg.fineQ (x.fineFrom - n) else min x.cfg.fineQ (x.fineFrom + n)

/-- The period in which an output stands at an instant, none before its first. -/
def CkoSt.periodAt (t : Nat) (k : TcSt) (x : CkoSt) : Option Nat :=
  let h := k.phaseAt (t - x.fineAt t k) / (cycleP / 2)
  if h < x.cfg.coarseHalf then none else some ((h - x.cfg.coarseHalf) / max 1 (2 * x.cfg.divider))

/-- Whether an output is high at an instant (R349, R350, R351): its last run completes its high phase, and a running output follows its
grid from the first rising edge at or after `from_`. -/
def CkoSt.high (t : Nat) (k : TcSt) (x : CkoSt) : Bool :=
  decide (t < x.tail) ||
  (x.running && match x.periodAt t k with
    | some j =>
      let f := x.fineAt t k
      decide (x.from_ ≤ k.riseT x.cfg f j) && decide (k.riseT x.cfg f j ≤ t) && decide (t < k.fallT x.cfg f j)
    | none => false)

/-- The end of the high phase in which an output stands, 0 where it is low (R351). -/
def CkoSt.tailAt (t : Nat) (k : TcSt) (x : CkoSt) : Nat :=
  if !x.high t k then 0
  else if t < x.tail then x.tail
  else match x.periodAt t k with
    | some j => k.fallT x.cfg (x.fineAt t k) j
    | none => 0

/-- New settings of a clock output at an instant, glitch-free (R351); `old` and `new` are the channels of the old and the new grid. -/
def CkoSt.configure (t : Nat) (tag : Nat) (c : CkoCfg) (old : TcSt) (x : CkoSt) : CkoSt :=
  let y : CkoSt := { x with owner := some tag, cfg := c, running := c.enable == 1, tail := x.tailAt t old }
  let grid := x.cfg.divider == c.divider && x.cfg.coarseHalf == c.coarseHalf && x.cfg.tc == c.tc
  if c.enable = 0 then { y with fineFrom := c.fineQ }
  else if !x.running || !grid then { y with from_ := t + 400000, fineFrom := c.fineQ }
  else if x.cfg.drive != c.drive || x.cfg.tracePs != c.tracePs then { y with from_ := t + 10 * usQ, tail := 0, fineFrom := c.fineQ }
  else if x.cfg.fineQ != c.fineQ then { y with fineFrom := x.fineAt t old, fineT := t }
  else y

/-- A clock output that is disabled or released: the current high phase completes, then it stays low (R349, R351). -/
def CkoSt.stops (t : Nat) (k : TcSt) (x : CkoSt) : CkoSt := { tail := x.tailAt t k }

/-! ### Calibration of the output paths (R352) -/

/-- How many CKOs and FPOs there are. -/
def outputCount : Nat := 64 + 32

/-- The internal path of an output as its compensation has it at an instant: a correction moves by 0.25 ps every 10 ms (R352). -/
def Clock.outputPathQ (i t : Nat) (c : Clock) : Nat :=
  let r := c.outputs.getD i (0, 0)
  let n := (t - c.outCalT) / (10 * msQ)
  if r.2 ≤ r.1 then max r.2 (r.1 - n) else min r.2 (r.1 + n)

/-- Loop-back measures the internal path of every CKO and FPO (R352); `boot` takes the result at once. -/
def Clock.calibrateOutputs (boot : Bool) (c : Clock) : Clock :=
  { c with outputs := (List.range outputCount).map fun i =>
             let m := Config.outputPath c.outCals i
             (if boot then m else c.outputPathQ i c.now, m)
           outCalT := c.now, outCals := c.outCals + 1 }

/-! ### Frame-pulse outputs (R353, R354, R356) -/

/-- A pulse period in quarter ps at the set frequency. -/
def FpoCfg.periodQ (c : FpoCfg) : Nat := max 1 (secQ * c.rateDen / max 1 c.rateNum)

/-- k K_fp in the unit of `TcSt.phase` (R353). -/
def TcSt.pulseP (c : FpoCfg) (n : Nat) (x : TcSt) : Nat := ceilDiv (n * x.cfg.setFreqHz * c.rateDen * cycleP) (max 1 c.rateNum)

/-- What is left at an instant of a slew of the origin, quarter ps (R356). -/
def FpoSt.slewLeft (t : Nat) (k : TcSt) (x : FpoSt) : Int :=
  if !x.slewing then 0
  else
    let n : Int := (4 * k.sel.slewPsPerS * (t - x.slewT) / secQ : Nat)
    if 0 ≤ x.slewOff then max 0 (x.slewOff - n) else min 0 (x.slewOff + n)

/-- The instant of pulse `n` of an output's grid (R354, R356), none without a grid. -/
def FpoSt.pulseT (k : TcSt) (n : Nat) (x : FpoSt) : Option Nat :=
  x.gridP.map fun g =>
    let t := k.whenP (g + k.pulseP x.cfg n)
    ((t : Int) + x.slewLeft t k).toNat

/-- How far the free-wheeling position lies behind an anchor position, reduced into half a period either way (R356). -/
def FpoSt.gap (anchor : Int) (k : TcSt) (x : FpoSt) : Int :=
  let p : Int := x.cfg.periodQ
  let d := (((x.pulseT k x.nextK).getD 0 : Nat) : Int) - anchor
  (d + p / 2).emod p - p / 2

/-- The grid whose pulses stand at an instant and at whole periods from it; pulse 0 is the first that is not past. -/
def FpoSt.ground (t : Nat) (at_ : Int) (k : TcSt) (x : FpoSt) : FpoSt :=
  let p : Int := x.cfg.periodQ
  let n := ((t : Int) - at_ + p - 1) / p
  let c := (k.phaseAt t : Int) + 2048 * (at_ - t) * k.dcoScaled
  let g := c + n * k.cfg.setFreqHz * x.cfg.rateDen * cycleP / max 1 x.cfg.rateNum
  { x with gridP := some g.toNat, nextK := 0 }

/-- An ANCHORED output at a sample of its anchor while its channel tracks it: it aligns where R356 says so. -/
def FpoSt.sample (t : Nat) (k : TcSt) (rc : RefCfg) (jumped : Bool) (x : FpoSt) : FpoSt :=
  if x.anchored && !jumped then x
  else
    let pos : Int := (t : Int) - rc.tracePs + x.cfg.offsetQ
    let d := x.gap pos k
    let on : FpoSt := { x.ground t pos k with anchored := true, everAnchored := true, slewing := false, acceptAct := none }
    let slew : FpoSt := { on with slewing := true, slewOff := d, slewT := t }
    let act (a : Nat) : FpoSt := if a = 1 then slew else on
    if !x.everAnchored || x.gridP.isNone then on
    else if !jumped && decide (d.natAbs ≤ rc.jumpThresholdNs * 4000) then slew
    else if k.sel.jumpPolicy = 2 then (match x.acceptAct with | some a => act a | none => x)
    else act k.sel.jumpPolicy

/-- Whether the pulse of the grid at this instant is suppressed: before a pending realignment (R355), or over the last one (R356). -/
def FpoSt.suppressed (now nowU : Nat) (x : FpoSt) : Bool :=
  (match x.pendingU with | some u => decide (nowU < u) && decide (u < nowU + 65536 * (x.cfg.widthNs + 100)) | none => false)
  || (match x.lastT with | some w => decide (now < w + 4000 * x.cfg.widthNs) | none => false)

end Sys2Proof.Machine
end

