-- ==== Sys2Proof/Machine/Sys.lean ====
section
/-! DEFINITION. The SYS. family but for SYS.WAKE: identity, ping, the lease, network settings, fabric settings, counters. -/
namespace Sys2Proof.Machine
open Sys2Proof

/-! ### SYS.INFO, SYS.PING, SYS.COUNTERS (R436) -/

/-- Version of a component's active image (R466, R485). -/
def Dev.activeVersion (k : Nat) (v : Dev) : Nat :=
  let c := smGet ({} : CompSt) k v.fw.comps
  c.version.getD c.active 0

/-- The fused serial number, 16 bytes (R436). -/
def serialBytes : List Byte := sliceB Config.serial 0 16
/-- The fused MAC address, 6 bytes (R400). -/
def macBytes : List Byte := toBE 6 Config.mac

/-- SYS.INFO's record (R436). -/
def infoRecord (v : Dev) : List Byte :=
  toBE 4 0x5120 ++ toBE 1 0xA1 ++ toBE 1 v.devState ++ toBE 2 v.daond.net.cfg.deviceNumber ++ timeBytes v.nowU ++
  toBE 8 ((v.clk.now - v.clk.riseT) / msQ) ++ [1, 2, 3, 4, 5].flatMap (fun k => toBE 4 (v.activeVersion k)) ++
  serialBytes ++ macBytes ++ zeros 2

/-- SYS.INFO (R436, R442). -/
def sysInfoRow : OpRow :=
  { code := 0x0101, core := .c, lease := fun _ => false, changes := fun _ => false, lenOk := fun p => p.length == 0, asleep := true, repair := true }
/-- The work of SYS.INFO. -/
def sysInfoEff : Effect := fun _ s => (s, .ok (infoRecord s.dev))
/-- SYS_INFO (R436). -/
def execSysInfo (t : Nat) (d : Datagram) (s : State) : Result := .next (serve sysInfoRow (.sysInfo t d) t d sysInfoEff s)

/-- SYS.PING (R436, R442). -/
def sysPingRow : OpRow :=
  { code := 0x0102, core := .c, lease := fun _ => false, changes := fun _ => false, lenOk := len8, asleep := true, repair := true }
/-- The work of SYS.PING: the echo value, then the time. -/
def sysPingEff : Effect := fun d s => (s, .ok (d.params ++ timeBytes s.dev.nowU))
/-- SYS_PING (R436). -/
def execSysPing (t : Nat) (d : Datagram) (s : State) : Result := .next (serve sysPingRow (.sysPing t d) t d sysPingEff s)

/-- SYS.COUNTERS (R435, R436). -/
def sysCountersRow : OpRow := { queryRow 0x0107 true true with repair := true }
/-- The ten counters of R436. -/
def countersRecord (v : Dev) : List Byte :=
  let c := v.daond
  [c.rxFrames, c.rxDropped, c.rxOverflow, c.commands, c.retransmitsServed, c.staleSequences, c.busyReplies, c.fcsErrors,
   c.fecCorrected, c.fecUncorrected].flatMap (fun x => toBE 8 x.toNat)
/-- A clear of the ten counters. -/
def countersClear (v : Dev) : Dev :=
  { v with daond := { v.daond with rxFrames := 0, rxDropped := 0, rxOverflow := 0, commands := 0, retransmitsServed := 0, staleSequences := 0, busyReplies := 0, fcsErrors := 0, fecCorrected := 0, fecUncorrected := 0 } }
/-- The work of SYS.COUNTERS. -/
def sysCountersEff : Effect := query 1 80 false (fun _ v => countersRecord v) (fun _ v => countersClear v)
/-- SYS_COUNTERS (R436). -/
def execSysCounters (t : Nat) (d : Datagram) (s : State) : Result :=
  .next (serve sysCountersRow (.sysCounters t d) t d sysCountersEff s)

/-! ### The lease (R416 to R418) -/

/-- The tag of a new lease: in 1 to 0xFFFE, none of the last 16 issued (R417). -/
def pickTag (draw : Nat) (old : List Nat) : Nat :=
  let b := Config.leaseTag draw % 0xFFFE
  ((List.range 17).map (fun k => (b + k) % 0xFFFE + 1)).find? (fun x => !old.contains x) |>.getD 1

/-- The end of the lease (R418): its transactions, its sequence record and its cache go, admitted commits stay.
`why`: 1 released, 2 timed out, 3 replaced (R451). -/
def Dev.endLease (why : Nat) (v : Dev) : Dev :=
  match v.daond.lease with
  | some l => { v with daond := { v.daond with lease := none, open_ := none, prepared := [] } }.raise evLease (why * 65536 + l.tag)
  | none => v

/-- The grant of the lease under a new tag (R412, R417). -/
def Dev.grantLease (addr port timeout : Nat) (seq : U32) (v : Dev) : Dev :=
  let tag := pickTag v.daond.tagDraws v.daond.oldTags
  { v with daond := { v.daond with
      lease := some { tag := tag, addr := addr, port := port, timeoutS := timeout, restartedAt := v.clk.now, newest := seq, running := [seq] }
      oldTags := (tag :: v.daond.oldTags).take 16
      tagDraws := v.daond.tagDraws + 1 } }.raise evLease tag

/-- The record that SYS.LEASE answers (R416). -/
def leaseRecord (v : Dev) : List Byte :=
  match v.daond.lease with
  | some l => toBE 2 l.tag ++ toBE 2 l.timeoutS ++ toBE 4 ((l.restartedAt + secQ * l.timeoutS - v.clk.now) / msQ) ++ toBE 16 l.addr ++ toBE 2 l.port ++ zeros 2
  | none => zeros 28

/-- Field rules of SYS.LEASE (R416): timeout_s 1-60 or 0 where `timed`, else zero; the reserved fields zero. -/
def leaseBad (timed : Bool) (p : List Byte) : Option Nat :=
  firstBad [⟨1, 1, .reserved, []⟩, if timed then ⟨2, 2, .unsigned, [(0, 60)]⟩ else ⟨2, 2, .reserved, []⟩, ⟨4, 4, .reserved, []⟩] p

/-- The row of SYS.LEASE with a given op (R416, R442). -/
def leaseRow (op : Byte) (needs : Bool) : OpRow :=
  { code := 0x0103, core := .c, fix := [(0, op)], codes := 4, lease := fun _ => needs, changes := fun _ => op != 3, lenOk := len8, asleep := true, repair := true, acquires := op == 0 }

/-- SYS.LEASE acquire. -/
def sysLeaseAcquireRow : OpRow := leaseRow 0 false
/-- The work of an acquire (R417). -/
def sysLeaseAcquireEff : Effect := fun d s =>
  match leaseBad true d.params with
  | some o => (s, .fail (badField o))
  | none =>
    if d.leaseTag != 0 then (s, .fail { status := .badParam, check := 1 })
    else
      let n := fieldU d.params 2 2
      let timeout := if n = 0 then 5 else n
      match s.dev.daond.lease with
      | some l =>
        if l.addr == d.addr && l.port == d.port then
          let s := s.onDev (fun v => (v.endLease 3).grantLease d.addr d.port timeout d.sequence)
          (s, .ok (leaseRecord s.dev))
        else (s, .fail (busyWith 16 l.tag))
      | none =>
        let s := s.onDev (fun v => v.grantLease d.addr d.port timeout d.sequence)
        (s, .ok (leaseRecord s.dev))
/-- SYS_LEASE_ACQUIRE (R417). -/
def execSysLeaseAcquire (t : Nat) (d : Datagram) (s : State) : Result :=
  .next (serve sysLeaseAcquireRow (.sysLeaseAcquire t d) t d sysLeaseAcquireEff s)

/-- SYS.LEASE renew. -/
def sysLeaseRenewRow : OpRow := leaseRow 1 true
/-- The work of a renew: timeout_s applies, 0 for no change (R416, R417). -/
def sysLeaseRenewEff : Effect := fun d s =>
  match leaseBad true d.params with
  | some o => (s, .fail (badField o))
  | none =>
    let n := fieldU d.params 2 2
    let s := s.onDev fun v =>
      { v with daond := { v.daond with lease := v.daond.lease.map (fun l =>
          { l with restartedAt := v.clk.now, timeoutS := if n = 0 then l.timeoutS else n }) } }
    (s, .ok (leaseRecord s.dev))
/-- SYS_LEASE_RENEW (R417). -/
def execSysLeaseRenew (t : Nat) (d : Datagram) (s : State) : Result :=
  .next (serve sysLeaseRenewRow (.sysLeaseRenew t d) t d sysLeaseRenewEff s)

/-- SYS.LEASE release. -/
def sysLeaseReleaseRow : OpRow := leaseRow 2 true
/-- The work of a release (R418). -/
def sysLeaseReleaseEff : Effect := fun d s =>
  match leaseBad false d.params with
  | some o => (s, .fail (badField o))
  | none => (s.onDev (Dev.endLease 1), .ok [])
/-- SYS_LEASE_RELEASE (R418). -/
def execSysLeaseRelease (t : Nat) (d : Datagram) (s : State) : Result :=
  .next (serve sysLeaseReleaseRow (.sysLeaseRelease t d) t d sysLeaseReleaseEff s)

/-- SYS.LEASE read. -/
def sysLeaseReadRow : OpRow := leaseRow 3 false
/-- The work of a read (R416). -/
def sysLeaseReadEff : Effect := fun d s =>
  match leaseBad false d.params with
  | some o => (s, .fail (badField o))
  | none => (s, .ok (leaseRecord s.dev))
/-- SYS_LEASE_READ (R416). -/
def execSysLeaseRead (t : Nat) (d : Datagram) (s : State) : Result :=
  .next (serve sysLeaseReadRow (.sysLeaseRead t d) t d sysLeaseReadEff s)

/-- LEASE_TIMEOUT (R417): the lease ends when timeout_s have passed without a command under it; the timer pauses while CORE.C restarts. -/
def execLeaseTimeout (t : Nat) (s : State) : Result :=
  .next (match s.dev.daond.lease with
    | some l => if s.dev.coreUp .c then s.due (l.restartedAt + secQ * l.timeoutS) t (State.onDev (Dev.endLease 2)) else s.arrive t
    | none => s.arrive t)

/-! ### Network settings (R406) -/

/-- Field rules of SYS.NET that hang together: a static address needs its prefix (DEDUCED, log entry 20). -/
def netBad (p : List Byte) : Option Nat :=
  match firstBad netCfgFields p with
  | some o => some o
  | none =>
    let m := fieldU p 1 1
    if bit m 0 && !bit m 1 && !(1 ≤ fieldU p 12 1 && fieldU p 12 1 ≤ 30) then some 12
    else if bit m 2 && !bit m 3 && !(1 ≤ fieldU p 40 1 && fieldU p 40 1 ≤ 128) then some 40
    else none

/-- An IPv4 address in use, with EV.SYS.NET at a change (R406, R451). -/
def Dev.setIpv4 (a : Nat) (v : Dev) : Dev :=
  let v' := { v with daond := { v.daond with net := { v.daond.net with ipv4InUse := a } } }
  if a = v.daond.net.ipv4InUse then v' else v'.raise evNet 0

/-- An IPv6 address in use, with EV.SYS.NET at a change. -/
def Dev.setIpv6 (a : Nat) (v : Dev) : Dev :=
  let v' := { v with daond := { v.daond with net := { v.daond.net with ipv6InUse := a } } }
  if a = v.daond.net.ipv6InUse then v' else v'.raise evNet 1

/-- Network settings come into force: static addresses at once, others asked for; membership reports for the groups (R402, R406). -/
def Dev.netApply (n : NetCfg) (v : Dev) : Dev :=
  let v := { v with daond := { v.daond with net := { v.daond.net with cfg := n } } }
  let v := if !bit n.ipMode 0 then v.setIpv4 0 else if bit n.ipMode 1 then v.emit (.service 2 0 []) else v.setIpv4 n.ipv4Addr
  let v := if !bit n.ipMode 2 then v.setIpv6 0 else if bit n.ipMode 3 then v.emit (.service 3 0 []) else v.setIpv6 n.ipv6Addr
  let v := if n.ipv4Group = 0 then v else v.emit (.service 5 n.ipv4Group [])
  if n.ipv6Group = 0 then v else v.emit (.service 6 n.ipv6Group [])

/-- A change to a section of the settings store makes the store pending (R489). -/
def Dev.changeSettings (f : Sections → Sections) (v : Dev) : Dev :=
  { v with settings := { v.settings with live := f v.settings.live, pending := true } }

/-- SYS.NET set. -/
def sysNetSetRow : OpRow :=
  { code := 0x0104, core := .c, fix := [(0, 0)], codes := 2, lenOk := fun p => p.length == 72, asleep := true, repair := true, trial := true, stores := true }
/-- The work of a set: the settings go to the settings store and come into force (R406). -/
def sysNetSetEff : Effect := fun d s =>
  match netBad d.params with
  | some o => (s, .fail (badField o))
  | none =>
    let n := readNetCfg d.params 0
    (s.onDev fun v => (v.changeSettings fun x => { x with network := n }).netApply n, .ok [])
/-- SYS_NET_SET (R406). -/
def execSysNetSet (t : Nat) (d : Datagram) (s : State) : Result := .next (serve sysNetSetRow (.sysNetSet t d) t d sysNetSetEff s)

/-- The record of a SYS.NET read: the settings with the addresses in use and the MAC address (R406). -/
def netRecord (v : Dev) : List Byte :=
  let n := v.daond.net
  let p := writeNetCfg { n.cfg with op := 1, ipv4Addr := n.ipv4InUse, ipv6Addr := n.ipv6InUse }
  p.take 64 ++ macBytes ++ zeros 2

/-- SYS.NET read. -/
def sysNetReadRow : OpRow :=
  { code := 0x0104, core := .c, fix := [(0, 1)], codes := 2, lease := fun _ => false, changes := fun _ => false, lenOk := fun p => p.length == 72, asleep := true, repair := true }
/-- The work of a read. Only its op is used; a reserved field must be zero (R7). -/
def sysNetReadEff : Effect := fun d s =>
  match firstBad [⟨7, 1, .reserved, []⟩, ⟨13, 3, .reserved, []⟩, ⟨41, 7, .reserved, []⟩, ⟨70, 2, .reserved, []⟩] d.params with
  | some o => (s, .fail (badField o))
  | none => (s, .ok (netRecord s.dev))
/-- SYS_NET_READ (R406). -/
def execSysNetRead (t : Nat) (d : Datagram) (s : State) : Result := .next (serve sysNetReadRow (.sysNetRead t d) t d sysNetReadEff s)

/-! ### Ethernet happenings (R399 to R404, R444, R451) -/

/-- Whether the device's Ethernet side runs. -/
def Dev.alive (v : Dev) : Bool := v.pow.phase != .reset && !v.fw.dead

/-- ETHERNET_FRAME_DISCARDED (R403, R408): counted; a bad FCS counts in fcs_errors, every other in rx_dropped. -/
def execEthernetFrameDiscarded (t : Nat) (cause : DropCause) (s : State) : Result :=
  .next ((s.arrive t).onDev fun v =>
    if !v.alive then v
    else match cause with
      | .fcs => { v with daond := { v.daond with fcsErrors := v.daond.fcsErrors + 1 } }
      | _ => { v with daond := { v.daond with rxFrames := v.daond.rxFrames + 1, rxDropped := v.daond.rxDropped + 1 } })

/-- RX_OVERFLOW (R444): a datagram that meets a full receive queue. -/
def execRxOverflow (t : Nat) (s : State) : Result :=
  .next ((s.arrive t).onDev fun v =>
    if !v.alive then v else { v with daond := { v.daond with rxOverflow := v.daond.rxOverflow + 1 } })

/-- The link-local address by modified EUI-64 (R402). -/
def linkLocal : Nat :=
  let m := Config.mac % 2 ^ 48
  let hi := (m / 2 ^ 24) ^^^ 0x020000
  0xFE80 * 2 ^ 112 + hi * 2 ^ 40 + 0xFFFE * 2 ^ 24 + m % 2 ^ 24

/-- CORE.C takes up the frame of a service (R402, R403). -/
def Dev.serviceIn (f : ServiceFrame) (v : Dev) : Dev :=
  let v := v.countRx
  let n := v.daond.net
  match f with
  | .arpRequest a => if a = n.ipv4InUse && bit n.cfg.ipMode 0 then v.emit (.service 0 a []) else v
  | .neighborSolicit a => if a = linkLocal || (a = n.ipv6InUse && bit n.cfg.ipMode 2) then v.emit (.service 1 a []) else v
  | .dhcpAck a => if bit n.cfg.ipMode 0 && bit n.cfg.ipMode 1 then v.setIpv4 a else v
  | .routerAdvert p => if bit n.cfg.ipMode 2 && bit n.cfg.ipMode 3 then v.setIpv6 (p * 2 ^ 64 + linkLocal % 2 ^ 64) else v
  | .echoRequest v6 data => v.emit (.service 4 (if v6 then 6 else 4) data)
  | .igmpQuery => if n.cfg.ipv4Group = 0 then v else v.emit (.service 5 n.cfg.ipv4Group [])
  | .mldQuery => if n.cfg.ipv6Group = 0 then v else v.emit (.service 6 n.cfg.ipv6Group [])

/-- SERVICE_FRAME (R402). Services run on CORE.C: while it restarts their frames wait in the receive queue (R446; DEDUCED, log entry 20). -/
def execServiceFrame (t : Nat) (f : ServiceFrame) (s : State) : Result :=
  .next ((s.arrive t).onDev fun v =>
    if !v.alive then v else if !v.coreUp .c then v.queueRx (.serviceFrame t f) else v.serviceIn f)

/-- The Ethernet link goes down, with its event (R451). -/
def Dev.linkDown (v : Dev) : Dev :=
  { v with daond := { v.daond with net := { v.daond.net with linkUp := false } } }.raiseIf v.daond.net.linkUp evLink 0

/-- ETHERNET_LINK_CHANGE (R451): EV.SYS.LINK at each change. -/
def execEthernetLinkChange (t : Nat) (up : Bool) (s : State) : Result :=
  .next ((s.arrive t).onDev fun v =>
    if !v.alive then v
    else
      let old := v.daond.net.linkUp
      { v with daond := { v.daond with net := { v.daond.net with linkUp := up } }
               pow := { v.pow with ethRef := v.pow.ethRef || up } }.raiseIf (old != up) evLink (b01 up))

/-- A datagram with an opcode that R442 does not list, taken up by CORE.C: ST_UNKNOWN_OPCODE after the header checks, before the
lease and the sequence (R411 step 4). -/
def Dev.unknownArrives (opcode : Nat) (d : Datagram) (v : Dev) : Dev :=
  let v := v.countRx
  if !isCommand d v then v.dropRx else v.refuse opcode d ((headerCheck opcode d).getD { status := .unknownOpcode, opIndex := 0xFFFF })

/-- UNKNOWN_OPCODE (R411 step 4, R442). -/
def execUnknownOpcode (t : Nat) (opcode : Nat) (d : Datagram) (s : State) : Result :=
  .next ((s.arrive t).onDev fun v =>
    if !v.alive then v else if !v.coreUp .c then v.queueRx (.unknownOpcode t opcode d) else v.unknownArrives opcode d)

end Sys2Proof.Machine
end

