-- ==== Sys2Proof/Machine/Servo.lean ====
section
/-! DEFINITION. Device time: epochs and scheduled steps (R29, R32, R364), the servo (R361, R362), the PTP time receiver (R360). -/
namespace Sys2Proof.Machine
open Sys2Proof

/-! ### The generator (R29, R32) -/

/-- Quarter picoseconds in an epoch of 1,024 ns. -/
def epochQ : Nat := 4096000

/-- The device-time base moves to the present instant, so that a new rate word acts from here; nothing of the time is lost. -/
def Clock.rebase (c : Clock) : Clock :=
  let f := ((c.baseF : Int) + ((c.now : Int) - c.baseT) * (65536000000 + c.rate)) % 65536000000
  { c with baseQ := c.devQ c.now, baseF := f.toNat, baseT := c.now }

/-- The first epoch boundary at least 2 ms of device time later, in quarter ps (R361, R363). -/
def Dev.stepBoundary (v : Dev) : Nat := ceilDiv (2 * msQ + v.nowQ) epochQ * epochQ

/-- A signed number of 2^-16 ns rounded to whole ns and held within s32. -/
def nsSat (e : Int) : Int := clip ((e + 32768) / 65536) (-2147483648) 2147483647

/-- A step of device time by `dq` quarter ps is scheduled; it replaces one that waits (R32, R361, R363). -/
def Dev.scheduleStep (boundary : Nat) (dq : Int) (v : Dev) : Dev :=
  { v with clk := { v.clk with step := some (boundary, dq) } }.raise evTimeStep (sBits 64 ((2 * dq + 4000) / 8000))

/-- The servo state changes, with EV.SYS.TIME_SERVO (R451). -/
def Dev.setServo (x : ServoState) (v : Dev) : Dev :=
  { v with clk := { v.clk with servo := x } }.raiseIf (v.clk.servo != x) evServo x.code

/-- Pending realignments that a step from `old` to `new` passes are missed, reported in one event (R364). -/
def Dev.missRealigns (p : Nat → Bool) (v : Dev) : Dev :=
  let hit (e : Nat × FpoSt) : Bool := match e.2.pendingU with | some u => p u | none => false
  let gone := (v.fpos.filter hit).map (·.1)
  if gone.isEmpty then v
  else
    let v := gone.foldl (fun v n => v.modFpo n fun x => { x with pendingU := none }) v
    v.raise evFpRealign (2 ^ 32 + (gone.map (fun n => 2 ^ n)).sum)

/-- What a step by `dq` does to labels that later instants are measured against: the raster instants of heads move with device time, their
raster does not (R252); no interval between frame starts is checked across it, and the start that a FOLLOW head measures from moves with it
(R140, R262). -/
def Dev.stepLabels (dq : Int) (v : Dev) : Dev :=
  let move (q : Nat) : Nat := ((q : Int) + dq).toNat
  { v with
    ingress := smMap (fun x : IngressSt =>
        { x with lastStart := x.lastStart.map move, stepped := true, lastOkStart := if x.frame.isNone then none else x.lastOkStart
                 frame := x.frame.map fun f => { f with stepped := true } }) v.ingress
    heads := smMap (fun x : HeadSt => { x with midnightQ := move x.midnightQ, activeQ := move x.activeQ }) v.heads
    tcs := smMap (fun x : TcSt => { x with binQ := move x.binQ }) v.tcs }

/-- A scheduled step is applied at its epoch boundary (R32, R364). -/
def Dev.applyStep (v : Dev) : Dev :=
  match v.clk.step with
  | some (b, dq) =>
    if v.nowQ < b then v
    else
      let old := v.nowU
      let c := v.clk.rebase
      let v := { v with clk := { c with baseQ := ((c.baseQ : Int) + dq).toNat, step := none, steps := c.steps + 1 } }
      (v.stepLabels dq).missRealigns fun u => decide (old < u) && decide (u < v.nowU)
  | none => v

/-- What the master sends at an epoch boundary (R29, R32): the rate word of the coming epoch, and a step due there. -/
def Dev.epochStarts (v : Dev) : Dev :=
  if !v.mediaOn then v
  else
    let v := ({ v with clk := { v.clk.rebase with rate := v.clk.rateAdj } } : Dev).applyStep
    { v with clk := { v.clk with epoch := v.nowQ / epochQ } }

/-- Device time of the next epoch boundary to be sent; of boundaries that have passed without one, the last. -/
def Dev.nextEpochQ (v : Dev) : Nat := max (v.clk.epoch + 1) (v.nowQ / epochQ) * epochQ

/-- EPOCH_BOUNDARY (R29, R32): at a device time that is a multiple of 1,024 ns. Where the boundary of a scheduled step comes before `t` too,
it follows. -/
def execEpochBoundary (t : Nat) (s : State) : Result :=
  let s := s.due (s.dev.clk.instantOf s.dev.nextEpochQ) t (State.onDev Dev.epochStarts)
  .next (match s.dev.clk.step with
    | some (b, _) => if s.dev.clk.instantOf b ≤ t && decide (s.dev.nowQ < b) then s.due (s.dev.clk.instantOf b) t (State.onDev Dev.epochStarts) else s
    | none => s)

/-! ### Replicas (R30, R31) -/

/-- How many replicas R30 lists. -/
def replicaCount : Nat := 8 + 16 + 16 + 32 + 4 + 1 + 1

/-- The calibrated path delay of a replica at an instant: a correction is a rate change spread over one epoch (R31). -/
def Clock.pathDelayQ (i t : Nat) (c : Clock) : Int :=
  let r := c.replicas.getD i (0, 0)
  (r.1 : Int) + ((r.2 : Int) - r.1) * (min (t - c.corrT) epochQ : Nat) / epochQ

/-- Device time at a replica: it loads a boundary's value at the arrival of the marker, less its calibrated path delay (R29). -/
def Clock.replicaQ (i t : Nat) (c : Clock) : Int := (c.devQ t : Int) + c.pathDelayQ i t - (c.replicas.getD i (0, 0)).2

/-- Loop-back measures every path delay (R31). -/
def Clock.measureDelays (c : Clock) : List Nat := (List.range replicaCount).map fun i => Config.pathDelay c.calibrations i

/-- The calibration of boot: before any replica reports device time (R31). -/
def Clock.calibrate (c : Clock) : Clock :=
  { c with replicas := c.measureDelays.map (fun d => (d, d)), calibrations := c.calibrations + 1, calT := c.now, corrT := c.now }

/-- The recalibration by CORE.T: the corrections are spread over the epoch that comes, and step nothing (R31). -/
def Dev.recalibrate (v : Dev) : Dev :=
  let c := v.clk
  let from_ := (List.range replicaCount).map fun i => (c.pathDelayQ i c.now).toNat
  { v with clk := { c with replicas := from_.zip c.measureDelays, calibrations := c.calibrations + 1, calT := c.now,
                           corrT := c.instantOf ((v.nowQ / epochQ + 1) * epochQ) } }

/-- REPLICA_RECALIBRATION (R31): every 10 s. -/
def execReplicaRecalibration (t : Nat) (s : State) : Result :=
  .next (s.due (s.dev.clk.calT + 10 * secQ) t (State.onDev fun v => if v.mediaOn && v.coreUp .t then v.recalibrate else v))

/-! ### The servo (R361, R362) -/

/-- The rate word the servo computes for a measurement: the spec gives its bandwidth and its bound, not its formula (log entry 5).
Within slew_max_ppb of OSC's nominal rate. -/
def Dev.servoRate (v : Dev) : Int :=
  let m := if v.clk.cfg.slewMaxPpb = 0 then 10000 else v.clk.cfg.slewMaxPpb
  let lim : Int := (m * 65536 / 1000 : Nat)
  clip (Config.freeInt v.clk.servoDraws) (-lim) lim

/-- Runs of measurements and the state they lead to (R361): LOCKED after 16 within 100 ns, ACQUIRING after 4 above 1 us. -/
def Dev.servoRuns (x : Int) (v : Dev) : Dev :=
  let small := decide (x.natAbs ≤ 100 * nsU)
  let large := decide (x.natAbs > 1000 * nsU)
  let g := if small then v.clk.goodRun + 1 else 0
  let b := if large then v.clk.badRun + 1 else 0
  let v := { v with clk := { v.clk with goodRun := g, badRun := b } }
  match v.clk.servo with
  | .locked => if b ≥ 4 then v.setServo .acquiring else v
  | .holdover => v.setServo (if g ≥ 16 then .locked else .acquiring)
  | _ => v.setServo (if g ≥ 16 then .locked else .acquiring)

/-- A measurement with offset `x` in 2^-16 ns (R361). CORE.T takes it. -/
def Dev.measure (x : Int) (v : Dev) : Dev :=
  if v.clk.cfg.source = 0 || !v.coreUp .t || v.clk.step.isSome then v
  else
    let thr := nsU * v.clk.cfg.stepThresholdNs
    let jump := !v.clk.firstDone || (thr != 0 && decide (x.natAbs > thr))
    let v := { v with clk := { v.clk with lastOffset := x, firstDone := true } }
    if jump then
      let dq : Int := -((x * 1000 + 8192) / 16384)
      let v := { v with clk := { v.clk with goodRun := 0, badRun := 0, servoOut := [] } }
      (v.scheduleStep v.stepBoundary dq).setServo .acquiring
    else
      let r := v.servoRate
      let v := { v with clk := { v.clk with
        rateAdj := r, servoDraws := v.clk.servoDraws + 1
        servoOut := (v.clk.now, r) :: v.clk.servoOut.filter (fun e => decide (v.clk.now ≤ 60 * secQ + e.1)) } }
      v.servoRuns x

/-- Device time enters HOLDOVER: the rate word is frozen at the mean of the last 60 s of servo output (R362). -/
def Dev.timeHoldover (v : Dev) : Dev :=
  if v.clk.servo == .free || v.clk.servo == .holdover then v
  else
    let out := (v.clk.servoOut.filter (fun e => decide (v.clk.now ≤ 60 * secQ + e.1))).map (·.2)
    let m := if out.isEmpty then v.clk.rateAdj else out.sum / (out.length : Nat)
    { v with clk := { v.clk with rateAdj := m, goodRun := 0, badRun := 0 } }.setServo .holdover

/-! ### The PTP time receiver (R360) -/

/-- The chosen time transmitter changes, with EV.SYS.PTP. -/
def Dev.setPtp (id rank : Nat) (v : Dev) : Dev :=
  { v with clk := { v.clk with txClockId := id, ptpBest := rank, ptpReceiver := id != 0 } }.raiseIf (v.clk.txClockId != id) evPtp id

end Sys2Proof.Machine
end

