-- ==== Sys2Proof/Machine/Refs.lean ====
section
/-! DEFINITION. References and selection: the monitors (R313 to R315), the jump detector (R316, R317), the selector of each timing
channel (R321 to R325), holdover (R329 to R333), jumps (R334 to R336), and the alignment of ANCHORED frame pulses (R356). -/
namespace Sys2Proof.Machine
open Sys2Proof

/-! ### References -/

/-- Nominal frequency of a reference as a fraction (R309, R310, R344). -/
def Dev.nominal (r : Nat) (v : Dev) : Nat × Nat :=
  let c := (v.ref r).cfg
  match c.type with
  | 0 | 1 => (c.nominalNum, max 1 c.nominalDen)
  | 4 =>
    match smFind c.lrcStream v.cfg.ingress with
    | some g => (g.expected.hTotal * g.expected.vTotal * g.expected.rateNum, max 1 g.expected.rateDen)
    | none => (1, 1)
  | _ => (1, 1)

/-- Whether a reference is pulse-type: T-FP, T-PPS or T-PTP (R308). -/
def Dev.pulseType (r : Nat) (v : Dev) : Bool := let c := (v.ref r).cfg; c.type == 1 || c.type == 2 || c.type == 3

/-- A number of nominal periods of a reference, in quarter ps, rounded up (R313). -/
def Dev.periodsQ (r n : Nat) (v : Dev) : Nat := ceilDiv (n * secQ * (v.nominal r).2) (max 1 (v.nominal r).1)

/-! ### Build-out and slews (R334, R336) -/

/-- Whether the second in progress may still give a valid bin (R329): TRACKING, locked, and no slew of R334. -/
def TcSt.steady (x : TcSt) : Bool := x.state == .tracking && x.locked && (!x.following || x.realign)

/-- A timing channel changes. Its history second stays valid only while it is steady (R329), and an output anchored on a reference
that is no longer its active one free-wheels (R356). -/
def Dev.putTc (k : Nat) (x : TcSt) (v : Dev) : Dev :=
  let v := v.setTc k { x with binOk := x.binOk && x.steady }
  { v with fpos := v.fpos.map fun e =>
      if e.2.anchored && e.2.cfg.tc == k && !(x.state == .tracking && x.active == some e.2.cfg.anchorRef)
      then (e.1, { e.2 with anchored := false, slewing := false }) else e }

/-- The detail of EV.TC.JUMP (R450). -/
def jumpDetail (delta : Int) (code : Nat) : Nat := sBits 32 (nsSat delta) * 2 ^ 32 + code

/-- A slew ends where it stands, with EV.TC.JUMP (R336, R339, R340). -/
def Dev.stopSlew (k : Nat) (v : Dev) : Dev :=
  let x := v.tc k
  if !x.following then v
  else (v.putTc k { x.rebase v.clk.now with following := false, realign := false }).raise (srcTc k 3) (jumpDetail 0 5)

/-- A timing channel with its build-out slewing from where it stands to `b`. -/
def TcSt.slew (t : Nat) (b : Int) (x : TcSt) : TcSt :=
  let x := x.rebase t
  { x with following := true, slewTo := b }

/-! ### Lock (R346) -/

/-- The lock state changes, with EV.TC.LOCK. -/
def Dev.setLocked (k : Nat) (b : Bool) (v : Dev) : Dev :=
  let x := v.tc k
  if x.locked = b then v.putTc k { x with lockGood := 0, lockBad := 0 }
  else
    (v.putTc k { x with locked := b, lockGood := 0, lockBad := 0, lockChangeU := v.nowU,
                        lockLosses := if b then x.lockLosses else satInc x.lockLosses }).raise (srcTc k 0) (b01 b)

/-! ### Holdover frequency (R330) -/

/-- A mean rounded to the nearest, halves up. -/
def roundMean (xs : List Int) : Int := (2 * xs.sum + (xs.length : Nat)) / (2 * max 1 xs.length : Nat)

/-- R330 for a disqualification at instant `td`; bins older than a sleep that began at `sleep` count for step 3 only (R333). -/
def TcSt.holdFreq (td guardS sleep : Nat) (stored : Option Int) (x : TcSt) : Int :=
  let valid := x.bins.filter (fun b => b.2.1)
  let pick (p : Nat × Bool × Int → Bool) : List Int := ((valid.filter p).take x.sel.historyS).map (fun b => b.2.2)
  let first := pick fun b => decide (b.1 + secQ * guardS ≤ td) && decide (sleep ≤ b.1)
  if !first.isEmpty then roundMean first
  else
    let any := pick fun b => decide (b.1 ≤ td)
    if !any.isEmpty then roundMean any else stored.getD 0

/-- The holdover frequency of a timing channel for a disqualification at `td`. -/
def Dev.holdFreq (k td guardS : Nat) (v : Dev) : Int :=
  (v.tc k).holdFreq td guardS v.pow.sleepReqT (smFind k v.settings.live.tcFreq)

/-- The holdover frequency now, with the guard of the selection settings. -/
def Dev.holdNow (k : Nat) (v : Dev) : Int := v.holdFreq k v.clk.now (v.tc k).sel.guardS

/-! ### Selection (R321 to R325) -/

/-- R321: whether a reference is a candidate for a timing channel. -/
def Dev.candidate (k r : Nat) (v : Dev) : Bool :=
  let x := v.tc k
  let named := if x.sel.mode = 0 then x.sel.list.any (fun b => b.toNat == r) else x.sel.mode == 1 && x.sel.manualRef == r
  named && (v.ref r).state == .qualified && !(x.state == .jumpWait && x.heldRef == some r)

/-- The candidates, highest first (R323). -/
def Dev.ranked (k : Nat) (v : Dev) : List Nat :=
  let x := v.tc k
  (if x.sel.mode = 0 then x.sel.list.map (·.toNat) else if x.sel.mode = 1 then [x.sel.manualRef] else []).filter (fun r => v.candidate k r)

/-- R322: whether a reference's wait-to-restore has expired at a timing channel. -/
def Dev.restored (k r : Nat) (v : Dev) : Bool :=
  let x := v.tc k
  match smFind r x.wtr with
  | some t => decide (t + secQ * x.sel.wtrS ≤ v.clk.now)
  | none => false

/-- A timing channel enters HOLDOVER or JUMP_WAIT at the offset `off` (R331, R334, R346). -/
def Dev.toHold (k : Nat) (st : SelState) (held : Option Nat) (heldOut off : Int) (v : Dev) : Dev :=
  let v := v.stopSlew k
  let x := (v.tc k).rebase v.clk.now
  let v := v.putTc k { x with state := st, active := none, target := none, bridging := false, heldRef := held, heldOut := heldOut,
                              holdOffset := off, dcoOffset := off, holdSinceU := v.nowU, holdEntries := x.holdEntries + 1, accept := none,
                              lockBase := none, lockLast := none }
  (v.setLocked k false).raise (srcTc k 2) st.code

/-- A TRACKING channel enters HOLDOVER from its active reference. -/
def Dev.dropToHold (k guardS : Nat) (v : Dev) : Dev :=
  let x := v.tc k
  v.toHold k .holdover x.active (x.outAt v.clk.now) (v.holdFreq k v.clk.now guardS)

/-- FREERUN mode: the channel runs at its set frequency (R324). -/
def Dev.toFree (k : Nat) (v : Dev) : Dev :=
  let v := v.stopSlew k
  let x := (v.tc k).rebase v.clk.now
  let was := x.state == .holdover || x.state == .jumpWait
  let v := v.putTc k { x with state := .freerun, active := none, target := none, bridging := false, heldRef := none, dcoOffset := 0,
                              start := true, accept := none }
  (v.setLocked k false).raiseIf was (srcTc k 2) SelState.freerun.code

/-- EV.TC.SWITCH: 0 STARTED, 1 COMPLETED, 2 NO_TARGET, 3 ALIGNED. -/
def Dev.switchEvent (k code : Nat) (target from_ : Option Nat) (v : Dev) : Dev :=
  v.raise (srcTc k 1) (code * 65536 + target.getD 0xFF * 256 + from_.getD 0xFF)

/-- The measurement of a switch starts (R325 step 3, R328). -/
def TcSt.measures (t : Nat) (x : TcSt) : TcSt := { x with measT := t, meas := (0, 0, 0), closeT := none }

/-- R325 steps 1 and 2: a switch to a reference starts. A channel that bridges runs at its holdover frequency, one that comes from FREERUN
where it runs. -/
def Dev.startSwitch (k r : Nat) (accept : Option Nat) (v : Dev) : Dev :=
  let v := v.stopSlew k
  let x := ((v.tc k).rebase v.clk.now).measures v.clk.now
  let was := x.state == .tracking
  let bridge := was && x.active.any (fun a => v.candidate k a)
  let off := if was && !bridge then v.holdNow k else if x.state == .freerun then x.dcoOffset else x.holdOffset
  let hold := x.state == .holdover || x.state == .jumpWait
  let v := v.putTc k { x with state := .switching, target := some r, from_ := if was then x.active else none, bridging := bridge,
                              active := if bridge then x.active else none, holdOffset := off,
                              dcoOffset := if was && !bridge then off else x.dcoOffset, accept := accept }
  let v := if bridge then v else v.setLocked k false
  let v := v.raiseIf hold (srcTc k 2) SelState.switching.code
  v.switchEvent k 0 (some r) (if was then x.active else none)

/-- R323, R324: the decision of a timing channel. Without CORE.T the hardware still leaves a lost reference (R42). -/
def Dev.decideTc (k : Nat) (v : Dev) : Dev :=
  let x := v.tc k
  let lost := x.state == .tracking && !(x.active.any (fun a => v.candidate k a))
  if x.state == .switching then v
  else if !v.coreUp .t then
    let gone := x.state == .tracking && !(x.active.any (fun a => (v.ref a).state == .qualified))
    if gone then v.dropToHold k x.sel.guardS else v
  else if x.sel.mode = 2 then
    if x.state == .holdover then v
    else if x.state == .tracking then v.dropToHold k 0
    else v.toHold k .holdover x.heldRef x.heldOut (if x.state == .jumpWait then x.holdOffset else v.holdFreq k v.clk.now 0)
  else if x.sel.mode = 3 then (if x.state == .freerun then v else v.toFree k)
  else
    let cs := v.ranked k
    if x.state == .tracking && !lost then
      if x.sel.revertive = 1 then
        match (cs.takeWhile (fun r => x.active != some r)).find? (fun r => v.restored k r) with
        | some r => v.startSwitch k r none
        | none => v
      else v
    else match cs.head? with
      | some r => v.startSwitch k r none
      | none => if lost then v.dropToHold k x.sel.guardS else v

/-- Every timing channel decides. -/
def Dev.decideAll (v : Dev) : Dev := (List.range 8).foldl (fun v k => v.decideTc k) v

/-- Selection settings that arrived during a switch take effect at its end (R328). -/
def Dev.applyStored (k : Nat) (v : Dev) : Dev :=
  let x := v.tc k
  match x.stored with
  | some c => v.putTc k { x.rebase v.clk.now with sel := c, stored := none }
  | none => v

/-- A switch ends without its target: the bridge stays, then the channel decides (R328). -/
def Dev.noTarget (k : Nat) (v : Dev) : Dev :=
  let x := v.tc k
  let v := v.switchEvent k 2 x.target x.from_
  let v := if x.bridging then v.putTc k { x with state := .tracking, target := none, bridging := false, accept := none }
    else match x.from_ with
      | some a => v.toHold k .holdover (some a) x.buildOut x.holdOffset
      | none => v.toHold k .holdover x.heldRef x.heldOut x.holdOffset
  (v.applyStored k).decideTc k

/-- A reference has left QUALIFIED, seen from a timing channel (R315, R322, R328, R335). -/
def Dev.disqualify (r k : Nat) (v : Dev) : Dev :=
  let x := { v.tc k with wtr := smErase r (v.tc k).wtr }
  let v := v.setTc k x
  if x.state == .switching then
    if x.target = some r then v.noTarget k
    else if x.bridging && x.active == some r then
      let off := v.holdNow k
      (v.putTc k { x.rebase v.clk.now with bridging := false, active := none, holdOffset := off, dcoOffset := off }).setLocked k false
    else v
  else if x.state == .jumpWait && x.heldRef == some r then
    ((v.putTc k { x with state := .holdover }).raise (srcTc k 2) SelState.holdover.code).decideTc k
  else v.decideTc k

/-! ### Reference states (R315) -/

/-- A reference changes state, with EV.REF.STATE; timers start and stop and every channel decides (R315, R322, R323). -/
def Dev.refState (r : Nat) (st : RefState) (v : Dev) : Dev :=
  let x := v.ref r
  if x.state = st then v
  else
    let v := (v.setRef r { x with state := st, changeU := v.nowU }).raise (srcRef r 0) (st.code * 256 + r)
    if x.state == .qualified then (List.range 8).foldl (fun v k => v.disqualify r k) v
    else if st == .qualified then
      ((List.range 8).foldl (fun v k => v.modTc k fun y => { y with wtr := smPut r v.clk.now y.wtr }) v).decideAll
    else v.decideAll

/-- Whether a gate result lies within a limit in ppb; the result is in units of 2^-16 ppm (R314). -/
def within (offset : Int) (ppb : Nat) : Bool := decide (offset.natAbs * 1000 ≤ ppb * 65536)

/-- The frequency gate of R313, quarter ps. -/
def Dev.gateLenQ (r : Nat) (v : Dev) : Nat :=
  match (v.ref r).cfg.type with
  | 0 => 100 * msQ
  | 1 => max secQ (v.periodsQ r 4)
  | 4 => secQ
  | _ => 4 * secQ

/-- How long after the last sample activity is lost (R313); T-PTP by its Sync interval. -/
def Dev.activityQ (r : Nat) (v : Dev) : Nat :=
  match (v.ref r).cfg.type with
  | 0 => v.periodsQ r 4
  | 1 => v.periodsQ r 5 / 4
  | 2 => 5 * secQ / 4
  | 3 => 4 * v.clk.syncGap
  | _ => 2 * msQ

/-- A ratio as an offset from 1, in units of 2^-16 ppm, to the nearest (R314, R345). -/
def ppmOf (a b : Nat) : Int := ((2 * a * ppmOne + b) / (2 * max 1 b) : Nat) - (ppmOne : Int)

/-- The mean frequency between two samples as an offset from nominal, against OSC (R314). -/
def Dev.freqOffset (r : Nat) (a b : Nat × Nat) (v : Dev) : Int :=
  ppmOf ((b.2 - a.2) * (v.nominal r).2) ((b.1 - a.1) * (v.nominal r).1)

/-- What a gate measures between: the sample it began with, and the last (R314); none where no two instants lie apart, or activity was
lost in it (R313). -/
def RefSt.gateSpan (x : RefSt) : Option ((Nat × Nat) × (Nat × Nat)) :=
  match x.gateBase, x.samples.head? with
  | some a, some b => if !x.gateLost && decide (a.1 < b.1) && decide (a.2 < b.2) then some (a, b) else none
  | _, _ => none

/-- The frequency of a DCO that tracks a reference (R343), within its pull range. -/
def pullRange (offset : Int) : Int := clip offset (-65536000) 65536000

/-- A frequency gate's result (R314, R315, R338, R343). -/
def Dev.gateResult (r : Nat) (offset : Int) (v : Dev) : Dev :=
  let x := v.ref r
  let inA := within offset x.cfg.acceptPpb
  let out := !within offset x.cfg.rejectPpb
  let crossed := x.state == .qualified && inA != x.inAccept
  let starts := x.state == .outOfRange && inA
  let v := v.setRef r { x with gate := offset, inAccept := inA, rejects := if x.state == .qualified && out then satInc x.rejects else x.rejects,
                               qualSince := if starts then some v.clk.now else x.qualSince
                               qualTime := if starts then x.cfg.qualTimeMs else x.qualTime }
  let v := v.raiseIf crossed (srcRef r 1) (b01 (!inA) * 256 + r)
  let v := (List.range 8).foldl (fun v k =>
    let y := v.tc k
    if y.active == some r && (y.state == .tracking || y.bridging) then v.putTc k { y.rebase v.clk.now with dcoOffset := pullRange offset } else v) v
  match x.state with
  | .outOfRange => if inA then v.refState r .qualifying else v
  | .qualifying => if inA then v else v.refState r .outOfRange
  | _ => if out then v.refState r .outOfRange else v

/-- A frequency gate ends and the next begins (R313): it yields a result where it has one. -/
def Dev.gateEnd (r : Nat) (v : Dev) : Dev :=
  let x := v.ref r
  if x.state == .disabled then v
  else
    let quiet := x.state == .noActivity
    let v := v.setRef r { x with gateT := v.clk.now, gateLost := quiet, gateBase := if quiet then none else x.samples.head? }
    match x.gateSpan with
    | some q => if quiet then v else v.gateResult r (v.freqOffset r q.1 q.2)
    | none => v

/-- A reference loses activity (R313, R315); pps_ref leaving QUALIFIED puts device time into holdover (R362). -/
def Dev.loseActivity (r : Nat) (v : Dev) : Dev :=
  let x := v.ref r
  if x.state == .disabled || x.state == .noActivity then v
  else
    let v := (v.setRef r { x with activityLosses := satInc x.activityLosses, fresh := true, candidate := none, samples := [], gateLost := true,
                                  lastT := v.clk.now }).refState r .noActivity
    if x.state == .qualified && v.clk.cfg.source = 2 && v.clk.cfg.ppsRef = r then v.timeHoldover else v

/-- Activity returns (R313, R315): the first sample after it is the detector's basis (R316). -/
def Dev.activityBack (r : Nat) (v : Dev) : Dev :=
  if (v.ref r).state != .noActivity then v
  else (v.modRef r fun x => { x with fresh := true, candidate := none, samples := [], lastT := v.clk.now }).refState r .outOfRange

/-- Every lane-recovered reference bound to an ingress stream that is neither LOCKED nor SELF_REFRESH any more loses activity (R313). -/
def Dev.streamLost (s : Nat) (v : Dev) : Dev :=
  (List.range 8).foldl (fun v i => if (v.ref (33 + i)).cfg.lrcStream == s then v.loseActivity (33 + i) else v) v

/-! ### Alignment of ANCHORED outputs (R356) -/

/-- Every output anchored on a reference sees its sample. -/
def Dev.anchorSample (r : Nat) (jumped : Bool) (v : Dev) : Dev :=
  { v with fpos := v.fpos.map fun e =>
      let y := v.tc e.2.cfg.tc
      if e.2.cfg.mode == 2 && e.2.cfg.anchorRef == r && y.state == .tracking && y.active == some r
      then (e.1, e.2.sample v.clk.now y (v.ref r).cfg jumped) else e }

/-! ### Phase samples (R313, R316, R325, R343, R345) -/

/-- The offset of device time at a pulse of pps_ref from the second it marks, in 2^-16 ns (R361, R363). -/
def Dev.ppsOffset (r : Nat) (v : Dev) : Dev × Int :=
  let q : Int := (v.nowQ : Int) - (v.ref r).cfg.tracePs
  let near : Int := (q + secQ / 2) / secQ
  match v.clk.nextPulse with
  | some (from_, sec) =>
    if from_ ≤ v.clk.now then ({ v with clk := { v.clk with nextPulse := none } }, qToOut (q - secQ * sec)) else (v, qToOut (q - secQ * near))
  | none => (v, qToOut (q - secQ * near))

/-- Loop bandwidth of a channel for a type, mHz (R341, R343). -/
def TcCfg.bandwidth (type : Nat) (c : TcCfg) : Nat :=
  let or_ (x d : Nat) : Nat := if x = 0 then d else x
  match type with
  | 0 => or_ c.bwClk 10000
  | 1 => or_ c.bwFp 100
  | 2 => or_ c.bwPps 10
  | 3 => or_ c.bwPtp 5
  | _ => or_ c.bwLrc 20000

/-- The loop's phase error at a sample: how much later than build_out_ns after it the mark stands, quarter ps (R316, R334). -/
def Dev.loopError (k r t pos : Nat) (v : Dev) : Int :=
  let x := v.tc k
  let b := outToQ (x.outAt t)
  x.markOffset (v.nominal r) pos b t - b

/-- The loop at a sample of its reference, `dt` after the one before (R343): it takes out 2 pi times its bandwidth times `dt` of the phase
error, at most all. The spec gives the loop's type, peaking and bandwidth and no filter (DESIGN CHOICE, log entry 42). -/
def Dev.loopPull (k r t pos dt : Nat) (v : Dev) : Dev :=
  let d := 1000000 * secQ
  let g := min d (6283 * (v.tc k).cfg.bandwidth (v.ref r).cfg.type * dt)
  v.modTc k fun x => (x.rebase v.clk.now).pull (v.loopError k r t pos * g) d

/-- The reference instant as the lock gate sees it (R345). -/
def TcSt.marks (t pos : Nat) (x : TcSt) : TcSt :=
  let m : TcMark := { phase := x.phaseAt t, pos := pos, out := x.outAt t }
  { x with lockBase := match x.lockBase with | some b => some b | none => some m, lockLast := some m }

/-- Whether a switch measurement is over at an instant (R313, R327): its time has passed, or its pulses have been gathered. -/
def Dev.measured (k r t : Nat) (v : Dev) : Bool :=
  let x := v.tc k
  let passed (q : Nat) : Bool := decide (x.measT + q ≤ t) && x.meas.2.1 != 0
  match (v.ref r).cfg.type with
  | 0 => passed (10 * msQ)
  | 1 => decide (8 ≤ x.meas.2.1)
  | 2 => decide (4 ≤ x.meas.2.1)
  | 3 => passed (4 * secQ)
  | _ => passed (16 * msQ)

/-- A sample of a switch's target (R325): an offset of the measurement, or the instant at which the loop closes. The first offset is that
of the nearest mark, and the marks after it correspond to the samples after it (DESIGN CHOICE, log entry 43). -/
def Dev.measureTarget (k r t pos : Nat) (v : Dev) : Dev :=
  let x := v.tc k
  if x.closeT.isSome then v
  else if v.measured k r t then v.setTc k { x with closeT := some t }
  else
    let o := x.markOffset (v.nominal r) pos (if x.meas.2.1 = 0 then 0 else x.meas.2.2) t
    v.setTc k { x with meas := (x.meas.1 + o, x.meas.2.1 + 1, o) }

/-- An accepted sample feeds the loops that track the reference and the switches that lead to it. -/
def Dev.feedTcs (r t pos dt : Nat) (v : Dev) : Dev :=
  (List.range 8).foldl (fun v k =>
    let x := v.tc k
    let v := if x.active == some r && (x.state == .tracking || x.bridging) then
        (v.loopPull k r t pos dt).modTc k fun x => x.marks t pos
      else v
    if x.state == .switching && x.target == some r then v.measureTarget k r t pos else v) v

/-- A sample is accepted (R316): the loops, the gate and the ANCHORED outputs see it. -/
def Dev.acceptSample (r t pos : Nat) (jumped : Bool) (v : Dev) : Dev :=
  let x := v.ref r
  let dt := match x.samples.head? with | some a => t - a.1 | none => 0
  let v := v.setRef r { x with fresh := false, candidate := none, samples := ((t, pos) :: x.samples).take 4,
                               gateBase := match x.gateBase with | some b => some b | none => some (t, pos) }
  (v.feedTcs r t pos dt).anchorSample r jumped

/-! ### Jumps (R316 to R318, R334) -/

/-- The policy of a channel whose active reference has jumped by `e`, the candidate's instant being `td` (R334, R340); the measurement of
a switch to that reference starts again from the jump (R328). -/
def Dev.jumpAt (k r td : Nat) (e : Int) (v : Dev) : Dev :=
  let x := (v.tc k).rebase v.clk.now
  if x.state == .switching && x.target == some r then v.setTc k (x.measures td)
  else if x.active != some r then v
  else if x.state == .switching then v.putTc k { x with buildOut := x.buildOut + e }
  else
    let v := (v.putTc k { x with jumpsApplied := satInc x.jumpsApplied }).raise (srcTc k 3) (jumpDetail e x.sel.jumpPolicy)
    let x := v.tc k
    match x.sel.jumpPolicy with
    | 1 =>
      v.putTc k { x with
        buildOut := x.buildOut + e, following := true, realign := x.following && x.realign
        slewTo := if x.following then x.slewTo else x.buildOut }
    | 2 => (v.toHold k .jumpWait (some r) x.buildOut (v.holdFreq k td x.sel.guardS)).decideTc k
    | _ => v.putTc k { x with buildOut := x.buildOut + e }

/-- A confirmed jump of a reference (R317, R318): the candidate and the sample that confirmed it are the new basis. -/
def Dev.jumpConfirmed (r td posd t pos : Nat) (e : Int) (v : Dev) : Dev :=
  let x := v.ref r
  let v := v.setRef r { x with candidate := none, samples := [(td, posd)], gateBase := some (td, posd), jumps := satInc x.jumps,
                               jumpU := uOfQ (v.clk.devQ td), jumpSize := qToOut e }
  let v := v.raise (srcRef r 2) (sBits 32 (nsSat (qToOut e)) * 2 ^ 32 + r)
  let v := (List.range 8).foldl (fun v k => v.jumpAt k r td (qToOut e)) v
  (v.feedTcs r td posd 0).acceptSample r t pos true

/-- A discarded candidate (R317, R338). -/
def Dev.jumpDiscarded (r : Nat) (v : Dev) : Dev :=
  let x := v.ref r
  let due := match x.spuriousT with | some w => decide (secQ + w ≤ v.clk.now) | none => true
  (v.setRef r { x with candidate := none, spurious := satInc x.spurious, spuriousT := if due then some v.clk.now else x.spuriousT }).raiseIf
    due (srcRef r 3) r

/-- The prediction less the sample, quarter ps (R316): against the mark less the build-out of the first channel on which the reference is
active, else against the last four accepted samples carried on at the last gate result, whose mean is taken (log entry 42). -/
def Dev.sampleError (r t pos : Nat) (v : Dev) : Int :=
  match (List.range 8).find? (fun k => (v.tc k).active == some r) with
  | some k => v.loopError k r t pos
  | none =>
    let x := v.ref r
    let f := v.nominal r
    let d : Int := (f.1 : Int) * ((ppmOne : Int) + x.gate)
    let ps : List Int := x.samples.map fun a => (a.1 : Int) + ((pos : Int) - a.2) * (f.2 * ppmOne : Nat) / max 1 d
    if ps.isEmpty then 0 else ps.sum / (ps.length : Nat) - t

/-- A sample tested afresh (R317): a candidate is withheld; another sample is accepted. -/
def Dev.testSample (r t pos : Nat) (v : Dev) : Dev :=
  let x := v.ref r
  let e := v.sampleError r t pos
  if e.natAbs > 4000 * x.cfg.jumpThresholdNs then v.setRef r { x with candidate := some (t, pos, e) } else v.acceptSample r t pos false

/-- Whether a sample confirms a candidate (R317): it lies within the threshold of the candidate's position advanced by one nominal period,
which for T-PTP is the time that passed between the two. -/
def Dev.confirms (r t pos td posd : Nat) (v : Dev) : Bool :=
  let f := v.nominal r
  let at_ : Int := (td : Int) + ((pos - posd) * f.2 / max 1 f.1 : Nat)
  decide (((t : Int) - at_).natAbs ≤ 4000 * (v.ref r).cfg.jumpThresholdNs)

/-- A phase sample of a reference (R313, R316, R317): `t` is its instant, `pos` its position in periods, times `secQ`. It also tells that
the reference is active. -/
def Dev.sample (r t pos : Nat) (v : Dev) : Dev :=
  if (v.ref r).state == .disabled then v
  else
    let v := v.activityBack r
    let x := v.ref r
    let v := v.setRef r { x with lastT := v.clk.now, pos := pos }
    if x.fresh || !v.pulseType r then v.acceptSample r t pos false
    else match x.candidate with
      | some (td, posd, e0) => if v.confirms r t pos td posd then v.jumpConfirmed r td posd t pos e0 else (v.jumpDiscarded r).testSample r t pos
      | none => v.testSample r t pos

/-- The position of a pulse: one period after the last accepted one, or as many as have passed by the nominal period. -/
def Dev.pulsePos (r t : Nat) (v : Dev) : Nat :=
  match (v.ref r).samples.head? with
  | some (u, p) =>
    let f := v.nominal r
    p + secQ * max 1 ((2 * (t - u) * f.1 + secQ * f.2) / max 1 (2 * secQ * f.2))
  | none => (v.ref r).pos + secQ

/-- A pulse of pps_ref that is no measurement: where it is the one that NEXT_PULSE gives its second to, the next pulse marks the second
after (R363; DEDUCED, log entry 45). -/
def Clock.skipPulse (c : Clock) : Clock :=
  match c.nextPulse with
  | some (from_, sec) => if from_ ≤ c.now then { c with nextPulse := some (from_, sec + 1) } else c
  | none => c

/-- An edge or pulse at a pin (R309, R313, R361): `edges` tells how many edges of a T-CLK reference have passed since the last sample, this
one among them. -/
def Dev.pinSample (r edges : Nat) (v : Dev) : Dev :=
  let x := v.ref r
  let t := v.clk.now - x.cfg.tracePs
  let v := if v.clk.cfg.source != 2 || v.clk.cfg.ppsRef != r then v
    else if x.state == .qualified then
      let p := v.ppsOffset r
      p.1.measure p.2
    else { v with clk := v.clk.skipPulse }
  v.sample r t (if x.cfg.type = 0 then x.pos + secQ * max 1 edges else v.pulsePos r t)

/-- CLOCK_INFO of a LOCKED or SELF_REFRESH ingress stream is a sample of the references bound to it (R108, R313, R344): `q` is its instant
in device time, `count` the unwrapped pixel count. A count that restarted relates to no earlier one. -/
def Dev.lrcSample (s q count : Nat) (restart : Bool) (v : Dev) : Dev :=
  (List.range 8).foldl (fun v i =>
    let r := 33 + i
    if (v.ref r).cfg.lrcStream != s || (v.ref r).state == .disabled then v
    else
      let v := if restart then
          (List.range 8).foldl (fun v k => if (v.tc k).active == some r then v.modTc k fun x => { x with lockBase := none, lockLast := none } else v)
            (v.modRef r fun x => { x with samples := [], gateBase := none })
        else v
      v.sample r (v.clk.instantOf q) (secQ * count)) v

/-! ### Handover (R325, R333, R334) -/

/-- The mean of the measured offsets, in 2^-16 ns with halves up: reduced modulo the period of a clock-type target (R325). -/
def Dev.measuredOut (r : Nat) (sum : Int) (count : Nat) (v : Dev) : Int :=
  let f := v.nominal r
  let n : Int := (max 1 f.1 * max 1 count : Nat)
  let m := sum * max 1 f.1
  let p : Int := (secQ * f.2 * max 1 count : Nat)
  let m := if v.pulseType r then m else m - p * ((2 * m + p) / (2 * p))
  (2 * m * 16384 + 1000 * n) / (2 * 1000 * n)

/-- A difference of build-out offsets, reduced modulo the period of a clock-type reference (R334). -/
def Dev.reducedDelta (r : Nat) (d : Int) (v : Dev) : Int :=
  if v.pulseType r then d
  else
    let f := v.nominal r
    let n : Int := max 1 f.1
    let p : Int := (secU * f.2 : Nat)
    (d * n - p * ((2 * d * n + p) / (2 * p))) / n

/-- A switch measurement ends: the loop closes on the target (R325, R333), or a return onto the held reference is treated as a jump
(R334, R335). -/
def Dev.handover (k : Nat) (v : Dev) : Dev :=
  let x := v.tc k
  match x.state, x.target with
  | .switching, some r =>
    let b' := v.measuredOut r x.meas.1 x.meas.2.1
    let close (out : Int) (slewTo : Option Int) (code : Nat) (v : Dev) : Dev :=
      let y := (v.tc k).rebase v.clk.now
      let y := if code = 3 then y.pull (outToQ b') 1 else y
      let y : TcSt := { y with state := .tracking, active := some r, target := none, bridging := false, heldRef := none, start := false,
                               accept := none, buildOut := out, following := slewTo.isSome, realign := false, slewTo := slewTo.getD 0,
                               switches := y.switches + 1, lastSwitchU := v.nowU, lockGood := 0, lockBad := 0, closeT := none,
                               dcoOffset := pullRange (v.ref r).gate, lockT := v.clk.now, lockBase := none, lockLast := none }
      let v := v.putTc k (match (v.ref r).samples.head? with | some a => y.marks a.1 a.2 | none => y)
      ((v.switchEvent k code (some r) x.from_).applyStored k).decideTc k
    if x.start && x.from_.isNone then
      if x.sel.initialAlign = 0 then close 0 none 3 v else close b' none 1 v
    else if x.from_.isNone && x.heldRef == some r then
      let d := v.reducedDelta r (b' - x.heldOut)
      match x.accept with
      | some a =>
        let v := v.raise (srcTc k 3) (jumpDetail d (3 + a))
        close b' (if a = 1 then some x.heldOut else none) 1 v
      | none =>
        if d.natAbs ≤ (v.ref r).cfg.jumpThresholdNs * nsU then close b' (some x.heldOut) 1 v
        else
          let v := (v.putTc k { x with jumpsApplied := satInc x.jumpsApplied }).raise (srcTc k 3) (jumpDetail d x.sel.jumpPolicy)
          match x.sel.jumpPolicy with
          | 1 => close b' (some x.heldOut) 1 v
          | 2 => ((((v.switchEvent k 2 (some r) none).toHold k .jumpWait (some r) x.heldOut x.holdOffset).applyStored k).decideTc k)
          | _ => close b' none 1 v
    else close b' none 1 v
  | _, _ => v

/-! ### The commands -/

/-- REF_ACTIVITY_LOSS (R313, R315, R362): no sample has come for as long as its type allows. -/
def execRefActivityLoss (t : Nat) (ref : Fin 41) (s : State) : Result :=
  .next (s.due ((s.dev.ref ref).lastT + s.dev.activityQ ref) t (State.onDev fun v => if v.mediaOn then v.loseActivity ref else v))

/-- Whether a sample of a reference may come (R313): the bound stream of T-LRC is LOCKED or SELF_REFRESH, the port of T-PTP is a
time receiver. -/
def Dev.refLive (r : Nat) (v : Dev) : Bool :=
  match (v.ref r).cfg.type with
  | 3 => v.clk.ptpReceiver
  | 4 =>
    let x := v.is (v.ref r).cfg.lrcStream
    x.state == .locked || x.state == .selfRefresh
  | _ => true

/-- REF_ACTIVITY_RETURN (R313, R315). -/
def execRefActivityReturn (t : Nat) (ref : Fin 41) (s : State) : Result :=
  .next ((s.arrive t).onDev fun v => if v.mediaOn && v.refLive ref then v.activityBack ref else v)

/-- REF_GATE_END (R313, R315); pps_ref leaving QUALIFIED puts device time into holdover (R362). -/
def execRefGateEnd (t : Nat) (ref : Fin 41) (s : State) : Result :=
  .next (s.due ((s.dev.ref ref).gateT + s.dev.gateLenQ ref) t (State.onDev fun v =>
    if !v.mediaOn then v
    else
      let r : Nat := ref
      let was := (v.ref r).state == .qualified
      let v := v.gateEnd r
      if was && (v.ref r).state != .qualified && v.clk.cfg.source = 2 && v.clk.cfg.ppsRef = r then v.timeHoldover else v))

/-- QUALIFICATION_TIMER (R312, R315): the timer has reached the qual_time_ms it started with. -/
def execQualificationTimer (t : Nat) (ref : Fin 41) (s : State) : Result :=
  match (s.dev.ref ref).qualSince with
  | some w =>
    .next (s.due (w + msQ * (s.dev.ref ref).qualTime) t (State.onDev fun v =>
      if v.mediaOn && v.coreUp .t && (v.ref ref).state == .qualifying then v.refState ref .qualified else v))
  | none => .next (s.arrive t)

/-- WAIT_TO_RESTORE_EXPIRY (R322, R323): the channel decides. -/
def execWaitToRestoreExpiry (t : Nat) (tc : Fin 8) (ref : Fin 41) (s : State) : Result :=
  match smFind ref (s.dev.tc tc).wtr with
  | some w => .next (s.due (w + secQ * (s.dev.tc tc).sel.wtrS) t (State.onDev fun v => if v.mediaOn then v.decideTc tc else v))
  | none => .next (s.arrive t)

/-- REF_PHASE_SAMPLE (R313, R316, R317): an edge or pulse of a reference at a pin. The samples of VREF_PTP and of the lane-recovered references
come with the Sync messages and the CLOCK_INFO packets. -/
def execRefPhaseSample (t : Nat) (ref : Fin 41) (edges : Nat) (s : State) : Result :=
  .next ((s.arrive t).onDev fun v => if v.mediaOn && decide (ref.val < 32) then v.pinSample ref edges else v)

/-- HANDOVER (R325, R327): at the first target sample after the measurement. -/
def execHandover (t : Nat) (tc : Fin 8) (s : State) : Result :=
  match (s.dev.tc tc).closeT with
  | some q => .next (s.due q t (State.onDev fun v => if v.mediaOn then v.handover tc else v))
  | none => .next (s.arrive t)

/-- SLEW_END (R334, R336): build_out_ns has reached its final value. -/
def execSlewEnd (t : Nat) (tc : Fin 8) (s : State) : Result :=
  let x := s.dev.tc tc
  let q := x.slewT + ceilDiv ((x.slewTo - x.buildOut).natAbs * 1000 * secQ) (max 1 (x.sel.slewPsPerS * 65536))
  .next (s.due q t (State.onDev fun v => if v.mediaOn && (v.tc tc).following then v.stopSlew tc else v))

/-- The second of a channel's history that ends now (R329): its mean offset, valid where the channel was steady throughout. FREERUN records
none (R324). -/
def Dev.historyBin (k : Nat) (v : Dev) : Dev :=
  let x := v.tc k
  let y := x.rebase v.clk.now
  let mean := ppmOf (y.phase - x.binPhase) (2048 * (v.clk.now - x.binT) * x.cfg.setFreqHz * ppmOne)
  let z := { y with binQ := v.nowQ, binT := v.clk.now, binPhase := y.phase, binOk := x.steady }
  v.setTc k (if x.state == .freerun then z else { z with bins := ((v.clk.now, x.binOk && x.steady, mean) :: x.bins).take 4200 })

/-- HISTORY_BIN (R329): once per second of device time. -/
def execHistoryBin (t : Nat) (tc : Fin 8) (s : State) : Result :=
  .next (s.due (s.dev.clk.instantOf ((s.dev.tc tc).binQ + secQ)) t (State.onDev fun v =>
    if !v.mediaOn || !v.coreUp .t then v else v.historyBin tc))

/-- The stored frequencies go to the TC_FREQ section (R332). -/
def Dev.storeFreqs (v : Dev) : Dev :=
  let ks := (List.range 8).filter fun k => (v.tc k).bins.any (fun b => b.2.1)
  if ks.isEmpty || v.settings.provisional then v
  else
    let fs := ks.map fun k => (k, v.holdFreq k v.clk.now 0)
    v.changeSettings fun x => { x with tcFreq := fs.foldl (fun m e => smPut e.1 e.2 m) x.tcFreq }

/-- STORED_FREQUENCY (R332): the hourly write. -/
def execStoredFrequency (t : Nat) (s : State) : Result :=
  .next (s.due (s.dev.clk.freqT + 3600 * secQ) t (State.onDev fun v =>
    if v.mediaOn && v.coreUp .t then ({ v with clk := { v.clk with freqT := v.clk.now } } : Dev).storeFreqs else v))

/-- The result of a lock gate in units of 2^-16 ppm (R345): the cycles counted between its two reference instants, less what changes of
build_out_ns did to them, against K times the periods between them; none where the gate has no two instants. -/
def Dev.lockOffset (k : Nat) (v : Dev) : Option Int :=
  let x := v.tc k
  match x.active, x.lockBase, x.lockLast with
  | some r, some a, some b =>
    let f := v.nominal r
    let counted : Int := (b.phase : Int) - a.phase + x.outP (b.out - a.out)
    if a.pos < b.pos then some (ppmOf (counted.toNat * secQ * f.1) (x.cfg.setFreqHz * f.2 * cycleP * (b.pos - a.pos))) else none
  | _, _, _ => none

/-- Whether lock gates run (R345). -/
def TcSt.gates (x : TcSt) : Bool := x.state == .tracking || (x.state == .switching && x.bridging)

/-- A lock gate with its result (R346). -/
def Dev.lockResult (k : Nat) (offset : Int) (v : Dev) : Dev :=
  let x := v.tc k
  let lim := if x.cfg.lockLimitPpb = 0 then 10 else x.cfg.lockLimitPpb
  let g := if within offset lim then x.lockGood + 1 else 0
  let b := if within offset (4 * lim) then 0 else x.lockBad + 1
  let v := v.setTc k { x with lockOffset := offset, lockGood := g, lockBad := b }
  if !x.locked && g ≥ 3 then v.setLocked k true
  else if x.locked && b ≥ 2 then v.setLocked k false
  else v

/-- A lock gate ends and the next begins (R345). -/
def Dev.lockGate (k : Nat) (v : Dev) : Dev :=
  let x := v.tc k
  if !x.gates then v
  else
    let r := v.lockOffset k
    let v := v.setTc k { x with lockT := v.clk.now, lockBase := x.lockLast }
    match r with
    | some o => v.lockResult k o
    | none => v

/-- LOCK_GATE (R345, R346): the gate is that of the active reference's type. -/
def execLockGate (t : Nat) (tc : Fin 8) (s : State) : Result :=
  match (s.dev.tc tc).active with
  | some r => .next (s.due ((s.dev.tc tc).lockT + s.dev.gateLenQ r) t (State.onDev fun v => if v.mediaOn then v.lockGate tc else v))
  | none => .next (s.arrive t)

/-- What a Sync's offset, in 2^-16 ns, does (R313, R361): the servo takes it where PTP disciplines device time, and it is a sample of VREF_PTP,
whose instants are the whole seconds of the transmitter's time scale (R344). asymmetry_ns corrects it (R359). -/
def Dev.ptpOffset (x : Int) (v : Dev) : Dev :=
  if !v.mediaOn then v
  else
    let x := x - 65536 * v.clk.cfg.asymmetryNs
    let v := v.sample 32 v.clk.now ((v.nowQ : Int) - outToQ x).toNat
    if v.clk.cfg.source = 1 then v.measure x else v

/-- PTP_MESSAGE (R360, R361, R405): Announce messages choose the time transmitter; a Sync or its Follow_Up gives a measurement; the
path-delay messages of the configured mechanism are exchanged; others are ignored. CORE.C exchanges them (R39). In sleep nothing disciplines
device time (R513). -/
def execPtpMessage (t : Nat) (m : PtpMsg) (s : State) : Result :=
  .next ((s.arrive t).onDev fun v =>
    if !v.alive || v.pow.phase == .booting || !v.coreUp .c then v
    else
      let c := v.clk.cfg
      let ours (dom id : Nat) : Bool := dom == c.ptpDomain && v.clk.ptpReceiver && id == v.clk.txClockId
      match m with
      | .announce dom rank id utc =>
        if dom != c.ptpDomain || id = 0 then v
        else if !v.clk.ptpReceiver || id = v.clk.txClockId || rank < v.clk.ptpBest then
          let v := v.setPtp id rank
          { v with clk := { v.clk with utcPtp := utc } }
        else v
      | .sync dom id two gap x =>
        if !ours dom id then v
        else
          let v := { v with clk := { v.clk with syncT := v.clk.now, syncGap := gap } }
          let v := if two then v else v.ptpOffset x
          v.emit (.ptp (if c.ptpDelay = 1 then 1 else 0))
      | .followUp dom id x => if ours dom id then v.ptpOffset x else v
      | .delayResp _ _ => v
      | .pdelayReq dom => if dom == c.ptpDomain && c.ptpDelay == 1 then v.emit (.ptp 2) else v
      | .unsupported => v)

/-- PTP_SYNC_TIMEOUT (R313, R362): four Sync intervals have passed without a Sync, and the port leaves the time-receiver state; device time
under PTP and VREF_PTP lose their source. -/
def execPtpSyncTimeout (t : Nat) (s : State) : Result :=
  .next (s.due (s.dev.clk.syncT + 4 * s.dev.clk.syncGap) t (State.onDev fun v =>
    if !v.alive || v.pow.phase == .booting then v
    else
      let v := v.setPtp 0 0
      let v := if v.mediaOn then v.loseActivity 32 else v
      if v.clk.cfg.source = 1 then v.timeHoldover else v))

end Sys2Proof.Machine
end

