-- ==== Sys2Proof/Machine/StreamBase.lean ====
section
/-! DEFINITION. What every happening on an ingress stream shares: formats and their demand (R99, R100, R121, R130), time values
(R15, R116, R141), the stream's state (R131, R132), incomplete frames (R117), and the capture of a frame (R175, R176). -/
namespace Sys2Proof.Machine
open Sys2Proof

/-! ### Formats -/

/-- Codes that R99 lists for a bit depth. -/
def depthOk (b : Nat) : Bool := [6, 8, 10, 12, 14, 16].contains b

/-- Whether a descriptor lies in the ranges of R99 and meets R100; `expected` leaves out the presentation offset. -/
def Desc.valid (expected : Bool) (d : Desc) : Bool :=
  decide (d.colourFormat ≤ 3) && depthOk d.bitDepth && decide (d.scan ≤ 2) && decide (1 ≤ d.width) && decide (d.width ≤ 16384)
    && decide (1 ≤ d.height) && decide (d.height ≤ 8704) && decide (d.colorimetry ≤ 3) && decide (d.transfer ≤ 4)
    && decide (d.range ≤ 1) && decide (d.siting ≤ 2) && (expected || decide (d.tsScale ≤ 1))
    && d.rateNum != 0 && d.rateDen != 0 && decide (d.rateDen ≤ d.rateNum) && decide (d.rateNum ≤ 1000 * d.rateDen)
    && (!subsampled d.colourFormat || d.width % 2 == 0)
    && ((d.scan == 0 && d.colourFormat != 3) || d.height % 2 == 0) && (d.scan == 0 || d.colourFormat != 3 || d.height % 4 == 0)
    && (d.hTotal == 0 || decide (d.width ≤ d.hTotal)) && (d.vTotal == 0 || decide (d.height ≤ d.vTotal))
    && (expected || d.presOffset == 0 || (decide (10000 ≤ d.presOffset) && decide (d.presOffset ≤ 1000000)))
    && !(d.colourFormat == 2 && d.siting == 2)

/-- Fields per frame. -/
def Desc.fields (d : Desc) : Nat := if d.scan = 0 then 1 else 2

/-- Frame or field period in quarter picoseconds, rounded down (R137). -/
def Desc.periodQ (d : Desc) : Nat := secQ * d.rateDen / max 1 (d.rateNum * d.fields)

/-- gbits of R121: bits of a group, and pixels of a group. -/
def gbits (fmt bd : Nat) : Nat := (if subsampled fmt then 4 else 3) * bd

/-- B_line of R121. -/
def bLine (fmt bd w : Nat) : Nat :=
  let g := w / groupPixels fmt
  let gb := gbits fmt bd
  ceilDiv (g * gb) 8 + 13 * ceilDiv g (8184 * 8 / max 1 gb)

/-- The video and frame-overhead terms of D (R121), times the frame rate's denominator over its numerator: bits in a frame. -/
def frameBits (fmt bd w vTotal scan : Nat) : Nat := 8 * bLine fmt bd w * vTotal + 608 * (if scan = 0 then 1 else 2)

/-- R130: whether a valid FORMAT is accepted under a configuration. -/
def accepts (c : IngressCfg) (d : Desc) : Bool :=
  let x := c.expected
  let m (k : Nat) : Bool := bit c.matchBits k
  let sameRate := d.rateNum * x.rateDen == x.rateNum * d.rateDen
  let eq (k : Nat) (a b : Nat) : Bool := !m k || a == b
  let le (k : Nat) (a b : Nat) : Bool := m k || decide (a ≤ b)
  eq 0 d.colourFormat x.colourFormat && eq 1 d.bitDepth x.bitDepth && eq 2 d.scan x.scan && eq 3 d.width x.width && eq 4 d.height x.height
    && eq 5 d.hTotal x.hTotal && eq 6 d.vTotal x.vTotal && (!m 7 || sameRate) && eq 8 d.colorimetry x.colorimetry
    && eq 9 d.transfer x.transfer && eq 10 d.range x.range && eq 11 d.siting x.siting
    && le 3 d.width x.width && le 4 d.height x.height && le 1 d.bitDepth x.bitDepth && le 6 d.vTotal x.vTotal
    && (m 5 || x.hTotal == 0 || decide (d.hTotal ≤ x.hTotal)) && (m 7 || decide (d.rateNum * x.rateDen ≤ x.rateNum * d.rateDen))
    && ((m 0 && m 1) || decide (gbits d.colourFormat d.bitDepth * groupPixels x.colourFormat ≤ gbits x.colourFormat x.bitDepth * groupPixels d.colourFormat))
    && decide (frameBits d.colourFormat d.bitDepth d.width (if d.vTotal = 0 then x.vTotal else d.vTotal) d.scan * (d.rateNum * x.rateDen)
        ≤ frameBits x.colourFormat x.bitDepth x.width x.vTotal x.scan * (x.rateNum * d.rateDen))

/-! ### Time values (R15, R116, R141) -/

/-- R15: the picosecond count P with P mod 2^40 = V nearest the reference. -/
def unwrap40 (ref : Int) (v : Nat) : Int :=
  let lo := ref - 2 ^ 39
  lo + ((v : Int) - lo).emod (2 ^ 40)

/-- R116: a value unwrapped against the previous one of its kind plus `step`, or where there is none in the last 0.5 s, against the
receiver's own time for DEVICE and against the stream's last SYMBOL value for SYMBOL; values of the other scale do not serve. -/
def Dev.unwrapTs (scale : Nat) (prev any : Option Unwrap) (step : Int) (ts : Nat) (v : Dev) : Int :=
  let now := v.clk.now
  let recent := prev.filter fun u => u.scale == scale && decide (now ≤ secQ / 2 + u.at_)
  match recent with
  | some u => unwrap40 (u.value + step) ts
  | none =>
    if scale = 1 then unwrap40 (toPs v.nowU) ts
    else match any with
      | some u => unwrap40 (u.value + ((now - u.at_) / 4 : Nat)) ts
      | none => ts

/-- An unwrapped value has arrived: the last of any kind serves SYMBOL values only (R116). -/
def IngressSt.sawTs (u : Unwrap) (x : IngressSt) : IngressSt := if u.scale = 0 then { x with uwAny := some u } else x

/-- The anchor is set to a frame; its ts40 is taken as already unwrapped, and the values that follow refer to it (R141, DEDUCED, log
entry 26). -/
def IngressSt.setAnchor (a : Anchor) (at_ : Nat) (x : IngressSt) : IngressSt :=
  let u : Unwrap := { value := a.ts, at_ := at_ }
  { x with anchor := some a, reanchor := false, uwFrame := some u, uwAny := some u, uwClock := none,
           uwAudio := x.uwAudio.filter fun e => e.2.scale != 0 }

/-- `to_device_q` of R141 for a SYMBOL value; a DEVICE value is device time itself. -/
def IngressSt.toDeviceQ (x : IngressSt) (scale : Nat) (p : Int) : Int :=
  if scale = 1 then 4 * p
  else match x.anchor with
    | some a =>
      let d := 4 * (p - a.ts)
      a.q + d + (d * x.symOffset + 32768 * 1000000) / (65536 * 1000000)
    | none => 4 * p

/-! ### Bytes delivered (R90 to R92, R96) -/

/-- Runs that have ended with 3 or fewer bytes left are discarded (R96); `open_` says that the last run has not ended. -/
def trimRuns (open_ : Bool) : List (List (Option Byte)) → List (List (Option Byte))
  | [] => []
  | r :: rest => if (!rest.isEmpty || !open_) && decide (r.length ≤ 3) then trimRuns open_ rest else r :: rest

/-- A stream whose ended runs hold a header at least (R96). -/
def IngressSt.trim (x : IngressSt) : IngressSt :=
  let rows := trimRuns x.runOpen x.rows
  { x with rows := rows, taken := if rows.length = x.rows.length then x.taken else 0 }

/-- The parser takes bytes of the first run: where the packet began in it is kept (R90, R139). -/
def IngressSt.take (k : Nat) (x : IngressSt) : IngressSt :=
  match x.rows with
  | [] => { x with headAt := 0 }
  | r :: rest => ({ x with rows := r.drop k :: rest, headAt := x.taken, taken := x.taken + k } : IngressSt).trim

/-- The lanes of an ingress bond in order of lane_index (R68, R90). -/
def Dev.bondOrder (s n : Nat) (v : Dev) : List Nat :=
  if (v.lane s).laneIndex = 0 then (List.range n).map (· + s) else ((List.range n).map (· + s)).reverse

/-- The lane that carried the first byte of the last packet's header (R90, R139). -/
def Dev.headLane (s : Nat) (v : Dev) : Nat :=
  let n := ((smFind s v.cfg.ingress).map (·.bondSize)).getD 1
  (v.bondOrder s n).getD ((v.is s).headAt % (60 * n) / 60) s

/-! ### Routes -/

/-- The egress streams that a source feeds, in order (R18). -/
def Cfg.fedBy (src : Source) (c : Cfg) : List Nat := (c.routes.filter (fun r => r.2.source == src)).map (·.1)

/-- Whether some embedded channel is assigned to an egress stream (R23). -/
def Cfg.hasAudio (e : Nat) (c : Cfg) : Bool := c.audio.any (fun a => a.1 / 32 == e)

/-! ### Audio channels of a stream (R281, R282) -/

/-- EV.AUDIO.INPUT for every embedded channel that reads an extracted channel (R306). -/
def Dev.audioInput (x : Nat) (v : Dev) : Dev :=
  (v.audio.filter (fun e => e.2.resolved == some x)).foldl (fun v e => v.raise (4704 + 4 * (e.1 / 1024) + 2) e.1) v

/-- An extracted channel becomes absent (R282). -/
def Dev.xcAbsent (x : Nat) (v : Dev) : Dev :=
  let c := v.xchan x
  if c.absent then v else (v.setXchan x { c with absent := true, absences := satInc c.absences }).audioInput x

/-- Every extracted channel of a stream is absent outside LOCKED and SELF_REFRESH (R281). -/
def Dev.streamAbsent (s : Nat) (v : Dev) : Dev := (List.range 32).foldl (fun v k => v.xcAbsent (32 * s + k)) v

/-! ### Capture surfaces -/

/-- The surface of a ring slot, or a static surface; unused ones are EMPTY (R160, R162). -/
def Dev.surface (n : Nat) (v : Dev) : SurfaceSt := if n < 8192 then v.ring n else (smFind n v.cfg.statics).getD {}

/-- The frame of a channel ends: its surface becomes COMPLETE or INCOMPLETE (R176). -/
def Dev.endCapture (s : Nat) (complete crcFailed : Bool) (v : Dev) : Dev :=
  match (v.is s).frame with
  | some f =>
    match f.surface with
    | some n =>
      let keep := complete && !(crcFailed && (smGet {} s v.cfg.caps).crcPolicy == 1)
      let v := v.modRing n fun x =>
        if x.state != .writing then x
        else if keep then { x with state := .complete, completeQ := 256000 + x.ackQ, marks := if crcFailed then x.marks / 2 * 2 + 1 else x.marks }
        else { x with state := .incomplete, marks := if crcFailed then x.marks / 2 * 2 + 1 else x.marks }
      let v := v.modCap s fun c =>
        if keep then { c with writing := none, newest := some n, captured := c.captured + 1 }
        else { c with writing := none, incomplete := satInc c.incomplete }
      v.modIs s fun x => { x with frame := x.frame.map (fun f => { f with surface := none }) }
    | none => v
  | none => v

/-! ### Frames that become incomplete, and the state of the stream -/

/-- EV.INGRESS.LOCK's detail (R450). -/
def lockDetail (bondError reason old new : Nat) : Nat := bondError * 2 ^ 24 + reason * 2 ^ 16 + old * 256 + new

/-- The stream takes a state; EV.INGRESS.LOCK occurs when it changes (R136). -/
def Dev.isTo (s : Nat) (new : IsState) (reason bondError : Nat) (v : Dev) : Dev :=
  let x := v.is s
  let v := v.setIs s { x with state := new, mismatch := reason, bondError := bondError }
  v.raiseIf (x.state != new) (srcIngress s 0) (lockDetail bondError reason x.state.code new.code)

/-- The egress streams fed by an ingress stream stop forwarding at the next packet boundary; a frame in progress on them ends
without FRAME_END (R133, R157). -/
def Dev.stopForward (s : Nat) (v : Dev) : Dev :=
  (v.cfg.fedBy (.ingress s)).foldl (fun v e =>
    if (v.es e).forwarding then (v.probeEnd 1 e false none).modEs e (fun x => { x with forwarding := false, srFrom := false, inSr := false })
    else v) v

/-- EV.INGRESS.INTEGRITY with the causes of the frame in progress (R135, R450). -/
def Dev.integrity (s : Nat) (bits number : Nat) (v : Dev) : Dev := v.raise (srcIngress s 2) (bits * 2 ^ 32 + number)

/-- The frame in progress becomes incomplete (R117); EV.INGRESS.INTEGRITY occurs there, once for the frame (R135). -/
def Dev.breakFrame (s : Nat) (v : Dev) : Dev :=
  let x := v.is s
  match x.frame with
  | some f =>
    if f.whole then
      (v.setIs s { x with frame := some { f with whole := false, hurtBits := 9 ||| f.hurtBits } }).integrity s (9 ||| f.hurtBits) f.frameNumber
    else v
  | none => v

/-- The frame in progress ends without being complete: it is counted, and its surface and its probe end with it (R117, R176). -/
def Dev.dropFrame (s : Nat) (v : Dev) : Dev :=
  if (v.is s).frame.isNone then v
  else
    (((v.breakFrame s).endCapture s false false).probeEnd 0 s false none).modIs s fun x =>
      { x with frame := none, incomplete := satInc x.incomplete, goodFrames := 0, badFrames := x.badFrames + 1 }

/-- What a stream forgets on entering SEARCH (R116, R137, R141). -/
def IngressSt.searching (x : IngressSt) : IngressSt :=
  { x with goodFrames := 0, badFrames := 0, lastOkStart := none, lastStart := none, intervals := [], checked := 0, anchor := none, reanchor := false,
           uwFrame := none, uwClock := none, uwAudio := [], uwAny := none, exBytes := 0, exOver := false }

/-- The stream leaves LOCKED or SELF_REFRESH for another state, or changes among the others (R132, R133, R281, R313): forwarding and
capture stop, the frame in progress is left incomplete, and references recovered from the stream lose activity. -/
def Dev.isLose (s : Nat) (new : IsState) (reason bondError : Nat) (v : Dev) : Dev :=
  let old := (v.is s).state
  let v := if old == .locked || old == .selfRefresh then ((v.stopForward s).dropFrame s).streamAbsent s else v
  let v := if new == .search || new == .down then v.modIs s IngressSt.searching else v
  let v := v.isTo s new reason bondError
  if old == .locked || old == .selfRefresh then v.streamLost s else v

/-- The frame in progress ends incomplete; eight in a row take a LOCKED stream to SEARCH (R132). -/
def Dev.endIncomplete (s : Nat) (v : Dev) : Dev :=
  let v := v.dropFrame s
  if (v.is s).state == .locked && (v.is s).badFrames ≥ 8 then v.isLose s .search 0 0 else v

/-- A counter of R120 rises: during a frame it is a cause of EV.INGRESS.INTEGRITY (R135). -/
def Dev.isCount (s : Nat) (f : IngressSt → IngressSt) (v : Dev) : Dev :=
  v.modIs s fun x =>
    let y := f x
    { y with frame := y.frame.map (fun r => if r.whole then { r with hurtBits := 1 ||| r.hurtBits } else r) }

end Sys2Proof.Machine
end

