-- ==== Sys2Proof/Machine/LaneTx.lean ====
section
/-! DEFINITION. The TX directions of the lanes (R60, R64, R73 to R78), the reported states of a lane (R88, R89), and cold bring-up
(R50, R82). -/
namespace Sys2Proof.Machine
open Sys2Proof

/-! ### Lanes, blocks and bonds -/

/-- Whether a lane block is powered: its domain PD08 to PD23 is on (R507, R509) and the device is out of reset and awake. -/
def Dev.blockOn (b : Nat) (v : Dev) : Bool :=
  !v.pow.off.contains (8 + b) && (v.pow.phase == .running || v.pow.phase == .entering || v.pow.phase == .waking || v.pow.phase == .booting)

/-- Reported TX state (R88): 0 TRAIN, 1 RUN, 2 DUSK, 3 PRBS. A direction that is not driven reports TRAIN, and one in its Dusk entry or
its Dawn burst reports DUSK; R88 names neither (DEDUCED, log entry 21). -/
def LaneSt.txCode (l : LaneSt) : Nat :=
  if l.txPattern != 0 then 3
  else match l.tx with
    | .down | .train => 0
    | .run => 1
    | .dusk | .burst => 2

/-- A lane's record changes; EV.LANE.LOCK occurs when its reported RX state does (R89). -/
def Dev.updLane (n : Nat) (l : LaneSt) (v : Dev) : Dev :=
  let old := (v.lane n).rxCode
  (v.setLane n l).raiseIf (old != l.rxCode && l.rxEnable) (srcLane n 0) (old * 256 + l.rxCode)

/-- Whether blocks of a lane pass to the stream layer (R66). -/
def LaneSt.passes (l : LaneSt) : Bool := l.rx == .locked || l.rx == .idlePending

/-- Conditions 1 to 3 of R68 for a bond of `n` lanes: 0 when all hold, else the bond_error. -/
def Dev.bondJudge (s n : Nat) (v : Dev) : Nat :=
  let ls := (List.range n).map (fun i => v.lane (s + i))
  let idx := ls.map (·.laneIndex)
  if ls.any (fun l => !l.passes || l.polarity.isNone) then 3
  else if ls.any (fun l => l.bondSize != n) then 1
  else if idx != List.range n && idx != (List.range n).reverse then 2
  else 0

/-! ### Start, Dusk and the Dawn burst -/

/-- A TX direction starts at an instant: ALIGN with marker_count 0, then TRAIN (R60, R73), with negative disparity (R52); what its
assembler held is dropped. A disabled one stays idle (R83), and one in PRBS mode carries no blocks (R86). -/
def Dev.txStartAt (at_ n : Nat) (v : Dev) : Dev :=
  let l := v.lane n
  if l.txPattern != 0 then v.setLane n { l with startHeld := false }
  else if l.txEnable && (v.block (n / 32)).pll && v.blockOn (n / 32) then
    let v := match v.cfg.egressAt n with | some (e, _) => { v with txQueues := smErase e v.txQueues } | none => v
    ((v.setLane n { l with tx := .train, txStarted := at_, dwelling := false, exitHeld := false, enterHeld := none, startHeld := false }).setTxLine n
      { at_ := at_ }).emit (.driver n true)
  else v.setLane n { l with tx := .down, dwelling := false, exitHeld := false, enterHeld := none, startHeld := false }

/-- A TX direction starts now. -/
def Dev.txStart (n : Nat) (v : Dev) : Dev := v.txStartAt v.clk.now n

/-- The lanes of a bond start together, at the end of the block that the last of them is sending (R60, R129). No Dusk entry or dwell is cut
short: while one lane is in either, all wait (R75). -/
def Dev.bondStart (lanes : List Nat) (v : Dev) : Dev :=
  if lanes.any fun n => (v.lane n).tx == .dusk && (v.lane n).dwelling then
    lanes.foldl (fun v n => v.modLane n fun l => { l with startHeld := true }) v
  else
    let at_ := lanes.foldl (fun t n => if v.sends n then max t (v.txLine n).at_ else t) v.clk.now
    lanes.foldl (fun v n => v.txStartAt at_ n) v

/-- Dusk entry on a running lane (R75): four IDLE_ENTER blocks go in the slots that follow; the dwell begins with them. -/
def Dev.duskNow (n reason : Nat) (v : Dev) : Dev :=
  (v.modLane n fun l => { l with tx := .dusk, duskReason := reason, duskSince := v.clk.now, dwelling := true, exitHeld := false,
                                 enterHeld := none }).modTxLine n fun x => { x with idleLeft := 4 }

/-- A request to enter Dusk (R74, R78, R86). -/
def Dev.duskEnter (n reason : Nat) (v : Dev) : Dev :=
  let l := v.lane n
  if l.txPattern != 0 then v
  else match l.tx with
    | .run => v.duskNow n reason
    | .train | .burst => v.setLane n { l with enterHeld := some reason }
    | .dusk | .down => v

/-- The exit decision of a Dawn burst (R76): within 100 ns 15 TRAIN blocks with block_seq 1 to 15 and an ALIGN one marker on. -/
def Dev.burstNow (n : Nat) (v : Dev) : Dev :=
  let at_ := v.clk.now + Config.burstDelay (n / 32) % 400001
  ((v.modLane n fun l => { l with tx := .burst, dwelling := false, exitHeld := false }).modTxLine n fun x =>
    { x with at_ := at_, slot := 1009, rd := false, burstLeft := 16 }).emit (.driver n true)

/-- A request to leave Dusk (R76, R78): held while the entry and its dwell last; no action on a lane not in Dusk. -/
def Dev.duskExit (n : Nat) (v : Dev) : Dev :=
  let l := v.lane n
  if l.txPattern != 0 then v
  else match l.tx with
    | .dusk => if l.dwelling then v.setLane n { l with exitHeld := true } else v.burstNow n
    | .train | .burst | .run | .down => v

/-- Something for every lane of an egress stream's bond (R74). -/
def Dev.onBond (e : Nat) (f : Nat → Dev → Dev) (v : Dev) : Dev := (v.cfg.egressLanes e).foldl (fun v n => f n v) v

/-- A lane that an egress stream leaves sends NULL, or enters or stays in Dusk when tx_idle_unused is set (R64, R74, R129); a Dusk for
self-refresh ends with the stream, one that the host asked for stays. -/
def Dev.laneUnused (n : Nat) (v : Dev) : Dev :=
  let v := v.modLane n fun l => { l with startHeld := false }
  let l := v.lane n
  if l.txIdleUnused then v.duskEnter n 2 else if l.tx == .dusk && l.duskReason == 0 then v.duskExit n else v

/-! ### Cold bring-up -/

/-- The RX direction of a lane from HUNT; what locked it is forgotten (R65, R67). -/
def LaneSt.rxHunt (l : LaneSt) : LaneSt :=
  { l with rx := .hunt, verifyCount := 0, history := [], remaining := 0, pendingLeft := 0, relockGood := 0,
           polarity := none, expSeq := none, sinceAlign := none, alignTimes := [], fifo := [], collect := false, disparity := none }

/-- Both directions of a lane stopped (R50, R509, R548): nothing is driven or received. The cold bring-up that follows starts both from
HUNT and from TRAIN, so PRBS modes end here (DEDUCED from R50, log entry 21). -/
def LaneSt.stopped (l : LaneSt) : LaneSt :=
  { l.rxHunt with cdr := false, rxTail := (0, 0), rxPattern := 0, tx := .down, txPattern := 0, dwelling := false, exitHeld := false,
                  enterHeld := none, startHeld := false }

/-- A lane stops; EV.LANE.LOCK occurs when its reported RX state becomes DOWN (R50, R89). -/
def Dev.stopLane (n : Nat) (v : Dev) : Dev :=
  let l := v.lane n
  (if v.sends n then v.emit (.driver n false) else v).updLane n l.stopped

/-- A block stops all 32 lanes in both directions, counts no loss, and applies the board profile (R50, R82). -/
def Dev.stopBlock (b : Nat) (v : Dev) : Dev :=
  ((List.range 32).foldl (fun v i =>
    let n := 32 * b + i
    (v.stopLane n).modLane n fun l => { l with profile := (smFind n v.settings.live.profile).getD defaultProfile }) v).modBlock b
      fun x => { x with pll := false }

/-- The stream whose bond lies on a block, as R50 and R508 name it: ingress first. -/
def Cfg.streamOn (b : Nat) (c : Cfg) : Option (Nat × Nat) :=
  match c.ingress.find? (fun e => e.1 / 32 == b) with
  | some e => some (2, e.1)
  | none => (c.egress.find? (fun e => e.1 / 32 == b)).map (fun e => (3, e.1))

end Sys2Proof.Machine
end

