-- ==== Sys2Proof/Machine/Live.lean ====
section
/-! DEFINITION. What becoming live does at streams, capture channels, static surfaces and layer slots (R129, R174, R177, R182,
R183, R200), with the ledger entry of each (R456). -/
namespace Sys2Proof.Machine
open Sys2Proof

/-! ### Ingress streams (R129, R132) -/

/-- An ingress stream takes its due settings. -/
def Dev.ingressLive (s : Nat) (v : Dev) : Dev :=
  let due := v.due (.ingress s)
  if due.isEmpty then v
  else
    let old := smFind s v.cfg.ingress
    let v := v.goLive (.ingress s)
    let new := smFind s v.cfg.ingress
    let v := match old, new with
      | none, none => v
      | some _, none => (v.isLose s .off 0 (v.is s).bondError).modIs s fun x =>
          { x with bondError := 0, bonded := false, realign := false, epoch := none, held := none, accepted := false, fresh := false, rows := [], runOpen := false,
                   hunting := false, groups := [] }
      | none, some b => v.isLose s .down 0 (v.bondJudge s b.bondSize)
      | some a, some b =>
        if a.bondSize = b.bondSize then v
        else (v.isLose s .down 0 (v.bondJudge s b.bondSize)).modIs s fun x =>
          { x with bonded := false, realign := false, epoch := none, rows := [], runOpen := false, hunting := false }
    v.ledgerAll due 4 0 s 0

/-! ### Egress streams (R129) -/

/-- Whether a head is the odd one of a running pair. -/
def Cfg.pairOdd (h : Nat) (c : Cfg) : Bool :=
  h % 2 == 1 && (match (c.head (h - 1)).timing with | some t => t.tilePair == 1 | none => false)

/-- A head with the odd one of its pair. -/
def Cfg.headGroup (h : Nat) (c : Cfg) : List Nat :=
  match (c.head h).timing with
  | some t => if t.tilePair = 1 then [h, h + 1] else [h]
  | none => [h]

/-- The head whose raster a head runs: the even one of its pair. -/
def Cfg.rasterHead (h : Nat) (c : Cfg) : Nat := if c.pairOdd h then h - 1 else h

/-- Whether an egress stream carries frames: it is routed, its source forwards, and it is not in self-refresh (R129). -/
def Dev.carries (e : Nat) (v : Dev) : Bool :=
  match (v.cfg.route e).source with
  | .none => false
  | .ingress _ => (v.es e).forwarding && !(v.es e).inSr
  | .head h =>
    let r := v.head (v.cfg.rasterHead h)
    (v.cfg.head h).timing.isSome && (!r.inSr || r.srDue)

/-- An egress stream takes its due settings: a new bond starts with an empty assembler, lanes that leave send NULL or enter Dusk (R64, R74, R129). -/
def Dev.egressLive (e : Nat) (v : Dev) : Dev :=
  let due := v.due (.egress e)
  if due.isEmpty then v
  else
    let old := v.cfg.egressLanes e
    let v := v.goLive (.egress e)
    let new := v.cfg.egressLanes e
    let v := if old = new then v else { v with txQueues := smErase e v.txQueues }.bondStart new
    let v := (old.filter (fun n => !new.contains n)).foldl (fun v n => v.laneUnused n) v
    let (v, qs) := v.ledgerEgress e (due.filter fun k => !k.hasTake e)
    v.modEs e fun x => { x with cfgLedger := x.cfgLedger ++ qs }

/-! ### Capture channels (R174, R177) -/

/-- Whether a change of a capture record changes what the ring is (R174). -/
def CapCfg.sameRing (a b : CapCfg) : Bool :=
  a.storage == b.storage && a.ringLen == b.ringLen && a.ringBase == b.ringBase && a.pitchBytes == b.pitchBytes && a.slotBytes == b.slotBytes
    && a.cropX == b.cropX && a.cropY == b.cropY && a.cropWidth == b.cropWidth && a.cropHeight == b.cropHeight

/-- Every surface of a ring becomes EMPTY. -/
def Dev.emptyRing (c : Nat) (v : Dev) : Dev :=
  { v with rings := v.rings.filter (fun r => r.1 / 16 != c) }.modCap c fun x => { x with lastSlot := none, newest := none, writing := none }

/-- A capture channel takes some commits; `frame` is the number of the FRAME_START at B, or 0. -/
def Dev.captureTakes (due : List Commit) (c : Nat) (frame : U32) (v : Dev) : Dev :=
  if due.isEmpty then v
  else
    let old := smFind c v.cfg.caps
    let v := v.takeCommits due [.capture c]
    let v := match old, smFind c v.cfg.caps with
      | some a, some b =>
        let v := if a.enable = 1 && b.enable = 0 then v.cutCaptures (· == c) else v
        if a.sameRing b then v else v.emptyRing c
      | _, _ => v.emptyRing c
    v.ledgerAll due 2 0 c frame

/-- A capture channel takes the settings that are due now. -/
def Dev.captureLive (c : Nat) (frame : U32) (v : Dev) : Dev := v.captureTakes (v.due (.capture c)) c frame

/-- A capture channel at a FRAME_START with a frame-start timestamp: it takes the commits whose E that timestamp has reached (R174). -/
def Dev.captureFrame (c q : Nat) (frame : U32) (v : Dev) : Dev :=
  v.captureTakes ((v.due (.capture c)).filter fun k => decide (k.effective ≤ uOfQ q)) c frame

/-! ### Static surfaces (R182) -/

/-- A static surface takes its due settings: a sealed one is stamped with the time of the seal (R160). -/
def Dev.surfaceLive (n : Nat) (v : Dev) : Dev :=
  let due := v.due (.surface n)
  if due.isEmpty then v
  else
    let old := (smFind n v.cfg.statics).map (·.state)
    let v := v.goLive (.surface n)
    let v := match smFind n v.cfg.statics with
      | some x =>
        if x.state == SurfState.sealed && old != some SurfState.sealed then
          { v with cfg := { v.cfg with statics := smPut n { x with completeQ := v.nowQ } v.cfg.statics } }
        else v
      | none => v
    v.ledgerAll due 5 0 n 0

/-! ### Layer slots (R183, R200) -/

/-- What new settings of a slot do to its selection: a new source starts it afresh, a new sync mode, field mode or cadence restarts
it and keeps the pins, and a PRBS23 source whose setting becomes live is seeded (R183, R185, R217). -/
def layerEffect (a b : SlotCfg) (l : LayerSt) : LayerSt :=
  let l := match a.layer, b.layer with
    | some x, some y =>
      if x.sourceKind != y.sourceKind || (y.sourceKind != 2 && x.source != y.source) then
        { l with shown := [], pins := [], selected := false, ready := false, cur := none, idx := 0, rem := 0, blendB := none, bound := none,
                 fallback := none, lastBegun := none, policyActs := false, lineActs := false, prev := [] }
      else if x.syncMode != y.syncMode || x.fieldMode != y.fieldMode || x.cadenceLen != y.cadenceLen || x.cadencePattern != y.cadencePattern then
        { l with shown := [], prev := [], selected := false, cur := none, idx := 0, rem := 0, blendB := none, bound := none, fallback := none,
                 lastBegun := none }
      else l
    | _, _ => { l with shown := [], pins := [], selected := false, ready := false, cur := none, idx := 0, rem := 0, blendB := none,
                       bound := none, fallback := none, lastBegun := none, policyActs := false, lineActs := false, prev := [], short := false }
  let live := match b.layer with | some y => y.sourceKind == 2 && (a.synthLoads != b.synthLoads || (a.layer.map (·.sourceKind)) != some 2) | none => false
  if live && b.synth.kind == 4 then { l with prbs := b.synth.prbsSeed } else l

/-- The slots that differ between two configurations. -/
def changedSlots (a b : Cfg) : List Nat := (b.slots.map (·.1)).filter fun n => a.slot n != b.slot n

/-- The runtime side of every slot that changed. -/
def Dev.layersLive (old : Cfg) (v : Dev) : Dev :=
  (changedSlots old v.cfg).foldl (fun v n => v.modLayer n (layerEffect (old.slot n) (v.cfg.slot n))) v

/-- A slot without a head takes its due settings (R200). -/
def Dev.slotLive (n : Nat) (v : Dev) : Dev :=
  let due := v.due (.slot n)
  if due.isEmpty then v
  else
    let old := v.cfg
    ((v.goLive (.slot n)).layersLive old).ledgerAll due 6 0 n 0

/-! ### Boundaries that come when a stream stops (R129, R174) -/

/-- Settings whose unit waits for frames become live once it carries none: an ingress stream and its capture channel that are not
LOCKED, an egress stream that carries no frame. -/
def Dev.settle (s : Nat) (v : Dev) : Dev :=
  let fed := v.cfg.fedBy (.ingress s)
  let v := if (v.is s).state == .locked then v else (v.ingressLive s).captureLive s 0
  fed.foldl (fun v e => if v.carries e then v else v.egressLive e) v

end Sys2Proof.Machine
end

