-- ==== Sys2Proof/Machine/Forward.lean ====
section
/-! DEFINITION. The crosspoint: packets handed to egress streams, with the counters, events and take bookkeeping that go with
them (R23, R119, R133, R145, R152, R153, R157). -/
namespace Sys2Proof.Machine
open Sys2Proof

/-- Whether every lane of an egress stream carries DATA: none is in its TRAIN period, a Dawn burst or Dusk (R73, R76, R91). -/
def Dev.lanesRun (e : Nat) (v : Dev) : Bool := (v.cfg.egressLanes e).all fun n => (v.lane n).tx == .run

/-- Whether packets of an egress stream leave the device: its lanes are not held in Dusk (R74, R123), and every one carries DATA (R91). -/
def Dev.txFlows (e : Nat) (v : Dev) : Bool := !(v.es e).hostDusk && v.lanesRun e

/-- The constant delay of a direct route in picoseconds (R20): a base delay of 0.60 to 1.80 us that depends on rates and bond sizes,
and the deskew delay of the ingress bond. -/
def Dev.routeDelayPs (s e : Nat) (v : Dev) : Nat :=
  let inRate := (v.block (s / 32)).rateCode
  let outRate := (v.block (e / 32)).rateCode
  let inBond := ((smFind s v.cfg.ingress).map (·.bondSize)).getD 1
  let outBond := ((smFind e v.cfg.egress).map (·.bondSize)).getD 1
  600000 + Config.baseDelayPs inRate inBond outRate outBond % 1200001 + (v.is s).deskewDelay * blockQ inRate / 4

/-- EV.EGRESS.TAKE of a take (R153, R450). -/
def Dev.takeRaise (e : Nat) (t : TakeCfg) (delta : Int) (outcome : Nat) (v : Dev) : Dev :=
  v.raise (srcEgress e 0) (sBits 32 delta * 2 ^ 32 + outcome * 2 ^ 24 + t.sourceKind * 2 ^ 16 + t.source)

/-- EV.EGRESS.TAKE of the take whose route stands (R153). -/
def Dev.takeEvent (e : Nat) (delta : Int) (outcome : Nat) (v : Dev) : Dev := v.takeRaise e (v.cfg.route e).take delta outcome

/-- irregular_delta_ns (R152): reported when it exceeds 1 us. -/
def irregularDelta (a : AwaitTake) (now : Nat) : Int :=
  match a.oldStartT with
  | some t0 =>
    let d : Int := (now : Int) - t0 - a.oldPeriod
    if d > usQ || d < -(usQ : Int) then (d + 2000) / 4000 else 0
  | none => 0

/-- A FRAME_START that leaves on an egress stream: the first after a STREAM.CONFIG gives its ledger entries their frame_number (R456). -/
def Dev.frameLeaves (e number : Nat) (v : Dev) : Dev :=
  let x := v.es e
  let v := x.cfgLedger.foldl (fun v q => v.ledgerFill q (BitVec.ofNat 32 number)) v
  v.setEs e { x with cfgLedger := [], txFrames := x.txFrames + 1 }

/-- O of an egress stream in quarter picoseconds (R113). -/
def Dev.presQ (e : Nat) (v : Dev) : Int := 4000 * (((smFind e v.cfg.egress).map (·.presOffsetNs)).getD 0 : Nat)

/-- The switch point of a take, when the first frame forwarded from its source passes: that frame's presentation time, or the head's active
start, and O (R303). The stream's sample clocks move there too (R289). -/
def Dev.switchKnown (e : Nat) (v : Dev) : Dev :=
  let x := v.es e
  if !x.switchWait then v
  else
    let p : Nat := match (v.cfg.route e).source with
      | .ingress s => (((v.is s).frame).map (·.presentQ)).getD v.nowQ
      | .head h => (v.head (v.cfg.rasterHead h)).activeQ
      | .none => v.nowQ
    v.setEs e { x with switchWait := false, switchQ := some (p + v.presQ e), tcMoveQ := some (p + v.presQ e) }

/-- A FRAME_START passes the crosspoint: the first after a take or a resumption has become known (R152, R153, R456), whether or not the
lanes carry it. -/
def Dev.frameSent (e number : Nat) (v : Dev) : Dev :=
  let v := if v.txFlows e then v.frameLeaves e number else v
  let x := v.es e
  let v := (v.setEs e { x with lastStartT := some v.clk.now }).switchKnown e
  match x.await_ with
  | some a =>
    let delta := irregularDelta a v.clk.now
    let v := match a.ledgerSeq with | some q => v.ledgerFill q (BitVec.ofNat 32 number) | none => v
    (v.modEs e fun x => { x with await_ := none, takeFrame := BitVec.ofNat 32 number, delta := delta }).takeEvent e delta 1
  | none => v

/-- Whether an egress stream has a head for its source. -/
def Cfg.headSourced (e : Nat) (c : Cfg) : Bool := match (c.route e).source with | .head _ => true | _ => false

/-- EV.EGRESS.SR (R153): an egress stream carries SR_ENTER or SR_EXIT. Behind a head's SR_ENTER with dusk 1 it waits for SR_EXIT (R123). -/
def Dev.srSent (e dusk : Nat) (enter : Bool) (v : Dev) : Dev :=
  (v.modEs e fun x => { x with inSr := enter, srDusk := enter && dusk == 1 && v.cfg.headSourced e }).raise (srcEgress e 1) (dusk * 256 + b01 enter)

/-- The time from the crosspoint to the pins, quarter picoseconds: the constant delay of a direct route (R20), and from a head the
assembler's latency, which R255 bounds by 2 us. -/
def Dev.egressLatQ (e : Nat) (v : Dev) : Nat :=
  match (v.cfg.route e).source with
  | .ingress _ => 4 * (v.es e).delayPs
  | _ => Config.egressLatency e % (2 * usQ + 1)

/-- The earliest frame start of an egress frame that passes the crosspoint now, quarter picoseconds (R460): the assembler states the
start itself once the FRAME_START has left. -/
def Dev.egressStartQ (e : Nat) (v : Dev) : Nat := v.nowQ + v.egressLatQ e + (v.lane e).txTrace

/-- Bits and pixels of a group of a line under a FORMAT (R104). -/
def Desc.lineGroup (line : Nat) (d : Desc) : Nat × Nat :=
  let chroma := (if d.scan = 0 then line else line / 2) % 2 == 0
  (groupValues d.colourFormat chroma * d.bitDepth, groupPixels d.colourFormat)

/-- A packet that the stream's assembler is to send, where its lanes carry DATA (R90, R91, R93). -/
def Dev.txEnqueue (e type : Nat) (p : List Byte) (v : Dev) : Dev :=
  let x : TxEntry := { ready := v.clk.now + v.egressLatQ e, type := type, payload := p,
                       group := if type = 3 then (readDesc (v.es e).descBody 0).lineGroup (fieldU p 0 2) else (0, 0) }
  v.modTxQueue e fun q => { q with queue := q.queue ++ [x], startQ := if type = 2 then none else q.startQ }

/-- A packet handed to an egress stream. -/
def State.toEgress (e type : Nat) (p : List Byte) (s : State) : State :=
  let s := if type = 1 then s.onDev fun v => (v.egressLive e).modEs e (fun x => { x with descId := fieldU p 0 1, descBody := p }) else s
  let s := match type with
    | 2 => s.onDev fun v => (v.frameSent e (fieldU p 0 4)).probeStart 1 e (readDesc (v.es e).descBody 0) p (v.egressStartQ e)
    | 3 => s.probeLine 1 e p
    | 4 => s.onDev (Dev.probeFinish 1 e true p)
    | 8 => s.onDev (Dev.srSent e (fieldU p 9 1) true)
    | 9 => s.onDev (Dev.srSent e 0 false)
    | _ => s
  s.onDev fun v =>
    if v.txFlows e then ((v.modEs e fun x => { x with txPackets := x.txPackets + 1 }).txEnqueue e type p).emit (.packet e type p) else v

/-- Forwarding of an ingress stream starts on an egress stream at a FORMAT while it is LOCKED, or at SR_EXIT after a take to a stream
in self-refresh (R133, R148). Where no take waits, this is a resumption with a new delay (R157). -/
def Dev.startForward (s e : Nat) (v : Dev) : Dev :=
  v.modEs e fun x =>
    { x with forwarding := true, inSr := false, delayPs := v.routeDelayPs s e,
             await_ := some (x.await_.getD {}), takeTime := if x.await_.isNone then v.nowU else x.takeTime,
             outcome := if x.await_.isNone then 1 else x.outcome }

/-- An intact packet of an ingress stream goes to every egress stream that it feeds (R133, R146): AUDIO not where the audio engine
has a channel (R23); forwarding starts at a FORMAT, or at SR_EXIT. -/
def State.forward (n type : Nat) (p : List Byte) (s : State) : State :=
  (s.dev.cfg.fedBy (.ingress n)).foldl (fun s e =>
    let v := s.dev
    let starts := !(v.es e).forwarding && ((type == 1 && (v.is n).state == .locked) || (type == 9 && (v.is n).state == .selfRefresh))
    let s := if starts then s.onDev (Dev.startForward n e) else s
    if (s.dev.es e).forwarding && !(type == 5 && s.dev.cfg.hasAudio e) then s.toEgress e type p else s) s

end Sys2Proof.Machine
end

