-- ==== Sys2Proof/Machine/Ingress.lean ====
section
/-! DEFINITION. The packets of an ingress stream (R97 to R124, R130 to R142), the parser's hunt (R118), the stream's timers
(R132, R138), and the capture of frames into rings (R175, R176). -/
namespace Sys2Proof.Machine
open Sys2Proof

/-! ### Capture (R175, R176) -/

/-- The part of a frame that a channel captures (R175): left edge, width, first row and rows of the frame or field. -/
def captureRect (c : CapCfg) (d : Desc) (field : Nat) : Nat × Nat × Nat × Nat :=
  let ax := if subsampled d.colourFormat then 2 else 1
  let ay := if d.colourFormat = 3 then (if d.scan = 0 then 2 else 4) else if subsampled d.colourFormat && d.scan != 0 then 2 else 1
  let cx := c.cropX / ax * ax
  let cy := c.cropY / ay * ay
  let right := if c.cropWidth = 0 then d.width else min d.width (cx + c.cropWidth / ax * ax)
  let bottom := if c.cropHeight = 0 then d.height else min d.height (cy + c.cropHeight / ay * ay)
  if field = 0 then (cx, right - cx, cy, bottom - cy)
  else
    let par := field - 1
    let r0 := (cy + 1 - par) / 2
    (cx, right - cx, r0, (bottom + 1 - par) / 2 - r0)

/-- slot_bytes computed from the expected descriptor (R173). -/
def capSlotBytes (c : CapCfg) (x : Desc) : Nat :=
  let r := captureRect c x 0
  let h := if x.scan = 0 then r.2.2.2 else ceilDiv r.2.2.2 2
  ceilDiv (surfaceSize c.storage x.colourFormat x.bitDepth r.2.1 h
    (if c.pitchBytes = 0 then minPitch x.colourFormat x.bitDepth r.2.1 else c.pitchBytes)) 4096 * 4096

/-- slot_bytes in force (R172). -/
def capSlot (c : CapCfg) (x : Desc) : Nat := if c.slotBytes = 0 then capSlotBytes c x else c.slotBytes

/-- Whether a surface is pinned by some layer (R185). -/
def Dev.pinned (n : Nat) (v : Dev) : Bool := v.layers.any (fun l => l.2.pins.contains n)

/-- The slot for the next frame (R175 step 4): in ring order from the one after the last written, neither pinned nor newest COMPLETE. -/
def Dev.freeSlot (c : Nat) (len : Nat) (v : Dev) : Option Nat :=
  let st := v.cap c
  let start := match st.lastSlot with | some i => i + 1 | none => 0
  ((List.range len).map (fun i => (start + i) % len)).find? fun i => !v.pinned (16 * c + i) && st.newest != some (16 * c + i)

/-- A frame that the stream forwards starts on its capture channel (R175). -/
def Dev.startCapture (n : Nat) (f : FrameRx) (v : Dev) : Dev :=
  match smFind n v.cfg.caps, smFind n v.cfg.ingress with
  | some c, some ic =>
    if c.enable != 1 then v
    else
      let d := f.meter.desc
      let (x0, w, y0, h) := captureRect c d f.meter.field
      if w = 0 || h = 0 then v.modCap n fun k => { k with cropEmpty := satInc k.cropEmpty }
      else
        let pitch := if c.storage = 1 then 0 else if c.pitchBytes = 0 then minPitch d.colourFormat d.bitDepth w else c.pitchBytes
        let size := surfaceSize c.storage d.colourFormat d.bitDepth w h pitch
        let slotBytes := capSlot c ic.expected
        if size > slotBytes || (c.storage = 0 && c.pitchBytes != 0 && lineBytes d.colourFormat d.bitDepth w > c.pitchBytes) then
          v.modCap n fun k => { k with oversize := satInc k.oversize }
        else match v.freeSlot n c.ringLen with
          | none => v.modCap n fun k => { k with ringFull := satInc k.ringFull }
          | some i =>
            let surf := 16 * n + i
            let st : SurfaceSt :=
              { state := .writing, marks := if f.meter.field = 0 then 0 else if f.meter.field = 2 then 6 else 4, storage := c.storage,
                colourFormat := d.colourFormat, bitDepth := d.bitDepth, width := w, height := h, pitch := pitch,
                base := c.ringBase + i * slotBytes, size := size, frameNumber := f.frameNumber, startQ := f.startQ, cropX := x0, cropY := y0,
                presentQ := f.presentQ }
            ((v.setRing surf st).modCap n fun k => { k with lastSlot := some i, writing := some surf, newest := if k.newest = some surf then none else k.newest }).modIs n
              fun x => { x with frame := x.frame.map (fun f => { f with surface := some surf }) }
  | _, _ => v

/-- A whole line of the frame in progress is written into the surface being captured: a RAW line at once, MTF tiles when the
tile row is whole or the last line has come (R176). A write is acknowledged at the instant of the packet that brings its last byte
(DESIGN CHOICE, log entry 38). -/
def State.captureLine (n line : Nat) (vals : List (List Nat)) (s : State) : State :=
  match (s.dev.is n).frame with
  | none => s
  | some f => match f.surface with
    | none => s
    | some k =>
      let x := s.dev.ring k
      let row := rowOf f.meter.field line
      if x.state != .writing || row < x.cropY || x.cropY + x.height ≤ row then s
      else
        let y := row - x.cropY
        let fmt := x.colourFormat
        let cut := (List.range 3).map fun j =>
          let step := if j > 0 && subsampled fmt then 2 else 1
          ((vals.getD j []).drop (x.cropX / step)).take (x.width / step)
        let master := n / 32
        if x.storage = 0 then
          { s with mem := writeRawLine x y cut s.mem,
                   dev := (x.rawWritten y).foldl (fun v g => (v.access master g.1 g.2).healBeats g.1 g.2)
                     (s.dev.setRing k { x with written := y + 1, ackQ := s.dev.nowQ }) }
        else
          let buf := x.tileBuf ++ [cut]
          if y % 4 = 3 || y + 1 = x.height then
            let mem := writeTileRow x (y / 4) buf s.mem
            { s with mem := mem,
                     dev := (x.tileRowData mem (y / 4)).foldl (fun v g => (v.access master g.1 g.2).healBeats g.1 g.2)
                       (s.dev.setRing k { x with written := 4 * (y / 4 + 1), tileBuf := [], ackQ := s.dev.nowQ }) }
          else s.onDev (Dev.setRing k { x with tileBuf := buf })

/-! ### What packet rows share -/

/-- Whether packets of a stream are parsed: it is configured and its bond is formed (R68, R131). -/
def Dev.parses (n : Nat) (v : Dev) : Bool := v.mediaOn && v.blockOn (n / 32) && (v.is n).state != .off && (v.is n).state != .down

/-- A packet row: its bytes leave the stream's delivered bytes, a packet with lost bytes is damaged (R117), an intact one is counted
(R120) and judged by `body`. A damaged FORMAT, FRAME_START, VIDEO_LINE or FRAME_END leaves the frame incomplete. -/
def packetRow (t n type : Nat) (p : Packet) (body : State → State) (s : State) : State :=
  let s := s.arrive t
  if !s.dev.parses n then s
  else
    let s := s.onDev (Dev.modIs n (IngressSt.take (4 + p.payload.length)))
    let s := if p.lost then s.onDev fun v =>
          let v := v.isCount n fun x => { x with damaged := satInc x.damaged }
          let v := if type = 1 then v.modIs n (fun x => { x with fresh := false }) else v
          if type ≤ 4 then v.breakFrame n else v
        else body (s.onDev (Dev.modIs n fun x => { x with rxPackets := x.rxPackets + 1 }))
    let s := if type ≤ 4 then s.onDev (Dev.modIs n fun x => { x with exBytes := x.exBytes + 4 + p.payload.length }) else s
    s.onDev (Dev.settle n)

/-- A malformed packet (R117): skipped; a FORMAT, FRAME_START or VIDEO_LINE leaves the frame in progress incomplete. -/
def Dev.malformedPacket (n type : Nat) (v : Dev) : Dev :=
  let v := v.isCount n fun x => { x with malformed := satInc x.malformed }
  let v := if type = 1 then v.modIs n (fun x => { x with fresh := false }) else v
  if type ≤ 3 then v.breakFrame n else v

/-- An order error (R117). -/
def Dev.orderError (n : Nat) (v : Dev) : Dev := v.isCount n fun x => { x with orderErrs := satInc x.orderErrs }

/-! ### FORMAT (R101, R117, R130, R132, R136, R147) -/

/-- A valid FORMAT is held and judged. EV.INGRESS.FORMAT occurs at the first accepted FORMAT too, when none is held: R136 speaks of one
that replaces the held one (DESIGN CHOICE, log entry 26). The mean of R137 goes on over a descriptor change; only SEARCH restarts it. -/
def Dev.holdFormat (n : Nat) (d : Desc) (v : Dev) : Dev :=
  match smFind n v.cfg.ingress with
  | none => v
  | some c =>
    let x := v.is n
    let newId := match x.held with | some h => h.descriptorId != d.descriptorId | none => true
    let ok := accepts c d
    let gaps := match x.endX with | some q => (x.gaps ++ [v.clk.now - q]) | none => x.gaps
    let v := v.setIs n { x with held := some d, fresh := true, accepted := ok, gaps := gaps.drop (gaps.length - 16), endX := none,
                                uwFrame := if newId then none else x.uwFrame, uwClock := if newId then none else x.uwClock,
                                lastStart := if newId then none else x.lastStart, lastOkStart := if newId then none else x.lastOkStart,
                                goodFrames := if newId then 0 else x.goodFrames,
                                reanchor := if newId then ok && (x.anchor.isSome || x.state == .locked) else x.reanchor }
    if ok then
      let v := v.raiseIf newId (srcIngress n 1) d.descriptorId
      if x.state == .mismatch then v.isLose n .search 0 0 else v
    else if x.state == .search || x.state == .locked then v.isLose n .mismatch 1 0 else v

/-- The work of an intact FORMAT; in SELF_REFRESH it is held and not forwarded (R131). -/
def formatIn (n : Nat) (p : List Byte) (s : State) : State :=
  let s := s.onDev (Dev.ingressLive n)
  if !s.dev.parses n then s
  else
    let d := readDesc p 0
    let x := s.dev.is n
    let clash := match x.held with | some h => h.descriptorId == d.descriptorId && h != d | none => false
    if p.length != 32 || !d.valid false || clash then s.onDev (Dev.malformedPacket n 1)
    else
      let s := if x.frame.isSome then s.onDev fun v => (v.orderError n).endIncomplete n else s
      let s := s.onDev (Dev.holdFormat n d)
      let s := s.onDev (Dev.modIs n fun x => { x with formatLocked := x.state == .locked })
      if (s.dev.is n).accepted && (s.dev.is n).state != .selfRefresh then s.forward n 1 p else s

/-- FORMAT (R130). -/
def execFormat (t : Nat) (stream : Fin 512) (p : Packet) (s : State) : Result :=
  .next (packetRow t stream 1 p (formatIn stream p.payload) s)

/-! ### FRAME_START (R102, R117, R132, R137, R139, R141) -/

/-- The single-interval check of R137, in exact arithmetic. -/
def intervalOk (c : IngressCfg) (d : Desc) (delta : Nat) : Bool :=
  let den := d.rateNum * d.fields
  let diff : Nat := ((delta * den : Int) - (secQ * d.rateDen : Nat)).natAbs
  decide (diff * 1000000 ≤ secQ * d.rateDen * c.rateTolPpm + c.jitterAllowNs * 4000 * 1000000 * den)

/-- The mean-period check of R137 over 16 intervals. -/
def meanOk (c : IngressCfg) (d : Desc) (xs : List Nat) : Bool :=
  let den := d.rateNum * d.fields
  let diff : Nat := ((xs.sum * den : Int) - (16 * secQ * d.rateDen : Nat)).natAbs
  decide (diff * 1000000 ≤ 16 * secQ * d.rateDen * c.rateTolPpm)

/-- The period checks at a FRAME_START (R137): the interval from the previous start, unless the later frame is flagged or device time has
been stepped in between (R140). -/
def Dev.periodCheck (n : Nat) (startQ flags : Nat) (v : Dev) : Dev :=
  match smFind n v.cfg.ingress with
  | none => v
  | some c =>
    let x := v.is n
    match x.lastStart, x.held with
    | some q, some d =>
      if c.rateTolPpm = 0 || bit flags 1 || bit flags 2 || x.stepped then v
      else
        let delta := startQ - q
        let v := if intervalOk c d delta then v
          else v.modIs n fun x => { x with periodErrors := satInc x.periodErrors,
                                           frame := x.frame.map (fun f => if f.whole then { f with hurtBits := 4 ||| f.hurtBits } else f) }
        let xs := (x.intervals ++ [delta]).drop ((x.intervals.length + 1) - 16)
        let v := v.modIs n fun x => { x with intervals := xs, checked := x.checked + 1 }
        if xs.length = 16 && x.state == .locked && !meanOk c d xs then v.isLose n .mismatch 2 0 else v
    | _, _ => v

/-- The work of an intact FRAME_START. A frame is forwarded and captured when its FORMAT came while the stream was LOCKED (R133); the
start of one that ends SELF_REFRESH bounds no interval (R137). -/
def frameStartIn (n : Nat) (p : List Byte) (s : State) : State :=
  let field := fieldU p 10 1
  if p.length != 12 || field > 2 then s.onDev (Dev.malformedPacket n 2)
  else
    let s := if (s.dev.is n).frame.isSome then s.onDev fun v => (v.orderError n).endIncomplete n else s
    let inSr := (s.dev.is n).state == .selfRefresh
    let s := if inSr then s.onDev (Dev.isTo n .locked 0 0) else s
    let v := s.dev
    let x := v.is n
    let startQ := v.nowQ - (v.lane (v.headLane n)).rxTrace
    let ts := fieldU p 4 5
    let number := fieldU p 0 4
    let d := x.held.getD {}
    let known := match x.held with | some h => h.descriptorId == fieldU p 9 1 | none => false
    let anchors := d.tsScale == 0 && known && x.reanchor
    let val : Int := v.unwrapTs d.tsScale x.uwFrame x.uwAny (d.periodQ / 4) ts
    let present : Nat := if d.tsScale = 0 && (anchors || x.anchor.isNone) then startQ else (x.toDeviceQ d.tsScale val).toNat
    let u : Unwrap := { value := val, at_ := v.clk.now, scale := d.tsScale }
    let whole := known && x.fresh
    let f : FrameRx := { frameNumber := number, startQ := startQ, presentQ := present, flags := fieldU p 11 1, whole := true, discard := !known,
                         inLocked := x.state == .locked && x.formatLocked && x.accepted, ts := ts, meter := { desc := d, field := field } }
    let delays := x.xDelays ++ [(v.nowQ : Int) - startQ]
    let x := ({ x with frame := some f, fresh := false, lastStartT := v.clk.now, uwFrame := some u,
                       xDelays := delays.drop (delays.length - 16) } : IngressSt).sawTs u
    let v := v.setIs n (if anchors then x.setAnchor { ts := ts, q := startQ } v.clk.now else x)
    let v := if whole then v else v.breakFrame n
    let v := v.periodCheck n startQ f.flags
    let v := v.modIs n fun x => { x with lastStart := if inSr then none else some startQ, stepped := false }
    let s := { s with dev := v }
    if known && f.inLocked && (v.is n).state == .locked then
      let s := s.onDev fun v => ((v.captureFrame n startQ (BitVec.ofNat 32 number)).startCapture n f).probeStart 0 n d p startQ
      s.forward n 2 p
    else s

/-- FRAME_START (R139). -/
def execFrameStart (t : Nat) (stream : Fin 512) (p : Packet) (s : State) : Result :=
  .next (packetRow t stream 2 p (frameStartIn stream p.payload) s)

/-! ### VIDEO_LINE (R103, R117) -/

/-- Whether a VIDEO_LINE outside a frame is well formed: by its length, and by the held FORMAT for a field of some kind (R103, R117). -/
def strayLineValid (held : Option Desc) (p : List Byte) : Bool :=
  decide (9 ≤ p.length) && (match held with | some d => (List.range 3).any fun k => lineValid d k p | none => fieldU p 4 2 != 0)

/-- The work of an intact VIDEO_LINE. -/
def videoLineIn (n : Nat) (p : List Byte) (s : State) : State :=
  match (s.dev.is n).frame with
  | none => s.onDev (if strayLineValid (s.dev.is n).held p then Dev.orderError n else Dev.malformedPacket n 3)
  | some f =>
    if f.discard then s
    else if !lineValid f.meter.desc f.meter.field p then s.onDev (Dev.malformedPacket n 3)
    else if !f.meter.inOrder (fieldU p 0 2) (fieldU p 2 2) then s.onDev fun v => (v.orderError n).breakFrame n
    else
      let st := f.meter.add p
      let s := s.onDev (Dev.modIs n fun x => { x with frame := x.frame.map (fun f => { f with meter := st.1 }) })
      let s := match st.2 with | some l => s.captureLine n l.1 l.2 | none => s
      if f.inLocked && (s.dev.is n).state == .locked then (s.probeLine 0 n p).forward n 3 p else s

/-- VIDEO_LINE (R103). -/
def execVideoLine (t : Nat) (stream : Fin 512) (p : Packet) (s : State) : Result :=
  .next (packetRow t stream 3 p (videoLineIn stream p.payload) s)

/-! ### FRAME_END (R105, R117, R132, R134) -/

/-- A frame completes: CRCs are compared, the anchor is set where there is none, its capture ends, and two in a row lock a stream
in SEARCH (R117, R132, R134, R141). -/
def Dev.completeFrame (n : Nat) (f : FrameRx) (e : FrameEnd) (v : Dev) : Dev :=
  match smFind n v.cfg.ingress with
  | none => v
  | some c =>
    let failed := c.crcCheck = 1 && (crcResults f.meter (some e)).any (· == 2)
    let v := if failed then v.modIs n fun x => { x with crcMismatches := satInc x.crcMismatches } else v
    let bits := f.hurtBits ||| (if failed then 2 else 0)
    let v := if bits != 0 then v.integrity n bits f.frameNumber else v
    let v := v.endCapture n true failed
    let x := v.is n
    let flagged := bit f.flags 1 || bit f.flags 2
    let ivOk := c.rateTolPpm = 0 || flagged || (match x.lastOkStart with | some q => intervalOk c f.meter.desc (f.startQ - q) | none => false)
    let locks := x.state == .search && x.accepted && x.goodFrames ≥ 1 && ivOk
    let x := { x with frame := none, badFrames := 0, goodFrames := x.goodFrames + 1,
                      lastOkStart := if f.stepped then none else some f.startQ,
                      lastNo := f.frameNumber, lastFrameQ := f.startQ, lastPresentQ := f.presentQ, endX := some v.clk.now }
    let v := v.setIs n (if f.meter.desc.tsScale = 0 && x.anchor.isNone then
        x.setAnchor { ts := f.ts, q := f.startQ } ((x.uwFrame.map (·.at_)).getD v.clk.now) else x)
    if locks then v.isTo n .locked 0 0 else v

/-- The work of an intact FRAME_END. -/
def frameEndIn (n : Nat) (p : List Byte) (s : State) : State :=
  if p.length != 20 then s.onDev (Dev.malformedPacket n 4)
  else match (s.dev.is n).frame with
    | none => s.onDev (Dev.orderError n)
    | some f =>
      if f.discard then s.onDev (Dev.endIncomplete n)
      else
        let e := readFrameEnd p
        let live := f.inLocked && (s.dev.is n).state == .locked
        let fits := e.frameNumber == f.frameNumber && e.linesSent == f.meter.lines
        let s := if fits then s else s.onDev (Dev.orderError n)
        let whole := f.whole && fits && f.meter.lines == f.meter.desc.frameLines
        let s := if live then (s.onDev (Dev.probeFinish 0 n f.whole p)).forward n 4 p else s
        let s := if whole then s.onDev (Dev.completeFrame n f e) else s.onDev (Dev.endIncomplete n)
        s.onDev (Dev.modIs n fun x => { x with endX := some s.dev.clk.now, lastEndX := some s.dev.clk.now })

/-- FRAME_END (R117). -/
def execFrameEnd (t : Nat) (stream : Fin 512) (p : Packet) (s : State) : Result :=
  .next (packetRow t stream 4 p (frameEndIn stream p.payload) s)

/-! ### CLOCK_INFO, AUX, IDLE (R108 to R110) -/

/-- The work of an intact CLOCK_INFO: its ts40 is unwrapped and it is forwarded. -/
def clockInfoIn (n : Nat) (p : List Byte) (s : State) : State :=
  if p.length != 12 then s.onDev (Dev.malformedPacket n 6)
  else
    let s := s.onDev fun v =>
      let x := v.is n
      let d := x.held.getD {}
      let restart := bit (fieldU p 11 1) 1
      let val := v.unwrapTs d.tsScale x.uwClock x.uwAny 0 (fieldU p 6 5)
      let u : Unwrap := { value := val, at_ := v.clk.now, scale := d.tsScale }
      let prev := if restart then none else x.pixelCount
      let raw := fieldU p 0 6
      let count := match prev with | some c => c.1 + (raw + 2 ^ 48 - c.1 % 2 ^ 48) % 2 ^ 48 | none => raw
      let valid := bit (fieldU p 11 1) 0
      let q := (x.toDeviceQ d.tsScale val).toNat
      let y := { x with uwClock := some u, pixelCount := some (count, q), clockSeenT := if valid then some v.clk.now else x.clockSeenT }
      let v := v.setIs n (y.sawTs u)
      if valid && (x.state == .locked || x.state == .selfRefresh) then v.lrcSample n q count restart else v
    s.forward n 6 p

/-- CLOCK_INFO (R108). -/
def execClockInfo (t : Nat) (stream : Fin 512) (p : Packet) (s : State) : Result :=
  .next (packetRow t stream 6 p (clockInfoIn stream p.payload) s)

/-- AUX (R109): forwarded in order. -/
def execAux (t : Nat) (stream : Fin 512) (p : Packet) (s : State) : Result :=
  .next (packetRow t stream 7 p
    (fun s => if p.payload.length > 8192 then s.onDev (Dev.malformedPacket stream 7) else s.forward stream 7 p.payload) s)

/-- IDLE (R110): discarded. -/
def execIdle (t : Nat) (stream : Fin 512) (p : Packet) (s : State) : Result := .next (packetRow t stream 15 p (fun s => s) s)

/-! ### Self-refresh (R111, R124, R132, R157) -/

/-- The ts40 of an SR_ENTER or SR_EXIT is unwrapped against the stream's last FRAME_START (R116). -/
def Dev.srTs (n : Nat) (ts : Nat) (v : Dev) : Dev :=
  v.modIs n fun x =>
    let scale := (x.held.getD {}).tsScale
    x.sawTs { value := v.unwrapTs scale x.uwFrame x.uwAny 0 ts, at_ := v.clk.now, scale := scale }

/-- The work of an intact SR_ENTER. -/
def srEnterIn (n : Nat) (p : List Byte) (s : State) : State :=
  if p.length != 12 || fieldU p 9 1 > 1 then s.onDev (Dev.malformedPacket n 8)
  else
  let s := s.onDev (Dev.srTs n (fieldU p 4 5))
  if (s.dev.is n).state != .locked then s
  else
    let s := s.forward n 8 p
    s.onDev fun v =>
      (v.isTo n .selfRefresh 0 0).modIs n fun x => { x with lastStart := none, formatLocked := false }

/-- SR_ENTER (R124). -/
def execSrEnter (t : Nat) (stream : Fin 512) (p : Packet) (s : State) : Result :=
  .next (packetRow t stream 8 p (srEnterIn stream p.payload) s)

/-- The work of an intact SR_EXIT. -/
def srExitIn (n : Nat) (p : List Byte) (s : State) : State :=
  if p.length != 12 then s.onDev (Dev.malformedPacket n 9)
  else
  let s := s.onDev (Dev.srTs n (fieldU p 4 5))
  if (s.dev.is n).state != .selfRefresh then s
  else (s.forward n 9 p).onDev fun v => (v.isTo n .locked 0 0).modIs n fun x => { x with lastStartT := v.clk.now }

/-- SR_EXIT (R132). -/
def execSrExit (t : Nat) (stream : Fin 512) (p : Packet) (s : State) : Result :=
  .next (packetRow t stream 9 p (srExitIn stream p.payload) s)

/-! ### Reserved types and the hunt (R117, R118) -/

/-- RESERVED_TYPE_PACKET (R117): skipped by its length and counted, as damaged where bytes of it are lost; the frame in progress is
untouched. -/
def execReservedTypePacket (t : Nat) (stream : Fin 512) (ptype : Nat) (p : Packet) (s : State) : Result :=
  .next (packetRow t stream (ptype + 16) p
    (fun s => s.onDev (Dev.isCount stream fun x => { x with unknown := satInc x.unknown })) s)

/-- The 4 bytes at a position as a header that the hunt of R118 step 1 accepts: type and length. -/
def huntHeader (bs : List Byte) : Option (Nat × Nat) :=
  match bs with
  | a :: b :: c :: d :: _ =>
    let ty := a.toNat
    let len := beNat [b, c]
    let okLen := match ty with
      | 1 => len == 32 | 2 => len == 12 | 3 => decide (9 ≤ len) && decide (len ≤ 8192) | 4 => len == 20
      | 5 => decide (19 ≤ len) && decide (len ≤ 8192) | 6 => len == 12 | 7 => decide (len ≤ 8192) | 8 => len == 12 | 9 => len == 12
      | 15 => decide (len ≤ 8192) | _ => false
    if crc8 [a, b, c] = d.toNat && okLen then some (ty, len) else none
  | _ => none

/-- The hunt over the rest of a run (R118): how many bytes are discarded before delivery resumes at a confirmed boundary; none when
the run ends without a confirmation. -/
def huntRun : List Byte → Nat → Option Nat
  | [], _ => none
  | b :: r, p =>
    let bs := b :: r
    match huntHeader bs with
    | some (_, len) =>
      let next := 4 + len
      if next ≤ bs.length && ((huntHeader (bs.drop next)).isSome || bs.length ≤ next + 3) then some (p + next) else huntRun r (p + 1)
    | none => huntRun r (p + 1)

/-- A bad header, a lost header or an impossible length starts a hunt: counters, the frame in progress becomes incomplete, and the
bytes up to the boundary found leave the run, with those before the hunt's start (R117, R118). `run` is the rest of the run from that start;
without a confirmation in it parsing begins again with the next run. -/
def Dev.hunt (n : Nat) (cause : HuntCause) (run : List Byte) (v : Dev) : Dev :=
  let v := match cause with
    | .lostHeader => v.isCount n fun x => { x with damaged := satInc x.damaged, resyncs := satInc x.resyncs }
    | .headerCrc | .badLength => v.isCount n fun x => { x with headerErrs := satInc x.headerErrs, resyncs := satInc x.resyncs }
  let v := v.breakFrame n
  let found := huntRun run 0
  v.modIs n fun x =>
    let x := x.take ((x.rows.headD []).length - run.length + found.getD run.length)
    { x with hunting := found.isNone && decide (x.rows.length ≤ 1) && x.runOpen }

/-- PACKET_HUNT (R118). -/
def execPacketHunt (t : Nat) (stream : Fin 512) (cause : HuntCause) (run : List Byte) (s : State) : Result :=
  .next ((s.arrive t).onDev fun v => if v.parses stream then (v.hunt stream cause run).settle stream else v)

/-! ### Timers (R132, R138) -/

/-- Whether a LOCKED stream has gone 2.5 periods of its held FORMAT without a FRAME_START; the timer does not run in self-refresh (R132). -/
def Dev.startLate (n : Nat) (v : Dev) : Bool :=
  let x := v.is n
  x.state == .locked && decide (2 * x.lastStartT + 5 * (x.held.getD {}).periodQ ≤ 2 * v.clk.now)

/-- FRAME_START_TIMEOUT (R132): such a stream goes to SEARCH. -/
def execFrameStartTimeout (t : Nat) (stream : Fin 512) (s : State) : Result :=
  .next ((s.arrive t).onDev fun v => if v.mediaOn && v.startLate stream then (v.isLose stream .search 0 0).settle stream else v)

/-- Whether the bytes of a window of two frame periods of the held FORMAT exceed the limit of R138, in exact arithmetic. -/
def excessive (c : IngressCfg) (d : Desc) (bytes : Nat) : Bool :=
  let x := c.expected
  let tol := max c.rateTolPpm 1000
  decide (frameBits x.colourFormat x.bitDepth x.width x.vTotal x.scan * x.rateNum * 2 * d.rateDen * (1000000 + tol)
    < bytes * 8 * x.rateDen * d.rateNum * 1000000)

/-- The end of an excess window (R138): two in a row beyond the limit take a LOCKED stream to MISMATCH. -/
def Dev.excessEnd (n : Nat) (v : Dev) : Dev :=
  let x := v.is n
  match smFind n v.cfg.ingress, x.held with
  | some c, some d =>
    let excess := excessive c d x.exBytes
    let v := v.setIs n { x with exBytes := 0, exOver := excess }
    if excess && x.exOver && x.state == .locked then v.isLose n .mismatch 3 0 else v
  | _, _ => v

/-- EXCESS_WINDOW (R138). -/
def execExcessWindow (t : Nat) (stream : Fin 512) (s : State) : Result :=
  .next ((s.arrive t).onDev fun v => if v.parses stream then (v.excessEnd stream).settle stream else v)

end Sys2Proof.Machine
end

