-- ==== Sys2Proof/Machine/Select.lean ====
section
/-! DEFINITION. Frame synchronisation: the units of a ring (R192), what a layer selects at an instant (R184 to R190), the pins it
takes (R185), when new content is ready (R195), and short buffers (R244). -/
namespace Sys2Proof.Machine
open Sys2Proof

/-! ### Units of a ring -/

/-- A unit of selection: one surface, or the two fields of a pair; frame_number and frame_start of its first surface. -/
structure SyncUnit where
  /-- Its surfaces in order. -/
  ids : List Nat
  /-- Frame number. -/
  no : Nat
  /-- Frame-start timestamp, quarter ps. -/
  start : Nat
  deriving DecidableEq, Repr

/-- Whether frame number a is newer than b (R184). -/
def newer32 (a b : Nat) : Bool :=
  let d := (a + 2 ^ 32 - b % 2 ^ 32) % 2 ^ 32
  decide (1 ≤ d) && decide (d ≤ 2 ^ 31 - 1)

/-- The surfaces of a channel's ring. -/
def Dev.ringOf (c : Nat) (v : Dev) : List (Nat × SurfaceSt) := v.rings.filter (fun r => r.1 / 16 == c)

/-- Whether a ring surface counts as complete at S (R184). -/
def SurfaceSt.completeAt (x : SurfaceSt) (s : Nat) : Bool := x.state == .complete && decide (x.completeQ < s)

/-- Whether the first field of the frames of a stream is the bottom field (R99, R192): by its held FORMAT, else by the expected one. -/
def Dev.bottomFirst (c : Nat) (v : Dev) : Bool :=
  match (v.is c).held, smFind c v.cfg.ingress with
  | some d, _ => d.scan == 2
  | none, some x => x.expected.scan == 2
  | none, none => false

/-- The units of a ring that are complete at S (R192). -/
def Dev.unitsAt (c : Nat) (weave : Bool) (s : Nat) (v : Dev) : List SyncUnit :=
  let xs := (v.ringOf c).filter (fun r => r.2.completeAt s)
  let firstBit := v.bottomFirst c
  xs.filterMap fun r =>
    if !weave || !bit r.2.marks 2 then some { ids := [r.1], no := r.2.frameNumber, start := r.2.startQ }
    else if bit r.2.marks 1 != firstBit then none
    else match xs.find? (fun q => bit q.2.marks 2 && bit q.2.marks 1 != firstBit && q.2.frameNumber == (r.2.frameNumber + 1) % 2 ^ 32) with
      | some q => some { ids := [r.1, q.1], no := r.2.frameNumber, start := r.2.startQ }
      | none => none

/-- The unit with the latest frame start (R184). -/
def newestUnit (us : List SyncUnit) : Option SyncUnit :=
  us.foldl (fun (best : Option SyncUnit) u => match best with
    | none => some u
    | some b => if b.start < u.start then some u else some b) none

/-- The unit with a frame number; the latest of several. -/
def unitNo (us : List SyncUnit) (n : Nat) : Option SyncUnit := newestUnit (us.filter (fun u => u.no == n))

/-- Frame numbers from one unit to the next. -/
def SyncUnit.step (u : SyncUnit) : Nat := max 1 u.ids.length

/-- A saturating count plus n. -/
def satPlus (c : U32) (n : Nat) : U32 := satAdd c n

/-! ### Selection (R186 to R190) -/

/-- A layer after showing a unit, with the surfaces it pins (R185). -/
def LayerSt.show_ (ids pins : List Nat) (l : LayerSt) : LayerSt := { l with shown := ids, pins := pins, selected := true, ready := true }

/-- LATEST (R186). -/
def LayerSt.selectLatest (us : List SyncUnit) (numOf : Nat → Nat) (l : LayerSt) : LayerSt :=
  match newestUnit us with
  | none => { l with ready := false }
  | some u =>
    let l := match l.shown with
      | [] => l
      | a :: _ =>
        if l.shown = u.ids then { l with repeats := satInc l.repeats }
        else if newer32 u.no (numOf a) then
          { l with drops := satPlus l.drops ((u.no + 2 ^ 32 - numOf a) % 2 ^ 32 / u.step - 1) }
        else l
    l.show_ u.ids u.ids

/-- Entry i of the cadence pattern (R183). -/
def LayerCfg.pattern (f : LayerCfg) (i : Nat) : Nat := f.cadencePattern / 16 ^ i % 16

/-- What CADENCE does at S (R187): the next state of the layer, not yet showing. -/
def LayerSt.cadence (f : LayerCfg) (us : List SyncUnit) (l : LayerSt) : LayerSt × Option SyncUnit :=
  let restart (l : LayerSt) (u : SyncUnit) : LayerSt × Option SyncUnit := ({ l with cur := some u.no, idx := 0, rem := f.pattern 0 }, some u)
  match newestUnit us with
  | none => ({ l with cur := none }, none)
  | some n =>
    match l.cur with
    | none => restart l n
    | some c =>
      match unitNo us c with
      | none => restart { l with resyncs := satInc l.resyncs } n
      | some u =>
        if n.no != c && !newer32 n.no c then restart { l with resyncs := satInc l.resyncs } n
        else if l.rem > 1 then ({ l with rem := l.rem - 1 }, some u)
        else
          let want := (c + u.step) % 2 ^ 32
          let after := (want + u.step) % 2 ^ 32
          let i := (l.idx + 1) % max 1 f.cadenceLen
          if newer32 n.no after then restart { l with resyncs := satInc l.resyncs } n
          else match unitNo us want with
            | some w => ({ l with cur := some want, idx := i, rem := f.pattern i }, some w)
            | none =>
              if n.no = after then ({ l with cur := some after, idx := i, rem := f.pattern i, drops := satInc l.drops }, some n)
              else ({ l with rem := 1, slips := satInc l.slips }, some u)

/-- CADENCE (R187). -/
def LayerSt.selectCadence (f : LayerCfg) (us : List SyncUnit) (l : LayerSt) : LayerSt :=
  match l.cadence f us with
  | (l, some u) => l.show_ u.ids u.ids
  | (l, none) => { l with ready := false }

/-- BLEND (R188); `fits` says whether two surfaces have one format and size, `s` is S in quarter ps. -/
def LayerSt.selectBlend (f : LayerCfg) (us : List SyncUnit) (fits : Nat → Nat → Bool) (s : Nat) (l : LayerSt) : LayerSt :=
  let tau : Int := (toPs (uOfQ s) : Int) - 1000 * f.blendDelayNs
  let ps (u : SyncUnit) : Int := toPs (uOfQ u.start)
  let early := us.filter (fun u => decide (ps u ≤ tau))
  match newestUnit early with
  | some a =>
    let b := (unitNo us ((a.no + a.step) % 2 ^ 32)).filter fun b =>
      decide (ps a < ps b) && a.ids.length == b.ids.length && fits (a.ids.headD 0) (b.ids.headD 0)
    match b with
    | some b =>
      let span := ps b - ps a
      let w := min 255 (((tau - ps a) * 256 + span / 2) / span).toNat
      { (l.show_ (a.ids ++ b.ids) (a.ids ++ b.ids)) with weight := w, blendB := some b.start }
    | none => { (l.show_ a.ids a.ids) with weight := 0, blendB := some a.start, blendShort := satInc l.blendShort }
  | none =>
    let oldest := us.foldl (fun (best : Option SyncUnit) u => match best with
      | none => some u
      | some b => if u.start < b.start then some u else some b) none
    match oldest with
    | some a => { (l.show_ a.ids a.ids) with weight := 0, blendB := some a.start, blendShort := satInc l.blendShort }
    | none => { l with ready := false }

/-! ### One layer at S -/

/-- Whether a unit of two fields is shown together (R192). -/
def LayerCfg.weaves (f : LayerCfg) : Bool := f.fieldMode == 0

/-- Width of a surface that a layer buffers (R244): need beyond W_buf, or 4:2:0 without an upsampler allocation. -/
def shortFor (c : SlotCfg) (f : LayerCfg) (x : SurfaceSt) : Bool :=
  let need : Int := min (f.srcWidth : Int) ((x.width : Int) - f.srcX)
  decide ((c.wBuf : Int) < need) || (x.colourFormat == 3 && c.chGran == 0)

/-- The surfaces that a layer reads after its selection: those selected, or the previous ones where its policy shows them (R244, R264). -/
def LayerSt.reads (f : LayerCfg) (l : LayerSt) : List Nat :=
  if f.sourceKind = 2 then []
  else if l.ready then l.shown
  else if f.enable = 1 && l.selected && (f.notReadyPolicy = 0 || f.notReadyPolicy = 3) then l.shown
  else []

/-- Whether the buffer is short for the surfaces read this frame. -/
def Dev.shortNow (c : SlotCfg) (f : LayerCfg) (ids : List Nat) (v : Dev) : Bool := ids.any fun n => shortFor c f (v.surface n)

/-- A layer's counters and state after its selection: readiness, policy, short buffers (R202, R244, R245, R264). -/
def LayerSt.judged (f : LayerCfg) (short : Bool) (l : LayerSt) : LayerSt :=
  let acts := !l.ready && f.enable == 1
  { l with policyActs := acts, lineActs := false, notReady := if acts then satInc l.notReady else l.notReady,
           short := short, shortFrames := if short then satInc l.shortFrames else l.shortFrames }

/-- The selection of one layer slot at S (R184). CHASE binds later, at its first line (R190). -/
def Dev.selectLayer (n s : Nat) (v : Dev) : Dev :=
  let c := v.cfg.slot n
  match c.layer with
  | none => v
  | some f =>
    let l := v.layer n
    let us := v.unitsAt f.source f.weaves s
    let num (k : Nat) : Nat := (v.surface k).frameNumber
    let fits (a b : Nat) : Bool :=
      let x := v.surface a
      let y := v.surface b
      x.colourFormat == y.colourFormat && x.bitDepth == y.bitDepth && x.width == y.width && x.height == y.height
    let l' := if f.sourceKind = 2 then { l with shown := [], pins := [], selected := true, ready := true }
      else if f.sourceKind = 0 then l.show_ [f.source] [f.source]
      else match f.syncMode with
        | 0 => l.selectLatest us num
        | 1 => l.selectCadence f us
        | 2 => l.selectBlend f us fits s
        | _ => { l with boundNow := false, bound := none, ready := true, policyActs := false, lineActs := false }
    let l' := if f.sourceKind = 1 && f.syncMode = 3 then l' else l'.judged f (v.shortNow c f (l'.reads f))
    let v := v.setLayer n l'
    v.modHead f.head fun h => { h with moved := h.moved || l'.shown != l.shown || (f.syncMode = 2 && l'.weight != l.weight) || (f.sourceKind = 1 && f.syncMode = 3) }

/-- The layer slots of a head. -/
def Cfg.slotsOf (h : Nat) (c : Cfg) : List (Nat × SlotCfg) :=
  c.slots.filter fun s => match s.2.layer with | some f => f.head == h && f.enable != 0 | none => false

/-- Every layer of a head selects (R184, R256). -/
def Dev.selectHead (h s : Nat) (v : Dev) : Dev := (v.cfg.slotsOf h).foldl (fun v n => v.selectLayer n.1 s) v

/-- CHASE binds at the fetch of a layer's first line in a frame (R190): the surface being written if it began after the one last
bound, else the newest complete one; the fallback is the newest complete one. The bind counts no repeat and no drop: R196 counts them under
R186 and R187 only (DESIGN CHOICE, log entry 32). A frame without a fallback may show the selection before this one under REPEAT (R264);
its surface is read with the same buffers, so it is judged with the others (DEDUCED, log entry 32). -/
def Dev.bindChase (n : Nat) (v : Dev) : Dev :=
  let c := v.cfg.slot n
  match c.layer with
  | none => v
  | some f =>
    let l := v.layer n
    if f.sourceKind != 1 || f.syncMode != 3 || l.boundNow then v
    else
      let newest := (newestUnit (v.unitsAt f.source false v.nowQ)).map (·.ids.headD 0)
      let writing := (v.cap f.source).writing.filter fun k =>
        (v.surface k).state == .writing && (match l.lastBegun with | some b => decide (b < (v.surface k).startQ) | none => true)
      let bound := writing.or newest
      let l' : LayerSt := match bound with
        | some b =>
          let pins := (b :: newest.toList).eraseDups
          { (l.show_ [b] pins) with bound := some b, fallback := newest, boundNow := true, lastBegun := some (v.surface b).startQ
                                    prev := l.shown.filter (· != b) }
        | none => { l with bound := none, fallback := none, boundNow := true, ready := false }
      let again := if newest.isNone && (f.notReadyPolicy = 0 || f.notReadyPolicy = 3) then l'.prev else []
      v.setLayer n (l'.judged f (v.shortNow c f (if l'.ready then l'.pins ++ again else l'.reads f)))

/-! ### New content (R195) -/

/-- Whether a layer has new content ready at an instant (R195). -/
def Dev.newContent (n s : Nat) (v : Dev) : Bool :=
  match (v.cfg.slot n).layer with
  | none => false
  | some f =>
    let l := v.layer n
    let us := v.unitsAt f.source f.weaves s
    if f.sourceKind != 1 then true
    else match f.syncMode with
      | 0 => (match newestUnit us with | some u => !l.selected || u.ids != l.shown | none => false)
      | 1 => (match l.cadence f us with | (l', some _) => l'.cur != l.cur | (_, none) => false)
      | 2 => if l.selected then (match l.blendB with | some b => us.any (fun u => decide (b < u.start)) | none => !us.isEmpty) else !us.isEmpty
      | _ => match (v.cap f.source).writing with
        | some k => (v.surface k).state == .writing && (match l.lastBegun with | some b => decide (b < (v.surface k).startQ) | none => true)
        | none => false

/-- Whether a layer is gated (R260): enabled, shown, with policy GATE, reading a capture ring. -/
def LayerCfg.gated (f : LayerCfg) : Bool := f.enable == 1 && f.notReadyPolicy == 3 && f.sourceKind == 1

/-- all_gated_ready of R260 over the layers of some heads. -/
def Dev.allGatedReady (heads : List Nat) (s : Nat) (v : Dev) : Bool :=
  heads.all fun h => (v.cfg.slotsOf h).all fun n => match n.2.layer with | some f => !f.gated || v.newContent n.1 s | none => true

end Sys2Proof.Machine
end

