-- ==== Sys2Proof/Machine/Tables.lean ====
section
/-! DEFINITION. The built-in tables of the pixel model: LUT points (R210) and filter coefficients (R231), computed in exact integer
arithmetic where the formula allows it and in fixed point with 96 fractional bits elsewhere. -/
namespace Sys2Proof.Machine
open Sys2Proof

/-! ### Fixed point -/

/-- One in fixed point. -/
def fxOne : Int := 2 ^ 96
/-- Product of two fixed-point numbers. -/
def fxMul (a b : Int) : Int := a * b / 2 ^ 96
/-- Quotient of two fixed-point numbers. -/
def fxDiv (a b : Int) : Int := a * 2 ^ 96 / b
/-- A fraction in fixed point. -/
def fxRat (n d : Int) : Int := n * 2 ^ 96 / d
/-- pi in fixed point. -/
def fxPi : Int := fxRat 314159265358979323846264338327950288 100000000000000000000000000000000000

/-- Terms x^k / k! of a Taylor series from a running term, with k rising by `step` and the sign alternating where `alt`. -/
def fxSeries (x2 : Int) (alt : Bool) (step : Nat) : Nat → Nat → Int → Int
  | 0, _, _ => 0
  | n + 1, k, term =>
    let d : Int := if step = 2 then ((k + 1) * (k + 2) : Nat) else ((k + 1 : Nat) : Int)
    let next := fxMul term x2 / d
    term + fxSeries x2 alt step n (k + step) (if alt then -next else next)

/-- e^x for a small fixed-point x. -/
def fxExpSmall (x : Int) : Int := fxSeries x false 1 40 0 fxOne
/-- sin x for |x| at most pi. -/
def fxSin (x : Int) : Int := fxSeries (fxMul x x) true 2 30 1 x

/-- Terms z^(2k+1) / (2k+1). -/
def fxAtanhTerms (z2 : Int) : Nat → Nat → Int → Int
  | 0, _, _ => 0
  | n + 1, k, z => z / (k : Int) + fxAtanhTerms z2 n (k + 2) (fxMul z z2)

/-- ln x for a fixed-point x from 1 to 2. -/
def fxLn12 (x : Int) : Int :=
  let z := fxDiv (x - fxOne) (x + fxOne)
  2 * fxAtanhTerms (fxMul z z) 36 1 z
/-- ln 2. -/
def fxLn2 : Int := fxLn12 (2 * fxOne)

/-- x brought to 1 to 2 by powers of two, with the exponent. -/
def fxNorm : Nat → Int → Int → Int × Int
  | 0, x, e => (x, e)
  | n + 1, x, e => if x < fxOne then fxNorm n (2 * x) (e - 1) else if 2 * fxOne ≤ x then fxNorm n (x / 2) (e + 1) else (x, e)

/-- ln x for a positive fixed-point x. -/
def fxLn (x : Int) : Int :=
  let q := fxNorm 120 x 0
  fxLn12 q.1 + q.2 * fxLn2

/-- e^x for any fixed-point x. -/
def fxExp (x : Int) : Int :=
  let k := x / fxLn2
  let m := fxExpSmall (x - k * fxLn2)
  if k ≥ 0 then m * 2 ^ k.toNat else m / 2 ^ (-k).toNat

/-- x to the power n / d, for a fixed-point x from 0 on. -/
def fxPow (x n d : Int) : Int := if x ≤ 0 then 0 else fxExp (fxLn x * n / d)

/-! ### LUT points (R210) -/

/-- Full scale of the internal format. -/
def fullScale : Nat := 1048575

/-- The largest y in 0 to 1,048,575 for which a test that holds up to some point holds. -/
def lutSearch (p : Nat → Bool) : Nat → Nat → Nat
  | 0, lo => lo
  | n + 1, lo => if p (lo + 2 ^ n) then lutSearch p n (lo + 2 ^ n) else lutSearch p n lo

/-- x^(a/b) at full scale, rounded to the nearest, in exact arithmetic: y is right while y - 1/2 does not exceed it. -/
def powPoint (a b x : Nat) : Nat :=
  min fullScale (lutSearch (fun y => decide (y ≤ fullScale) && decide ((2 * y - 1) ^ b * fullScale ^ a ≤ 2 ^ b * x ^ a * fullScale ^ b)) 20 0)

/-- A fixed-point value from 0 to 1 at full scale, rounded to the nearest and clipped. -/
def fxPoint (v : Int) : Nat := (clip ((2 * v * 1048575 + fxOne) / (2 * fxOne)) 0 1048575).toNat

/-- The SMPTE ST 2084 EOTF. Its constants come from the standard the spec names (PRESUMED, log entry 22). -/
def pqEotf (e : Int) : Int :=
  let p := fxPow e 32 2523
  let n := p - fxRat 3424 4096
  fxPow (if n < 0 then 0 else fxDiv n (fxRat (2413 * 32) 4096 - fxMul (fxRat (2392 * 32) 4096) p)) 8192 1305

/-- The inverse EOTF of ST 2084. -/
def pqInv (e : Int) : Int :=
  let p := fxPow e 1305 8192
  fxPow (fxDiv (fxRat 3424 4096 + fxMul (fxRat (2413 * 32) 4096) p) (fxOne + fxMul (fxRat (2392 * 32) 4096) p)) 2523 32

/-- Constant a of BT.2100 HLG (PRESUMED, log entry 22). -/
def hlgA : Int := fxRat 17883277 100000000
/-- Constant b. -/
def hlgB : Int := fxOne - 4 * hlgA
/-- Constant c. -/
def hlgC : Int := fxOne / 2 - fxMul hlgA (fxLn (4 * hlgA))

/-- The BT.2100 HLG OETF. -/
def hlgOetf (e : Int) : Int := if 12 * e ≤ fxOne then fxPow (3 * e) 1 2 else fxMul hlgA (fxLn (12 * e - hlgB)) + hlgC
/-- The BT.2100 HLG inverse OETF. -/
def hlgInv (e : Int) : Int := if 2 * e ≤ fxOne then fxMul e e / 3 else (fxExp (fxDiv (e - hlgC) hlgA) + hlgB) / 12

/-- Point i of a built-in table (R210): codes 2 to 7. -/
def lutPoint (code i : Nat) : Nat :=
  let x := min fullScale (1024 * i)
  let e := fxRat (x : Int) 1048575
  match code with
  | 2 => powPoint 12 5 x
  | 3 => powPoint 5 12 x
  | 4 => fxPoint (pqEotf e)
  | 5 => fxPoint (pqInv e)
  | 6 => fxPoint (hlgInv e)
  | 7 => fxPoint (hlgOetf e)
  | _ => x

/-! ### Filter coefficients (R231) -/

/-- A ratio rounded to the nearest integer, halves away from zero. -/
def roundAway (n d : Int) : Int := if n ≥ 0 then (2 * n + d) / (2 * d) else -((-2 * n + d) / (2 * d))

/-- sinc(n / den) in fixed point. -/
def fxSinc (n den : Int) : Int :=
  if n = 0 then fxOne
  else
    let a := fxPi * n / den
    let r := a - (a + fxPi) / (2 * fxPi) * (2 * fxPi)
    fxDiv (fxSin r) a

/-- The unnormalised coefficient of kernel 3 or 4 at distance n / 64. -/
def kernelRaw (code : Nat) (n : Int) : Int :=
  let a : Int := n.natAbs
  if code = 3 then
    if a ≤ 64 then roundAway (1024 * (3 * a * a * a - 5 * a * a * 64 + 2 * 64 * 64 * 64)) (2 * 64 * 64 * 64)
    else if a < 128 then roundAway (1024 * (-a * a * a + 5 * a * a * 64 - 8 * a * 64 * 64 + 4 * 64 * 64 * 64)) (2 * 64 * 64 * 64)
    else 0
  else if a < 256 then roundAway (1024 * fxMul (fxSinc a 64) (fxSinc a 256)) fxOne
  else 0

/-- The eight coefficients of kernel 3 or 4 at a phase: the largest, the first among equals, takes what is left of 1,024. -/
def kernelRow (code phase : Nat) : List Int :=
  let raw := (List.range 8).map fun (t : Nat) => kernelRaw code (((t : Int) - 3) * 64 - phase)
  let top := raw.foldl max (raw.headD 0)
  let at_ := raw.findIdx (· == top)
  (List.range 8).map fun t => if t = at_ then 1024 - (raw.sum - top) else raw.getD t 0

/-- The coefficients of kernels 1 to 4 at a phase (R231). -/
def kernelCoeffs (code phase : Nat) : List Int :=
  match code with
  | 1 => if phase < 32 then [0, 0, 0, 1024, 0, 0, 0, 0] else [0, 0, 0, 0, 1024, 0, 0, 0]
  | 2 => [0, 0, 0, 1024 - 16 * (phase : Int), 16 * (phase : Int), 0, 0, 0]
  | c => kernelRow c phase

end Sys2Proof.Machine
end

