-- ==== Sys2Proof/Machine/Compose.lean ====
section
/-! DEFINITION. The bit-exact pixel model: stages 0 to 4 of a layer (R205 to R218, R229 to R236, R244), blending (R219 to R221), and
the head's output conversion (R222, R223, R237, R259). -/
namespace Sys2Proof.Machine
open Sys2Proof

/-! ### Stage 0: expansion (R206) and synthetic sources (R215 to R218) -/

/-- A pixel in the internal format: three colour components and alpha (R197). -/
structure Px where
  /-- Component 0. -/
  c0 : Nat := 0
  /-- Component 1. -/
  c1 : Nat := 0
  /-- Component 2. -/
  c2 : Nat := 0
  /-- Alpha. -/
  a : Nat := 0
  deriving DecidableEq, Repr

/-- Component k of a pixel. -/
def Px.comp (p : Px) (k : Nat) : Nat := if k = 0 then p.c0 else if k = 1 then p.c1 else p.c2

/-- `expand` of R206. -/
def expand (bd v : Nat) : Nat := (v * 2097150 + (2 ^ bd - 1)) / (2 * (2 ^ bd - 1))
/-- `expand_a` of R206. -/
def expandA (bd v : Nat) : Nat := (v * 131070 + (2 ^ bd - 1)) / (2 * (2 ^ bd - 1))

/-- The pixel of a colour60 value with an alpha (R197). -/
def colour60 (c a : Nat) : Px := { c0 := c / 2 ^ 40 % 2 ^ 20, c1 := c / 2 ^ 20 % 2 ^ 20, c2 := c % 2 ^ 20, a := a }

/-- `ramp` of R216. -/
def ramp (v0 v1 pos n : Nat) : Nat :=
  if n ≤ 1 then v0 else ((v0 : Int) + (2 * ((v1 : Int) - v0) * pos + (n - 1 : Nat)) / (2 * (n - 1 : Nat))).toNat

/-- `next_bit` of R217: the state after a bit; its low bit is the bit. -/
def prbs23Step (s : Nat) : Nat := (s * 2 % 2 ^ 23) + (s / 2 ^ 22 + s / 2 ^ 17) % 2

/-- A linear map on 23-bit states as the images of the single bits. -/
def prbsApply (m : List Nat) (s : Nat) : Nat := (List.range 23).foldl (fun r i => if s.testBit i then r ^^^ m.getD i 0 else r) 0
/-- One map after another. -/
def prbsComp (a b : List Nat) : List Nat := b.map (prbsApply a)
/-- The state after n bits, by repeated squaring of the map of one bit; `k` bounds the bits of n. -/
def prbsJumpAux : Nat → List Nat → Nat → Nat → Nat
  | 0, _, _, s => s
  | k + 1, m, n, s => prbsJumpAux k (prbsComp m m) (n / 2) (if n % 2 = 1 then prbsApply m s else s)
/-- The state after n bits. -/
def prbsJump (n s : Nat) : Nat := prbsJumpAux 40 ((List.range 23).map fun i => prbs23Step (2 ^ i)) n s

/-- The next 20 bits as a component, first bit highest, and the state after them. -/
def prbsWord : Nat → Nat → Nat × Nat
  | 0, s => (0, s)
  | n + 1, s =>
    let s' := prbs23Step s
    let q := prbsWord n s'
    (s' % 2 * 2 ^ n + q.1, q.2)

/-- Pixel (i, j) of a synthetic source of a slot (R216 to R218); `frame` is the number of the frame being composited, `prbs` the state
before pixel (0, 0). -/
def synthPixel (c : SynthCfg) (f : LayerCfg) (frame prbs i j : Nat) : Px :=
  let x := f.srcX + i
  let y := f.srcY + j
  let p0 := colour60 c.colour0 c.alpha0
  let p1 := colour60 c.colour1 c.alpha1
  let mix (pos n : Nat) : Px :=
    { c0 := ramp p0.c0 p1.c0 pos n, c1 := ramp p0.c1 p1.c1 pos n, c2 := ramp p0.c2 p1.c2 pos n, a := ramp p0.a p1.a pos n }
  match c.kind with
  | 0 => p0
  | 1 => mix i f.srcWidth
  | 2 => mix j f.srcHeight
  | 3 => if (x / max 1 c.cellWidth + y / max 1 c.cellHeight) % 2 = 0 then p0 else p1
  | 4 =>
    let w0 := prbsWord 20 (prbsJump ((j * f.srcWidth + i) * 60) prbs)
    let w1 := prbsWord 20 w0.2
    let w2 := prbsWord 20 w1.2
    { c0 := w0.1, c1 := w1.1, c2 := w2.1, a := c.alpha0 }
  | _ =>
    let k := x / max 1 c.cellWidth
    if y < c.cellHeight && k < 32 then (if frame.testBit (31 - k) then p1 else p0) else {}

/-! ### Stages 1 to 3 (R208 to R213, R236) -/

/-- Interpolation between LUT points (R208). -/
def lutBlend (l0 l1 x : Nat) : Nat := (l0 * (1024 - x % 1024) + l1 * (x % 1024) + 512) / 1024

/-- Stage 1 of component k of a slot (R208 to R210). -/
def lutStage (c : SlotCfg) (sel k x : Nat) : Nat :=
  let i := x / 1024
  if sel = 0 then x
  else if sel = 1 then
    match smFind k c.luts with
    | some t => lutBlend (t.getD i 0) (t.getD (i + 1) 0) x
    | none => lutBlend (min fullScale (1024 * i)) (min fullScale (1024 * (i + 1))) x
  else lutBlend (lutPoint sel i) (lutPoint sel (i + 1)) x

/-- Coefficient of row k, column j. -/
def MatrixBlk.c (m : MatrixBlk) (k j : Nat) : Int :=
  match k, j with
  | 0, 0 => m.c00 | 0, 1 => m.c01 | 0, _ => m.c02
  | 1, 0 => m.c10 | 1, 1 => m.c11 | 1, _ => m.c12
  | _, 0 => m.c20 | _, 1 => m.c21 | _, _ => m.c22
/-- Offset added to input component j. -/
def MatrixBlk.pre (m : MatrixBlk) (j : Nat) : Int := if j = 0 then m.pre0 else if j = 1 then m.pre1 else m.pre2
/-- Offset added to output component k. -/
def MatrixBlk.post (m : MatrixBlk) (k : Nat) : Int := if k = 0 then m.post0 else if k = 1 then m.post1 else m.post2

/-- T[k] of R213 from the stage-1 values of components 1 and 2. -/
def matT (m : MatrixBlk) (k x1 x2 : Nat) : Int := m.c k 1 * ((x1 : Int) + m.pre 1) + m.c k 2 * ((x2 : Int) + m.pre 2)
/-- out[k] of R213. -/
def matOut (m : MatrixBlk) (k x0 : Nat) (u : Int) : Nat :=
  (clip ((m.c k 0 * ((x0 : Int) + m.pre 0) + u + 32768) / 65536 + m.post k) 0 1048575).toNat
/-- A pixel with chroma at its own site through a matrix (R213). -/
def matPixel (m : MatrixBlk) (p : Px) : Px :=
  let o (k : Nat) : Nat := matOut m k p.c0 (matT m k p.c1 p.c2)
  { c0 := o 0, c1 := o 1, c2 := o 2, a := p.a }

/-- `f_cos` of R236. -/
def fCos (b c : Int) (odd : Bool) : Int := if odd then (b + c + 1) / 2 else b
/-- `f_cen` of R236. -/
def fCen (a b c : Int) (odd : Bool) : Int := if odd then (3 * b + c + 2) / 4 else (3 * b + a + 2) / 4

/-- A value of a row with its index clamped (R236). -/
def clampGet (r : Array Int) (i : Int) : Int := r.getD (clip i 0 ((r.size : Int) - 1)).toNat 0

/-- Horizontal upsampling at pixel x (R236). -/
def upH (cen : Bool) (r : Array Int) (x : Nat) : Int :=
  let q : Int := (x / 2 : Nat)
  let odd := x % 2 == 1
  if cen then fCen (clampGet r (q - 1)) (clampGet r q) (clampGet r (q + 1)) odd else fCos (clampGet r q) (clampGet r (q + 1)) odd

/-- Stage 1 and 2 of a pixel of its own chroma site. -/
def stage12 (c : SlotCfg) (f : LayerCfg) (m : MatrixBlk) (p : Px) : Px :=
  matPixel m { p with c0 := lutStage c f.lutSelect 0 p.c0, c1 := lutStage c f.lutSelect 1 p.c1, c2 := lutStage c f.lutSelect 2 p.c2 }

/-- The matrix that a layer applies (R213). -/
def layerMatrix (c : SlotCfg) (f : LayerCfg) : MatrixBlk := if f.matrixEnable = 1 then c.matrix else {}

/-- What a layer reads for a line: surfaces of unit A and of unit B with B's weight, or a synthetic source. -/
structure LayerRead where
  /-- Surfaces of A with their descriptors. -/
  a : List SurfaceSt := []
  /-- Surfaces of B. -/
  b : List SurfaceSt := []
  /-- Weight of B. -/
  w : Nat := 0
  /-- Columns at or beyond W_buf read as outside (R244). -/
  cut : Option Nat := none
  /-- Chroma of 4:2:0 takes no vertical filter (R244). -/
  flat : Bool := false
  deriving DecidableEq, Repr

/-- Whether a layer shows single fields at frame height (R193). -/
def bobs (ids : List SurfaceSt) : Bool := ids.length == 1 && ids.any (fun x => bit x.marks 2)

/-- The surface, and the line of it, that line sy of the source comes from (R192, R193); `scaled` for BOB with a scaler, where sy
counts the field's own lines. -/
def sourceLine (ids : List SurfaceSt) (scaled : Bool) (sy : Nat) : Option (SurfaceSt × Nat) :=
  match ids with
  | [x] =>
    if bit x.marks 2 then
      (if scaled then some (x, sy) else some (x, if bit x.marks 1 then (sy - 1) / 2 else sy / 2))
    else some (x, sy)
  | [x, y] =>
    let top := if bit x.marks 1 then y else x
    let bot := if bit x.marks 1 then x else y
    some (if sy % 2 = 0 then (top, sy / 2) else (bot, sy / 2))
  | _ => none

/-- `v` of R189. -/
def blendSample (w a b : Nat) : Nat := (a * (256 - w) + b * w + 128) / 256

/-- The stored samples of a line, A and B blended (R189). -/
def storedLine (m : List Host.Cell) (x : SurfaceSt) (y : Nat) (b : Option (SurfaceSt × Nat)) (w : Nat) : List (List Nat) :=
  let la := (readSurfaceLine x m y).1
  match b with
  | some (z, yb) => if w = 0 then la else List.zipWith (List.zipWith (blendSample w)) la (readSurfaceLine z m yb).1
  | none => la

/-- Stages 0 to 3 of a whole line of a surface (R206, R208, R213, R236), by surface column. -/
def surfaceRow (mem : List Host.Cell) (c : SlotCfg) (f : LayerCfg) (r : LayerRead) (x : SurfaceSt) (y : Nat) (b : Option SurfaceSt) : Array Px :=
  let m := layerMatrix c f
  let bd := x.bitDepth
  let line (yy : Nat) : List (List Nat) := storedLine mem x yy (b.map (fun z => (z, yy))) r.w
  let l := line y
  let lum := ((l.getD 0 []).map (fun v => lutStage c f.lutSelect 0 (expand bd v))).toArray
  let alpha := ((l.getD 3 []).map (expandA bd)).toArray
  let opaque_ := f.alphaMode == 2 || components x.colourFormat == 3
  let aOf (i : Nat) : Nat := if opaque_ then 65535 else alpha.getD i 0
  let chroma (ll : List (List Nat)) (k : Nat) : Array Int :=
    (List.zipWith (fun u v => matT m k (lutStage c f.lutSelect 1 (expand bd u)) (lutStage c f.lutSelect 2 (expand bd v)))
      (ll.getD 1 []) (ll.getD 2 [])).toArray
  let build (u : Nat → Nat → Int) : Array Px :=
    ((List.range x.width).map fun i =>
      let o (k : Nat) : Nat := matOut m k (lum.getD i 0) (u k i)
      ({ c0 := o 0, c1 := o 1, c2 := o 2, a := aOf i } : Px)).toArray
  if x.colourFormat = 3 then
    let q : Int := (y / 2 : Nat)
    let last : Int := (x.height / 2 : Nat) - 1
    let row (i : Int) : List (List Nat) := line (2 * (clip i 0 last).toNat)
    let cenH := f.chromaSiting == 2
    let cenV := f.chromaSiting != 0
    let r0 := row (q - 1)
    let r1 := row q
    let r2 := row (q + 1)
    let a0 := (chroma r0 0, chroma r0 1, chroma r0 2)
    let a1 := (chroma r1 0, chroma r1 1, chroma r1 2)
    let a2 := (chroma r2 0, chroma r2 1, chroma r2 2)
    let pick (t : Array Int × Array Int × Array Int) (k : Nat) : Array Int := if k = 0 then t.1 else if k = 1 then t.2.1 else t.2.2
    build fun k i =>
      let h (t : Array Int × Array Int × Array Int) : Int := upH cenH (pick t k) i
      if r.flat then h a1
      else if cenV then fCen (h a0) (h a1) (h a2) (y % 2 == 1) else fCos (h a1) (h a2) (y % 2 == 1)
  else if x.colourFormat = 2 then
    let t := (chroma l 0, chroma l 1, chroma l 2)
    build fun k i => upH false (if k = 0 then t.1 else if k = 1 then t.2.1 else t.2.2) i
  else
    let t := (chroma l 0, chroma l 1, chroma l 2)
    build fun k i => (if k = 0 then t.1 else if k = 1 then t.2.1 else t.2.2).getD i 0

/-- A pixel outside the selected surface: colour 0, alpha 0 (R201, R213). -/
def outsidePx (c : SlotCfg) (f : LayerCfg) : Px := stage12 c f (layerMatrix c f) {}

/-- Whether the layer has a scaler. -/
def LayerCfg.scaled (f : LayerCfg) : Bool := f.scaler != 255

/-- Source lines of the rectangle: half of them under BOB with a scaler (R204). -/
def sourceRows (f : LayerCfg) (a : List SurfaceSt) : Nat := if f.scaled && bobs a then f.srcHeight / 2 else f.srcHeight

/-- Rectangle row r through stages 0 to 3, by rectangle column. -/
def rectRow (mem : List Host.Cell) (c : SlotCfg) (f : LayerCfg) (r : LayerRead) (frame prbs row : Nat) : Array Px :=
  let out := outsidePx c f
  if f.sourceKind = 2 then
    ((List.range f.srcWidth).map fun i =>
      let p := synthPixel c.synth f frame prbs i row
      stage12 c f (layerMatrix c f) (if f.alphaMode = 2 then { p with a := 65535 } else p)).toArray
  else
    let bobScaled := f.scaled && bobs r.a
    let sy := (if bobScaled then f.srcY / 2 else f.srcY) + row
    match sourceLine r.a bobScaled sy with
    | none => (List.replicate f.srcWidth out).toArray
    | some (x, y) =>
      if y ≥ x.height then (List.replicate f.srcWidth out).toArray
      else
        let px := surfaceRow mem c f r x y ((sourceLine r.b bobScaled sy).map (·.1))
        ((List.range f.srcWidth).map fun i =>
          if (match r.cut with | some w => decide (w ≤ i) | none => false) then out else px.getD (f.srcX + i) out).toArray

/-! ### Stage 4: scaling (R231, R233 to R235) -/

/-- `pos` of R233. -/
def scalePos (i nSrc nDst : Nat) (offset : Int) : Int :=
  (((2 * i + 1) * 64 * nSrc : Nat) - (64 * nDst : Nat) + (nDst : Int)) / (2 * nDst : Nat) + offset

/-- The eight coefficients of a kernel of a slot at a phase; direction 0 horizontal, 1 vertical (R231, R232). -/
def slotCoeffs (c : SlotCfg) (dir kernel phase : Nat) : List Int :=
  if kernel = 5 then
    match smFind dir c.coeffs with
    | some t => (t.drop (8 * phase)).take 8
    | none => kernelCoeffs 2 phase
  else kernelCoeffs kernel phase

/-- Vertical offset of a bottom field under BOB (R233). -/
def bobOffset (a : List SurfaceSt) : Int := if bobs a && a.any (fun x => bit x.marks 1) then -32 else 0

/-- Rectangle rows that output row j needs, tap by tap (R234); one row without a vertical filter. -/
def tapRows (c : SlotCfg) (f : LayerCfg) (a : List SurfaceSt) (j : Nat) : List Nat :=
  if !f.scaled || c.scalerSet.vKernel = 0 then [j]
  else
    let sh := sourceRows f a
    let p := scalePos j sh f.dstHeight (c.scalerSet.vOffset + bobOffset a)
    (List.range 8).map fun (t : Nat) => (clip (p / 64 - 3 + t) 0 ((sh : Int) - 1)).toNat

/-- Rectangle columns that output column i needs (R234). -/
def tapCols (c : SlotCfg) (f : LayerCfg) (i : Nat) : List Nat :=
  if !f.scaled || c.scalerSet.hKernel = 0 then [i]
  else
    let p := scalePos i f.srcWidth f.dstWidth c.scalerSet.hOffset
    (List.range 8).map fun (t : Nat) => (clip (p / 64 - 3 + t) 0 ((f.srcWidth : Int) - 1)).toNat

/-- A weighted sum with its rounding (R235). -/
def filter8 (cs : List Int) (vs : List Int) : Int := ((List.zipWith (· * ·) cs vs).sum + 512) / 1024

/-- The four values of a pixel. -/
def Px.vals (p : Px) : List Int := [(p.c0 : Int), (p.c1 : Int), (p.c2 : Int), (p.a : Int)]

/-- Output row j of a layer through stage 4, for some output columns (R235). -/
def layerRow (mem : List Host.Cell) (c : SlotCfg) (f : LayerCfg) (r : LayerRead) (frame prbs j : Nat) (cols : List Nat) : List Px :=
  let rows := (tapRows c f r.a j).map fun k => rectRow mem c f r frame prbs k
  if !f.scaled then
    let row := rows.headD #[]
    cols.map fun i => row.getD i {}
  else
    let sh := sourceRows f r.a
    let pv := scalePos j sh f.dstHeight (c.scalerSet.vOffset + bobOffset r.a)
    let cv := slotCoeffs c 1 c.scalerSet.vKernel (pv % 64).toNat
    let mid (col k : Nat) : Int :=
      if c.scalerSet.vKernel = 0 then ((rows.headD #[]).getD col {}).vals.getD k 0
      else filter8 cv (rows.map fun row => (row.getD col {}).vals.getD k 0)
    cols.map fun i =>
      let ph := scalePos i f.srcWidth f.dstWidth c.scalerSet.hOffset
      let ch := slotCoeffs c 0 c.scalerSet.hKernel (ph % 64).toNat
      let o (k : Nat) : Int := if c.scalerSet.hKernel = 0 then mid i k else filter8 ch ((tapCols c f i).map fun col => mid col k)
      let cl (k : Nat) : Nat := (clip (o k) 0 1048575).toNat
      { c0 := cl 0, c1 := cl 1, c2 := cl 2, a := (clip (o 3) 0 65535).toNat }

/-! ### Blending (R219 to R221) -/

/-- `d65535` of R219. -/
def d65535 (x : Nat) : Nat := (2 * x + 65535) / 131070

/-- A covering pixel over the accumulated colour (R220). -/
def blendPx (premul : Bool) (layerAlpha : Nat) (p acc : Px) : Px :=
  let al := d65535 (p.a * layerAlpha)
  let o (k : Nat) : Nat :=
    let n := if premul then p.comp k * layerAlpha + acc.comp k * (65535 - al) else p.comp k * al + acc.comp k * (65535 - al)
    min (d65535 n) 1048575
  { c0 := o 0, c1 := o 1, c2 := o 2, a := 65535 }

/-! ### Output (R222, R223, R237, R259) -/

/-- `reduce` of R223. -/
def reduce (bd v : Nat) : Nat := (v * (2 ^ bd - 1) * 2 + 1048575) / 2097150

/-- legal_clip of R223 for component k. -/
def legal (fmt bd k v : Nat) : Nat :=
  let lo := 16 * 2 ^ bd / 256
  let hi := (if fmt != 0 && k != 0 then 240 else 235) * 2 ^ bd / 256
  max lo (min v hi)

/-- The accumulated colour through the output matrix (R223 step 1). -/
def outMatrix (c : ColourCfg) (p : Px) : Px := if c.matrixEnable = 1 then matPixel c.matrix p else p

/-- One sample reduced and clipped (R223 steps 3, 4). -/
def outSample (c : ColourCfg) (k v : Nat) : Nat :=
  let r := reduce c.outDepth v
  if c.legalClip = 1 then legal c.outFormat c.outDepth k r else r

/-- The chroma values of component k on a line after the horizontal step of R237. -/
def downH (c : ColourCfg) (k : Nat) (line : Array Px) : List Nat :=
  (List.range (line.size / 2)).map fun q =>
    let a := (line.getD (2 * q) {}).comp k
    if c.outFormat = 3 && c.siting = 2 then (a + (line.getD (2 * q + 1) {}).comp k + 1) / 2 else a

/-- The samples of a line by component (R223): `next` is the line below, which a vertical chroma filter needs. -/
def outLine (c : ColourCfg) (chroma : Bool) (line next : Array Px) : List (List Nat) :=
  let comp (k : Nat) : List Nat := line.toList.map fun p => outSample c k (p.comp k)
  if c.outFormat = 3 then
    let ch (k : Nat) : List Nat :=
      if !chroma then []
      else
        let a := downH c k line
        let v := if c.siting = 0 then a else List.zipWith (fun x y => (x + y + 1) / 2) a (downH c k next)
        v.map (outSample c k)
    [comp 0, ch 1, ch 2]
  else if c.outFormat = 2 then [comp 0, (downH c 1 line).map (outSample c 1), (downH c 2 line).map (outSample c 2)]
  else [comp 0, comp 1, comp 2]

/-- The samples of a black line (R259). -/
def blackLine (c : ColourCfg) (chroma : Bool) (w : Nat) : List (List Nat) :=
  let bd := c.outDepth
  let lo := if c.range = 1 then 16 * 2 ^ bd / 256 else 0
  let mid := if c.outFormat = 0 then lo else 2 ^ (bd - 1)
  let ws := lineWidths c.outFormat w chroma
  [List.replicate (ws.getD 0 0) lo, List.replicate (ws.getD 1 0) mid, List.replicate (ws.getD 2 0) mid]

end Sys2Proof.Machine
end

