-- ==== Sys2Proof/Machine/HeadLine.lean ====
section
/-! DEFINITION. One raster line of a head: what each layer reads for it (R191, R201, R202, R244, R264), its fetches (R392), the
composited pixels and the underrun fill (R265), and the VIDEO_LINE packets (R103, R104, R255). -/
namespace Sys2Proof.Machine
open Sys2Proof

/-! ### What a layer shows on a line -/

/-- What a layer contributes to a line. -/
inductive LayerDraw where
  /-- Nothing. -/
  | nothing
  /-- fill_colour (R221). -/
  | fill
  /-- Pixels read from its source. -/
  | read (r : LayerRead)
  deriving DecidableEq, Repr

/-- Whether a layer covers a line of the frame (R201). -/
def LayerCfg.coversY (f : LayerCfg) (y : Nat) : Bool := decide (f.dstY ≤ (y : Int)) && decide ((y : Int) < f.dstY + f.dstHeight)

/-- What a not-ready policy shows (R264): the previous selection, nothing, or the fill. -/
def policyDraw (f : LayerCfg) (repeat_ : LayerDraw) : LayerDraw :=
  match f.notReadyPolicy with
  | 1 => .nothing
  | 2 => .fill
  | _ => repeat_

/-- What a layer reads from some surfaces: A, then B of a blend (R185, R189, R244). -/
def Dev.readOf (c : SlotCfg) (f : LayerCfg) (l : LayerSt) (ids : List Nat) (v : Dev) : LayerRead :=
  let xs := ids.map v.surface
  let k := if f.weaves && xs.any (fun x => bit x.marks 2) then 2 else 1
  let ab := if f.sourceKind = 1 && f.syncMode = 2 then (xs.take k, xs.drop k) else (xs, [])
  let cut := l.short && f.shortBufferPolicy == 0
  { a := ab.1, b := ab.2, w := if ab.2.isEmpty then 0 else l.weight, cut := if cut then some c.wBuf else none, flat := cut && c.chGran == 0 }

/-- The chroma lines of a 4:2:0 surface that its line y takes (R236, R244), each by the first surface line that it serves. -/
def chromaLines (f : LayerCfg) (flat : Bool) (x : SurfaceSt) (y : Nat) : List Nat :=
  let q := y / 2
  let last := x.height / 2 - 1
  let qs := if flat then [q] else if y % 2 = 1 then [q, q + 1] else if f.chromaSiting != 0 then [q - 1, q] else [q]
  (qs.map fun k => 2 * min k last).eraseDups

/-- The lines of planes that a row of the destination needs: surface, whether it is the chroma plane of 4:2:0, line (R234, R236). -/
def neededLines (c : SlotCfg) (f : LayerCfg) (flat : Bool) (ids : List SurfaceSt) (j : Nat) : List (SurfaceSt × Bool × Nat) :=
  let bob := f.scaled && bobs ids
  let rows := ((tapRows c f ids j).filterMap fun r => sourceLine ids bob ((if bob then f.srcY / 2 else f.srcY) + r)).filter
    (fun q => decide (q.2 < q.1.height))
  (rows.flatMap fun q => (q.1, false, q.2) ::
    (if q.1.colourFormat = 3 then (chromaLines f flat q.1 q.2).map fun k => (q.1, true, k) else [])).eraseDups

/-- The highest surface line that a row of the destination needs, chroma included (R191). -/
def highestLine (c : SlotCfg) (f : LayerCfg) (r : LayerRead) (j : Nat) : Nat :=
  ((neededLines c f r.flat r.a j).map (·.2.2)).foldl max 0

/-- Whether a line of a CHASE layer may read the bound surface (R190, R191). -/
def Dev.chasePasses (c : SlotCfg) (f : LayerCfg) (l : LayerSt) (b j : Nat) (v : Dev) : Bool :=
  let x := v.surface b
  x.state == .complete || (x.state == .writing && decide (highestLine c f (v.readOf c f l [b]) j + f.chaseLines < x.written))

/-- A not-ready policy acts on a line of a CHASE layer: one not_ready_frames for the field, and state 3 (R264). -/
def LayerSt.actsOnLine (f : LayerCfg) (l : LayerSt) : LayerSt :=
  if f.enable = 1 then { l with lineActs := true, notReady := if l.lineActs then l.notReady else satInc l.notReady } else l

/-- What a layer slot contributes to line `y` of the frame, with what that changes: CHASE binds and substitutes (R190, R191), which a layer
that is not shown does too (R202, R244). -/
def Dev.layerDraw (n y : Nat) (v : Dev) : Dev × LayerDraw :=
  let c := v.cfg.slot n
  match c.layer with
  | none => (v, .nothing)
  | some f =>
    if !f.coversY y then (v, .nothing)
    else
      let v := v.bindChase n
      let l := v.layer n
      let j := ((y : Int) - f.dstY).toNat
      let seen (d : LayerDraw) : LayerDraw := if f.enable != 1 || (l.short && f.shortBufferPolicy == 1) then .nothing else d
      let from_ (ids : List Nat) : LayerDraw := if ids.isEmpty && f.sourceKind != 2 then .nothing else .read (v.readOf c f l ids)
      if l.policyActs then (v, seen (policyDraw f (from_ l.shown)))
      else if f.sourceKind = 1 && f.syncMode = 3 then
        match l.bound, l.fallback with
        | none, _ => (v, .nothing)
        | some b, k =>
          if v.chasePasses c f l b j then (v, seen (from_ [b]))
          else
            let l := { l with chaseSubs := satInc l.chaseSubs }
            match k with
            | some k => (v.setLayer n l, seen (from_ [k]))
            | none => (v.setLayer n (l.actsOnLine f), seen (policyDraw f (from_ l.prev)))
      else (v, seen (from_ l.shown))

/-! ### Fetches -/

/-- A piece of a surface that is fetched: its place, the surface column it begins at, and the bytes of a column; 0 for a tile, whose 32
columns arrive together. -/
structure Piece where
  /-- Address. -/
  addr : Nat
  /-- Length in bytes. -/
  len : Nat
  /-- First column. -/
  col : Nat
  /-- Bytes of a column. -/
  per : Nat
  deriving DecidableEq, Repr

/-- The columns of a surface that a layer reads: its rectangle inside the surface and W_buf, with a chroma pair on each side (R236, R239). -/
def readColumns (f : LayerCfg) (cut : Option Nat) (x : SurfaceSt) : Nat × Nat :=
  let lo := f.srcX
  let hi := min x.width (f.srcX + min f.srcWidth (cut.getD f.srcWidth))
  if subsampled x.colourFormat then (lo / 2 * 2 - 2, min x.width ((hi + 1) / 2 * 2 + 2)) else (lo, hi)

/-- The tiles across that a layer reads. -/
def readTiles (f : LayerCfg) (cut : Option Nat) (x : SurfaceSt) : List Nat :=
  let g := readColumns f cut x
  (List.range (tilesX x.width)).filter fun tx => decide (g.1 < 32 * tx + 32) && decide (32 * tx < g.2)

/-- The pieces of a needed line: the columns of a raw line; of an MTF tile row the metadata of the tiles read and the sectors that it
names (R163, R171). -/
def linePieces (mem : List Host.Cell) (f : LayerCfg) (cut : Option Nat) (q : SurfaceSt × Bool × Nat) : List Piece :=
  let x := q.1
  if x.storage = 1 then
    (readTiles f cut x).flatMap fun tx =>
      let d := x.tileData mem tx (q.2.2 / 4)
      [{ addr := metaAddr x.base x.width tx (q.2.2 / 4), len := 1, col := 32 * tx, per := 0 }, { addr := d.1, len := d.2, col := 32 * tx, per := 0 }]
  else
    let g := readColumns f cut x
    let per := lineBytes x.colourFormat x.bitDepth 1
    if g.1 < g.2 then [{ addr := (x.rawLine q.2.1 q.2.2).1 + g.1 * per, len := (g.2 - g.1) * per, col := g.1, per := per }] else []

/-- Needed lines by what is fetched for them: tile rows of an MTF surface once (R171). -/
def fetchUnits (xs : List (SurfaceSt × Bool × Nat)) : List (SurfaceSt × Bool × Nat) :=
  (xs.map fun q => if q.1.storage = 1 then (q.1, false, q.2.2 / 4 * 4) else q).eraseDups

/-- The columns of a piece whose data stands in uncorrectable beats (R392). -/
def Dev.badColumns (p : Piece) (v : Dev) : List (Nat × Nat) :=
  (v.badBeats p.addr p.len).map fun b =>
    if p.per = 0 then (p.col, p.col + 31) else (p.col + (b - p.addr) / p.per, p.col + (b + 63 - p.addr) / p.per)

/-- The surface columns of a plane that a pixel's samples take, chroma upsampling included (R236). -/
def tapSpan (f : LayerCfg) (x : SurfaceSt) (luma : Bool) (k : Nat) : Nat × Nat :=
  if subsampled x.colourFormat && !luma then
    let odd := k % 2 == 1
    (2 * (k / 2 - b01 (x.colourFormat == 3 && f.chromaSiting == 2 && !odd)), 2 * (k / 2 + b01 odd) + 1)
  else (k, k)

/-- Whether the pieces of a unit hold a plane of luma alone. -/
def lumaOnly (q : SurfaceSt × Bool × Nat) : Bool := q.1.storage == 0 && q.1.colourFormat == 3 && !q.2.1

/-- The fetches of one layer for a line: accesses of the cluster's master, malformed tiles of the tile rows it fetches, and the first of
some output columns, counted from the destination's edge, whose data did not arrive: bad beats, or all of it while the cluster's master drains
(R171, R265, R383, R392). -/
def Dev.layerFetch (mem : List Host.Cell) (n j : Nat) (r : LayerRead) (cols : List Nat) (v : Dev) : Dev × Option Nat :=
  let c := v.cfg.slot n
  match c.layer with
  | none => (v, none)
  | some f =>
    let units (j : Nat) := fetchUnits (neededLines c f r.flat r.a j ++ (if r.w = 0 then [] else neededLines c f r.flat r.b j))
    let need := units j
    let fresh := if j = 0 then need else need.filter fun q => !(units (j - 1)).contains q
    let v := fresh.foldl (fun v q =>
      let v := (linePieces mem f r.cut q).foldl (fun v p =>
        (v.badBeats p.addr p.len).foldl (fun v b => v.eccError true b) (v.access (16 + n / 32) p.addr p.len)) v
      if q.1.storage = 1 then
        let bad := ((readTiles f r.cut q.1).filter fun tx => (q.1.readTileAt mem tx (q.2.2 / 4)).2).length
        v.modLayer n fun l => { l with mtfErrors := satAdd l.mtfErrors bad }
      else v) v
    let bad := need.flatMap fun q => (linePieces mem f r.cut q).flatMap fun p => (v.badColumns p).map fun g => (q.1, lumaOnly q, g)
    if (v.master (16 + n / 32)).draining && !fresh.isEmpty then (v, cols.head?)
    else if bad.isEmpty then (v, none)
    else (v, cols.find? fun i => (tapCols c f i).any fun k => bad.any fun b =>
      let g := tapSpan f b.1 b.2.1 (f.srcX + k)
      decide (g.1 ≤ b.2.2.2) && decide (b.2.2.1 ≤ g.2))

/-! ### The composited line -/

/-- Slots of a head in stacking order (R202). -/
def Cfg.stack (h : Nat) (c : Cfg) : List Nat :=
  let xs := (c.slotsOf h).map fun s => (((s.2.layer.map (·.z)).getD 0), s.1)
  (List.range 16).flatMap fun z => (xs.filter (·.1 == z)).map (·.2)

/-- The frame number shown by STAMP, and the PRBS state before pixel (0, 0) of the frame (R217, R218). -/
def LayerSt.prbsNow (c : SynthCfg) (l : LayerSt) : Nat := if c.prbsReseed = 1 then c.prbsSeed else l.prbs

/-- The columns of a layer's destination that lie on a head of width `w`, counted from the destination's edge (R201, R266). -/
def LayerCfg.colsOn (f : LayerCfg) (xoff w : Nat) : List Nat :=
  let x0 := clip (f.dstX - xoff) 0 w
  let x1 := clip (f.dstX + f.dstWidth - xoff) 0 w
  (List.range (x1 - x0).toNat).map fun (i : Nat) => (x0 + (i : Int) + xoff - f.dstX).toNat

/-- One layer blended over a line; `xoff` is the pair coordinate of the head's first pixel (R201, R220, R266). -/
def Dev.layerOver (mem : List Host.Cell) (n y xoff frame : Nat) (d : LayerDraw) (line : Array Px) (v : Dev) : Array Px :=
  let c := v.cfg.slot n
  match c.layer, d with
  | none, _ => line
  | _, .nothing => line
  | some f, d =>
    let w : Int := line.size
    let x0 := clip (f.dstX - xoff) 0 w
    let cols := f.colsOn xoff line.size
    let px := match d with
      | .fill => cols.map fun _ => colour60 f.fillColour 65535
      | .read r => layerRow mem c f r frame ((v.layer n).prbsNow c.synth) ((y : Int) - f.dstY).toNat cols
      | .nothing => []
    let premul := match d with | .fill => false | _ => f.alphaMode == 1
    (line.toList.take x0.toNat ++ List.zipWith (fun p a => blendPx premul f.layerAlpha p a) px ((line.toList.drop x0.toNat).take px.length)
      ++ line.toList.drop (x0.toNat + px.length)).toArray

/-- The accumulated line `y` of a head's frame, the state after the fetches, and the first pixel whose data did not arrive. -/
def State.compLine (h y xoff w frame : Nat) (s : State) : State × Array Px × Option Nat :=
  let c := s.dev.cfg.head h
  let bg := colour60 c.colour.background 65535
  let acc := (s.dev.cfg.stack h).foldl (fun (q : Dev × Array Px × Option Nat) n =>
    let (v, line, bad) := q
    let (v, d) := v.layerDraw n y
    let f := ((v.cfg.slot n).layer).getD {}
    let (v, miss) := match d with
      | .read r => v.layerFetch s.mem n ((y : Int) - f.dstY).toNat r (f.colsOn xoff w)
      | _ => (v, none)
    let at_ := miss.map fun i => (f.dstX + (i : Int) - xoff).toNat
    let bad := match at_, bad with
      | some a, some b => some (min a b)
      | some a, none => some a
      | none, b => b
    (v, v.layerOver s.mem n y xoff frame d line, bad))
    (s.dev, (List.replicate w bg).toArray, none)
  ({ s with dev := acc.1 }, acc.2.1, acc.2.2)

/-- The VIDEO_LINE payloads of a line: segments of the greatest length that a packet holds (R95, R104, R121). -/
def linePackets (fmt bd w line : Nat) (chroma : Bool) (comps : List (List Nat)) : List (List Byte) :=
  let per := max 1 (65472 / max 1 (gbits fmt bd)) * groupPixels fmt
  (List.range (ceilDiv w per)).map fun i =>
    let x := i * per
    let n := min per (w - x)
    let cut (k : Nat) : List Nat :=
      let st := if k > 0 && subsampled fmt then 2 else 1
      ((comps.getD k []).drop (x / st)).take (n / st)
    toBE 2 line ++ toBE 2 x ++ toBE 2 n ++ zeros 2 ++ packLine fmt bd n chroma [cut 0, cut 1, cut 2]

end Sys2Proof.Machine
end

