-- ==== Sys2Proof/Machine/Raster.lean ====
section
/-! DEFINITION. Raster arithmetic: the derived quantities of a head (R248), its pixel counts and the instants of its raster (R252 to
R254). -/
namespace Sys2Proof.Machine
open Sys2Proof

/-! ### Derived quantities (R248) -/

/-- h_total. -/
def TimingCfg.hTotal (t : TimingCfg) : Nat := t.hActive + t.hFp + t.hSync + t.hBp
/-- Whether the scan is interlaced. -/
def TimingCfg.interlaced (t : TimingCfg) : Bool := t.scan != 0
/-- va: active lines of a field. -/
def TimingCfg.va (t : TimingCfg) : Nat := if t.interlaced then t.vActive / 2 else t.vActive
/-- v_fp of R248. -/
def TimingCfg.vFp0 (t : TimingCfg) : Nat := if t.mode = 1 then t.vFpMin else t.vFp
/-- v_field with a given front porch. -/
def TimingCfg.vFieldAt (t : TimingCfg) (fp : Nat) : Nat := t.va + fp + t.vSync + t.vBp
/-- v_field. -/
def TimingCfg.vField (t : TimingCfg) : Nat := t.vFieldAt t.vFp0
/-- v_total with a given front porch. -/
def TimingCfg.vTotalAt (t : TimingCfg) (fp : Nat) : Nat := if t.interlaced then 2 * t.vFieldAt fp + t.interlaceExtra else t.vFieldAt fp
/-- v_total. -/
def TimingCfg.vTotal (t : TimingCfg) : Nat := t.vTotalAt t.vFp0
/-- rate at a given v_total as an unreduced fraction, frames per second. -/
def TimingCfg.rateAt (t : TimingCfg) (vTotal : Nat) : Nat × Nat := (t.dcoFreqHz * t.pclkNum, t.pclkDen * t.hTotal * vTotal)
/-- rate as the reduced fraction that FORMAT declares (R251). -/
def TimingCfg.rate (t : TimingCfg) : Nat × Nat :=
  let r := t.rateAt t.vTotal
  let g := max 1 (Nat.gcd r.1 r.2)
  (r.1 / g, r.2 / g)
/-- t_lead in quarter picoseconds at the nominal frequency, rounded up. -/
def TimingCfg.leadQ (t : TimingCfg) : Nat := max (20 * usQ) (ceilDiv (8 * t.hTotal * secQ * t.pclkDen) (max 1 (t.dcoFreqHz * t.pclkNum)))

/-- The time that `n` pixels take on a timing channel at the frequency in force, quarter picoseconds, rounded up (R252). -/
def TimingCfg.pixQ (t : TimingCfg) (x : TcSt) (n : Nat) : Nat := ceilDiv (n * t.pclkDen * secQ * ppmOne) (max 1 (t.pclkNum * x.dcoScaled))

/-- Quarter picoseconds of `i` nominal field periods, as a fraction (R254). -/
def TimingCfg.fieldsQ (t : TimingCfg) (i : Nat) : Nat × Nat :=
  (i * t.hTotal * t.vTotal * secQ * t.pclkDen, max 1 (t.dcoFreqHz * t.pclkNum * (if t.interlaced then 2 else 1)))

/-- Nominal field period in quarter picoseconds, rounded down. -/
def TimingCfg.fieldQ (t : TimingCfg) : Nat := (t.fieldsQ 1).1 / (t.fieldsQ 1).2

/-- R0 in device time, quarter picoseconds, of a head that goes live with effective time `e` (R254): the smallest start_time + i T_nom that
is not before it. -/
def TimingCfg.originQ (t : TimingCfg) (e : Nat) : Nat :=
  if t.startTime = 0 then e
  else
    let s := qOfU t.startTime
    let f := t.fieldsQ 1
    let i := ceilDiv ((e - s) * f.2) (max 1 f.1)
    s + ceilDiv (t.fieldsQ i).1 f.2

/-- What of a record makes a HEAD.TIMING a timing change: all but the five fields of R257. -/
def TimingCfg.core (t : TimingCfg) : TimingCfg :=
  { t with blackFrames := 0, eventLine := 0, followOffsetNs := 0, underrunColour := 0, startTime := 0 }

/-- The descriptor that a head's FORMAT carries on an egress stream, but for its descriptor_id (R251, R222). -/
def headDesc (t : TimingCfg) (c : ColourCfg) (presOffset : Nat) : Desc :=
  { colourFormat := c.outFormat, bitDepth := c.outDepth, scan := t.scan, width := t.hActive, height := t.vActive, hTotal := t.hTotal,
    vTotal := t.vTotal, rateNum := t.rate.1, rateDen := t.rate.2, colorimetry := c.colorimetry, transfer := c.transfer, range := c.range,
    siting := c.siting, presOffset := presOffset, tsScale := 1 }

/-! ### Pairs (R266) -/

/-- The egress streams fed by some heads. -/
def Cfg.fedByHeads (g : List Nat) (c : Cfg) : List (Nat × Nat) := g.flatMap fun k => (c.fedBy (.head k)).map fun e => (k, e)

/-! ### Porches -/

/-- Blanking lines from the last Midnight point to the next active start. -/
def TimingCfg.porchLines (t : TimingCfg) (hs : HeadSt) : Nat := hs.vFpNext + t.vSync + t.vBp + (if hs.extraDue then t.interlaceExtra else 0)

/-- C at a pixel count of a head's raster (R252); a fraction of the unit is rounded up. -/
def HeadSt.phaseN (t : TimingCfg) (n : Nat) (x : HeadSt) : Nat :=
  x.originP + ceilDiv ((n - x.originN) * t.pclkDen * cycleP) (max 1 t.pclkNum)

/-- N at a count of the channel, in whole pixels (R252). -/
def HeadSt.pixelsAt (t : TimingCfg) (phase : Nat) (x : HeadSt) : Nat :=
  x.originN + (phase - x.originP) * t.pclkNum / (max 1 t.pclkDen * cycleP)

/-- The raster instant of a pixel count: the t at which N(t) = n (R252). -/
def Dev.rasterT (h : Nat) (t : TimingCfg) (n : Nat) (v : Dev) : Nat := (v.tc t.tc).whenP ((v.head h).phaseN t n)

/-- The instant of a head's next Midnight point: R0, or the end of the field in progress (R253, R254). -/
def Dev.midnightDue (h : Nat) (t : TimingCfg) (v : Dev) : Option Nat :=
  let x := v.head h
  match x.startQ with
  | some q => some (v.clk.instantOf q)
  | none => if x.fieldOpen then some (v.rasterT h t (x.activeN + t.va * t.hTotal)) else none

/-- Pixel count of the next active start (R253). -/
def TimingCfg.activeAt (t : TimingCfg) (x : HeadSt) : Nat := x.midnightN + t.porchLines x * t.hTotal

/-- The instant of the next active start, of a head whose front porch is decided (R253, R260). -/
def Dev.activeDue (h : Nat) (t : TimingCfg) (v : Dev) : Option Nat :=
  let x := v.head h
  if x.fieldOpen || x.startQ.isSome || !x.decided then none else some (v.rasterT h t (t.activeAt x))

/-- Device time of the next active start (R253). -/
def Dev.nextActiveQ (h : Nat) (v : Dev) : Nat :=
  match (v.cfg.head h).timing with
  | some t => v.clk.devQ (v.rasterT h t (t.activeAt (v.head h)))
  | none => 0

/-- The pixel count at which a raster line starts (R253): lines of the picture count from the active start, blanking lines from the
Midnight point. -/
def TimingCfg.lineAt (t : TimingCfg) (line : Nat) (x : HeadSt) : Nat :=
  if line < t.va then x.activeN + line * t.hTotal else x.midnightN + (line - t.va) * t.hTotal

/-- Whether a raster line is one that its head can come to now (R253): a line of the open field, or a blanking line after it, not before one
that has started. -/
def TimingCfg.lineOpen (t : TimingCfg) (line next : Nat) (x : HeadSt) : Bool :=
  decide (next ≤ line) && x.startQ.isNone &&
  (if line < t.va then x.fieldOpen
   else !x.fieldOpen && decide (line < t.va + (if x.decided then t.porchLines x else t.vFpMax + t.vSync + t.vBp)))

/-- The number that the next FRAME_START of a head carries (R254). -/
def HeadSt.nextNo (x : HeadSt) : U32 := if x.sent then x.frameNo + 1 else 0

end Sys2Proof.Machine
end

