-- ==== Sys2Proof/Machine/AudioBase.lean ====
section
/-! DEFINITION. The audio engine's channels: resolution (R285), delay (R291 to R294), the choice of path (R297, R298), transitions
(R303, R304, R307), and the measurement of D_auto (R293). -/
namespace Sys2Proof.Machine
open Sys2Proof

/-! ### Rates and records -/

/-- Sample rate of a rate code (R106). -/
def rateHz (code : Nat) : Nat := [32000, 44100, 48000, 88200, 96000, 176400, 192000].getD code 48000
/-- rate_code of a group (R288). -/
def AudioStreamCfg.rate (a : AudioStreamCfg) (g : Nat) : Nat := [a.rate0, a.rate1, a.rate2, a.rate3].getD g 2
/-- sample_width of a group (R288). -/
def AudioStreamCfg.width (a : AudioStreamCfg) (g : Nat) : Nat := [a.width0, a.width1, a.width2, a.width3].getD g 0

/-- rate_code of the group of an embedded channel. -/
def Dev.ecRate (ch : Nat) (v : Dev) : Nat := (v.cfg.audioStream (ch / 32)).rate (ch % 32 / 8)
/-- sample_width of the group of an embedded channel. -/
def Dev.ecWidth (ch : Nat) (v : Dev) : Nat := (v.cfg.audioStream (ch / 32)).width (ch % 32 / 8)
/-- A time rounded to the nearest whole sample period, halves up. -/
def wholePeriods (fs : Nat) (q : Int) : Int :=
  let n := (2 * q * fs + secQ) / (2 * secQ : Nat)
  (2 * secQ * n + fs) / (2 * fs : Nat)

/-- N of a 5 ms fade (R304). -/
def fade5 (fs : Nat) : Nat := max 1 ((5 * fs + 500) / 1000)
/-- N of a transition (R304). -/
def fadeLen (ms fs : Nat) : Nat := max 1 ((ms * fs + 500) / 1000)

/-- The active channels of a group and its channel_count (R288). -/
def Cfg.groupChannels (e g : Nat) (c : Cfg) : Nat :=
  ((List.range 8).filter fun k => (smFind (32 * e + 8 * g + k) c.audio).isSome).foldl (fun m k => max m (k + 1)) 0

/-- The extracted channel that an embedded channel reads (R285). -/
def Cfg.resolveCh (ch : Nat) (c : Cfg) : Option Nat :=
  match smFind ch c.audio with
  | none => none
  | some a =>
    let r := c.route (ch / 32)
    if a.sourceKind = 1 then some a.source
    else if a.sourceKind = 3 && (r.syncHead.isSome || r.take.sourceKind == 1) then some (32 * r.take.source + a.source)
    else none

/-- The active channels of a group and its channel_count, those among them whose release is still in its transition (R288, R303). -/
def Dev.groupChannels (e g : Nat) (v : Dev) : Nat :=
  (List.range 8).foldl (fun m k =>
    let ch := 32 * e + 8 * g + k
    if (smFind ch v.cfg.audio).isSome || (v.ec ch).trans.isSome then k + 1 else m) 0

/-- Whether some embedded channel reads an extracted channel (R279). -/
def Dev.xcActive (x : Nat) (v : Dev) : Bool := v.audio.any fun e => e.2.resolved == some x

/-! ### Events (R306) -/

/-- The event source of an embedded channel: x is 0 LATE, 1 MODE, 2 INPUT, 3 DELAY. -/
def srcAudio (ch x : Nat) : Nat := 4704 + 4 * (ch / 1024) + x

/-! ### Sample clocks (R289, R290) -/

/-- A window of R290 in quarter picoseconds. -/
def winQ : Nat := 500 * usQ

/-- The TC that clocks an egress stream's audio: its head's, else audio_tc (R289). -/
def Dev.clockTc (e : Nat) (v : Dev) : Nat :=
  match (v.cfg.route e).source with
  | .head h => match (v.cfg.head (v.cfg.rasterHead h)).timing with
    | some t => t.tc
    | none => (v.cfg.audioStream e).audioTc
  | _ => (v.cfg.audioStream e).audioTc

/-- The TC phase at which a sample falls: a sample period is set frequency over rate DCO cycles (R289). -/
def SampleClk.pAt (n : Nat) (c : SampleClk) : Nat := c.originP + n * c.freq * cycleP / rateHz c.rate

/-- T of a sample in device time (R290), at the frequencies in force. -/
def Dev.sampleQ (c : SampleClk) (n : Nat) (v : Dev) : Int := (v.clk.devQ ((v.tc c.tc).whenP (c.pAt n)) : Int)

/-- The first sample not yet sent whose T is not before a device time. -/
def Dev.sampleFrom (c : SampleClk) (q : Int) (v : Dev) : Nat :=
  let p := (v.tc c.tc).phaseAt (v.clk.instantOf q.toNat)
  max c.next (ceilDiv ((p - c.originP) * rateHz c.rate) (max 1 (c.freq * cycleP)))

/-- The sample clock of a group: where none runs yet at its rate, sample 0 of the new one falls at phase 0 of its TC (DESIGN CHOICE, log
entry 34). A new set frequency of the TC goes on from the next sample. -/
def Dev.groupClk (e g : Nat) (v : Dev) : SampleClk :=
  let rate := (v.cfg.audioStream e).rate g
  match (smFind g (v.es e).clocks).filter (·.rate == rate) with
  | some c =>
    let f := (v.tc c.tc).cfg.setFreqHz
    if f = c.freq then c else { c with freq := f, originP := c.pAt c.next, next := 0 }
  | none =>
    let tc := v.clockTc e
    let c : SampleClk := { tc := tc, rate := rate, freq := (v.tc tc).cfg.setFreqHz }
    { c with next := v.sampleFrom c ((v.clk.devQ (v.es e).audioT : Nat) + v.presQ e) }

/-- The clock on another TC: its sample 0 is the next sample of the old one, so T has no gap (R289, R307). -/
def SampleClk.move (tc : Nat) (x y : TcSt) (c : SampleClk) : SampleClk :=
  { c with tc := tc, freq := y.cfg.setFreqHz, originP := y.phaseAt (x.whenP (c.pAt c.next)), next := 0 }

/-- The clock of a group before its next sample: it moves to the TC that clocks the stream at the switch point of a take, or at a Midnight
point (R289, R307). -/
def Dev.clkMoved (e : Nat) (c : SampleClk) (v : Dev) : SampleClk :=
  let x := v.es e
  let tc := v.clockTc e
  if c.tc = tc || x.switchWait || !(x.tcMoveQ.all fun q => decide (q ≤ v.sampleQ c c.next)) then c
  else c.move tc (v.tc c.tc) (v.tc tc)

/-- The instants T - O of a group's samples before a device time, and the clock after them (R290); `n` bounds how many one window has. -/
def Dev.windowSamples (e : Nat) (hi : Int) (v : Dev) : Nat → SampleClk → List Int × SampleClk
  | 0, c => ([], c)
  | n + 1, c =>
    let c := v.clkMoved e c
    let q := v.sampleQ c c.next - v.presQ e
    if q < hi then
      let r := v.windowSamples e hi n { c with next := c.next + 1 }
      (q :: r.1, r.2)
    else ([], c)

/-- T of the next sample to be sent of a channel's group. -/
def Dev.nextSampleT (ch : Nat) (v : Dev) : Int :=
  let c := v.groupClk (ch / 32) (ch % 32 / 8)
  v.sampleQ c c.next

/-- Windows of a stream are built from now on, where they were not. -/
def Dev.audioWakes (e : Nat) (v : Dev) : Dev :=
  v.modEs e fun x => if x.audioOn then x else { x with audioOn := true, audioT := v.clk.now, clocks := [] }

/-- A transition that starts at T_sw, from what a channel plays now. A change at the same T_sw before it, none of whose samples has been
sent, gives way: the old side stays (R303, R307). -/
def EcSt.startTrans (kind length : Nat) (tsw : Int) (oldTone : Option Nat) (c : EcSt) : Transition :=
  match c.trans.filter fun tr => tr.done == 0 && tr.switchQ == tsw with
  | some tr => { tr with kind := kind, length := length }
  | none => { kind := kind, switchQ := tsw, length := length, done := 0, oldSource := c.resolved, oldTone := oldTone, oldDelay := c.delay,
              oldPath := c.path, oldAcquired := c.acquired, oldLast := c.lastUsed, oldPrbs := c.prbs }

/-- Samples that a transition lasts from T_sw on (R304). -/
def Transition.total (tr : Transition) : Nat :=
  match tr.kind with
  | 0 => 1
  | 1 | 4 => 2 * tr.length
  | _ => tr.length

/-! ### D_auto (R292, R293) -/

/-- The reference layer of a channel on a head (R292). -/
def Dev.refSlot (ch h : Nat) (a : AudioChCfg) (v : Dev) : Option Nat :=
  let r := v.cfg.rasterHead h
  if a.refSlot != 0xFFFF then
    match (v.cfg.slot a.refSlot).layer with
    | some f => if f.enable != 0 && (v.cfg.headGroup r).contains f.head then some a.refSlot else none
    | none => none
  else
    match (v.ec ch).resolved with
    | none => none
    | some x =>
      let xs := (v.cfg.slotsOf h).filterMap fun n => match n.2.layer with
        | some f => if f.enable = 1 && f.sourceKind = 1 && f.source = x / 32 then some (f.z, n.1) else none
        | none => none
      (xs.foldl (fun (b : Option (Nat × Nat)) e => match b with
        | some q => if e.1 < q.1 then some e else b
        | none => some e) none).map (·.2)

/-- D_auto when a channel starts or its routing changes; none where it is still to be measured (R292, R293). -/
def Dev.dAutoStart (ch : Nat) (a : AudioChCfg) (v : Dev) : Option Int :=
  let e := ch / 32
  let fs := rateHz (v.ecRate ch)
  let far := wholePeriods fs (2000000 * 4000 + v.presQ e)
  match (v.cfg.route e).source with
  | .ingress s => some (if (v.ec ch).resolved.map (· / 32) == some s then wholePeriods fs (v.presQ e) else far)
  | .head h => if (v.refSlot ch h a).isSome then none else some far
  | .none => some far

/-- D and whether delay_max_ms clips it (R291). -/
def Dev.ecDelay (ch : Nat) (a : AudioChCfg) (v : Dev) : Option (Int × Bool) :=
  let base := if a.delayMode = 1 then some (4000 * (a.manualDelayNs : Int)) else (v.ec ch).dAuto
  base.map fun b =>
    let raw := b + secQ * a.trimSamples / (rateHz (v.ecRate ch) : Nat)
    let top : Int := (a.delayMaxMs * msQ : Nat)
    (clip raw 0 top, decide (top < raw))

/-- D as its settings now give it: set at once on a channel that has none or where `step` is false, else by a delay step from `tsw` on,
which waits for the end of a transition (R294, R307). -/
def Dev.applyDelay (ch : Nat) (step : Bool) (tsw : Int) (v : Dev) : Dev :=
  match smFind ch v.cfg.audio with
  | none => v
  | some a =>
    if a.sourceKind = 2 then v
    else match v.ecDelay ch a with
      | none => v.modEc ch fun c => { c with delay := none }
      | some (d, clipped) =>
        let c := v.ec ch
        if c.delay = some d then v.setEc ch { c with pendDelay := none }
        else if step && c.delay.isSome && c.trans.isSome then v.setEc ch { c with pendDelay := some d }
        else
          let v := if clipped then (v.modEc ch fun c => { c with delayClips := satInc c.delayClips }).raise (srcAudio ch 3) ch else v
          let c := v.ec ch
          if step && c.delay.isSome then
            (v.setEc ch { c with
              delay := some d, lastUsed := none, pendDelay := none, delaySteps := satInc c.delaySteps
              trans := some (c.startTrans 4 (fade5 (rateHz (v.ecRate ch))) tsw none) }).raise (srcAudio ch 3) ch
          else v.setEc ch { c with delay := some d, lastUsed := none, pendDelay := none }

/-- The first sample of a channel's group that T_sw, known now, can be. -/
def Dev.stepT (ch : Nat) (v : Dev) : Int := v.nowQ + v.presQ (ch / 32)

/-- Field period of an ingress stream: its mean, or its declared one until the mean is formed. -/
def Dev.ingressPeriod (s : Nat) (v : Dev) : Nat :=
  let x := v.is s
  if x.intervals.length = 16 then x.intervals.sum / 16
  else match x.held with
    | some d => d.periodQ
    | none => ((smFind s v.cfg.ingress).map (·.expected.periodQ)).getD 0

/-- The mean of some values. -/
def meanOf (xs : List Int) : Int := xs.sum / (max 1 xs.length : Nat)

/-- Whether a slot's layer is live and shown: a hidden layer is no reference (R307). -/
def Dev.slotShown (n : Nat) (v : Dev) : Bool := match (v.cfg.slot n).layer with | some f => f.enable == 1 | none => false

/-- The measurement of one channel for the field that a head has sent (R293, R307). -/
def Dev.measureCh (ch h active : Nat) (a : AudioChCfg) (v : Dev) : Dev :=
  match (v.refSlot ch h a).filter (v.slotShown ·) with
  | none => v.modEc ch fun c => { c with meas := [], farRun := 0, fresh := true }
  | some n =>
    let l := v.layer n
    let ring := match (v.cfg.slot n).layer with | some f => f.sourceKind == 1 | none => false
    match l.shown.head? with
    | some k =>
      if !ring || l.policyActs then v
      else
        let c := v.ec ch
        let m : Int := (active : Int) + v.presQ (ch / 32) - (v.surface k).presentQ
        let ms := (c.meas ++ [m]).drop (c.meas.length + 1 - 16)
        let fs := rateHz (v.ecRate ch)
        if c.fresh then
          if ms.length < 4 then v.setEc ch { c with meas := ms }
          else (v.setEc ch { c with meas := ms, fresh := false, farRun := 0, dAuto := some (wholePeriods fs (meanOf ms)) }).applyDelay ch true (v.stepT ch)
        else
          let mean := meanOf ms
          let half := (match c.resolved with | some x => v.ingressPeriod (x / 32) | none => 0)
          let far := decide ((half : Int) < 2 * ((mean - c.dAuto.getD mean).natAbs : Int))
          let run := if far then c.farRun + 1 else 0
          if run < 16 then v.setEc ch { c with meas := ms, farRun := run }
          else (v.setEc ch { c with meas := ms, farRun := 0, dAuto := some (wholePeriods fs mean) }).applyDelay ch true (v.stepT ch)
    | none => v

/-- The measurement of D_auto for every channel of the egress streams of a head, for a field that it has sent with pictures (R293). -/
def Dev.audioField (h active : Nat) (v : Dev) : Dev :=
  if !v.coreUp .m then v
  else (v.cfg.fedBy (.head h)).foldl (fun v e =>
    (v.cfg.audio.filter fun a => a.1 / 32 == e).foldl (fun v a =>
      if a.2.sourceKind != 2 && a.2.delayMode = 0 then v.measureCh a.1 h active a.2 else v) v) v

/-- D_auto of a channel as the routing, O or a group's rate now has it (R292): where it is measured it stays, rounded to the new periods. -/
def Dev.renewAuto (ch : Nat) (tsw : Int) (v : Dev) : Dev :=
  match smFind ch v.cfg.audio with
  | none => v
  | some a =>
    let c := v.ec ch
    let fs := rateHz (v.ecRate ch)
    let now_ := (v.presQ (ch / 32), fs)
    if a.sourceKind = 2 || c.autoFor = now_ then v
    else
      let d := if a.delayMode = 1 then c.dAuto else match v.dAutoStart ch a with
        | some d => some d
        | none => c.dAuto.map (wholePeriods fs)
      (v.setEc ch { c with autoFor := now_, dAuto := d }).applyDelay ch true tsw

/-! ### Paths (R297, R298) -/

/-- The path that a channel's settings and its source call for; 0 is MUTED. `held` says that the offset has held for 10 s. -/
def pathFor (a : AudioChCfg) (x : Xc) (rate width : Nat) (held : Bool) : Nat :=
  let rates := x.rateCode == rate
  let widths := !x.nonPcm || x.width == width
  if a.conversion = 0 then (if rates && widths && held then 2 else if x.nonPcm then 0 else 1)
  else if a.conversion = 1 then (if x.nonPcm then 0 else 1)
  else (if rates && widths then 2 else 0)

/-- Whether the measured offset has been within 0.05 ppm for 10 s (R298). -/
def EcSt.offsetHeld (now : Nat) (c : EcSt) : Bool := match c.goodSince with | some t => decide (t + 10 * secQ ≤ now) | none => false

/-- The path of a channel is chosen again from T = `tsw` on: a change counts and occurs as MODE; for PCM it is a 5 ms crossfade, for
non-PCM a cut. A change under R298 waits for the end of a transition; one with the samples themselves (`now_`, R282) does not, and has no
transition of its own beside the one under way (R297, R298, R307). -/
def Dev.rePath (ch : Nat) (tsw : Int) (now_ : Bool) (v : Dev) : Dev :=
  match smFind ch v.cfg.audio, (v.ec ch).resolved with
  | some a, some x =>
    let c := v.ec ch
    let want := pathFor a (v.xchan x) (v.ecRate ch) (v.ecWidth ch) (c.offsetHeld v.clk.now)
    if a.sourceKind = 2 then v
    else if want = c.path then v.setEc ch { c with pathDue := false }
    else if c.trans.isSome && !now_ then v.setEc ch { c with pathDue := true }
    else
      (v.setEc ch { c with
        path := want, pathDue := false, posError := 0, lastUsed := none, modeChanges := satInc c.modeChanges
        trans := some (c.trans.getD (c.startTrans (if (v.xchan x).nonPcm then 0 else 2) (fade5 (rateHz (v.ecRate ch))) tsw none)) }).raise (srcAudio ch 1) ch
  | _, _ => v

/-- Every embedded channel that reads an extracted channel. -/
def Dev.readers (x : Nat) (v : Dev) : List Nat := (v.audio.filter fun e => e.2.resolved == some x).map (·.1)

/-! ### Starts and switches (R298, R300, R303) -/

/-- Whether a channel is MUTED: it reads a source that its path does not pass (R297, R305). -/
def Dev.ecMuted (ch : Nat) (v : Dev) : Bool :=
  (match smFind ch v.cfg.audio with | some a => a.sourceKind != 2 | none => false) && (v.ec ch).resolved.isSome && (v.ec ch).path == 0

/-- A channel takes up its source: resolution, the starting path, an SRC still to acquire, D (R285, R292, R298, R300). -/
def Dev.startCh (ch : Nat) (v : Dev) : Dev :=
  match smFind ch v.cfg.audio with
  | none => v.modEc ch fun c => { c with path := 0, resolved := none, dAuto := none, delay := none, trans := none, meas := [], fresh := true,
                                         farRun := 0, acquired := false, pendDelay := none, pathDue := false, takeDue := false, switchHeld := false,
                                         toneOld := none, lastUsed := none }
  | some a =>
    let r := v.cfg.resolveCh ch
    let seed := ((smFind a.source v.cfg.tones).map (·.prbsSeed)).getD 0
    let v := v.audioWakes (ch / 32)
    let v := v.modEc ch fun c =>
      { c with resolved := r, goodSince := none, measT := v.clk.now, marks := [], posError := 0, acquired := false, acqT := v.clk.now, lastUsed := none
               meas := [], fresh := true, farRun := 0, pendDelay := none, pathDue := false, takeDue := false, switchHeld := false, delay := none
               trans := none, toneOld := none, autoFor := (v.presQ (ch / 32), rateHz (v.ecRate ch))
               prbs := if a.sourceKind = 2 then seed else c.prbs
               path := if a.sourceKind = 2 then 3 else match r with
                 | some x => pathFor a (v.xchan x) (v.ecRate ch) (v.ecWidth ch) false
                 | none => 0 }
    let d := v.dAutoStart ch a
    (v.modEc ch fun c => { c with dAuto := d, fresh := d.isNone }).applyDelay ch false 0

/-- A channel changes its source with a transition from T_sw on; MUTED as it is entered or left so occurs as MODE (R303, R304, R306). -/
def Dev.switchCh (ch kind ms : Nat) (oldTone : Option Nat) (tsw : Int) (v : Dev) : Dev :=
  let t := (v.ec ch).startTrans kind (fadeLen ms (rateHz (v.ecRate ch))) tsw oldTone
  let muted := v.ecMuted ch
  let v := (v.startCh ch).modEc ch fun c => { c with trans := some t }
  if v.ecMuted ch == muted then v else v.raise (srcAudio ch 1) ch

/-- A take on an egress stream has executed: route-follow channels wait for their switch point, the others have D_auto set by the new
routing (R285, R292, R303). -/
def Dev.audioTake (e : Nat) (v : Dev) : Dev :=
  (v.cfg.audio.filter fun a => a.1 / 32 == e).foldl (fun v a =>
    if a.2.sourceKind = 3 then v.modEc a.1 fun c => { c with takeDue := true }
    else if a.2.sourceKind = 1 && a.2.delayMode = 0 then
      let d := v.dAutoStart a.1 a.2
      (v.modEc a.1 fun c => { c with dAuto := d, fresh := d.isNone, meas := [], farRun := 0 }).applyDelay a.1 true (v.stepT a.1)
    else v) v

/-- The switch point of a take for one channel (R303): the instant it names, or the end of a transition under way where that is later
(R307). -/
def Dev.audioSwitch (ch : Nat) (v : Dev) : Dev :=
  let c := v.ec ch
  let t := (v.cfg.route (ch / 32)).take
  match smFind ch v.cfg.audio, (v.es (ch / 32)).switchQ with
  | some a, some q =>
    if !c.takeDue || a.sourceKind != 3 then v
    else if c.trans.isSome then v.setEc ch { c with switchHeld := true }
    else v.switchCh ch t.audioTransition t.fadeMs none (max q (v.nextSampleT ch))
  | _, _ => v

/-- The end of a transition once all its samples have been sent, and what waited for it, from T = `t` on (R307). -/
def Dev.transitionEnd (ch : Nat) (t : Int) (v : Dev) : Dev :=
  let c := v.ec ch
  match c.trans with
  | none => v
  | some tr =>
    if tr.done < tr.total then v
    else
      let v := v.setEc ch { c with trans := none, switchHeld := false }
      if c.switchHeld then
        let r := (v.cfg.route (ch / 32)).take
        v.switchCh ch r.audioTransition r.fadeMs none (max t ((v.es (ch / 32)).switchQ.getD t))
      else
        let v := if c.pendDelay.isSome then (v.modEc ch fun c => { c with pendDelay := none }).applyDelay ch true t else v
        if c.pathDue then v.rePath ch t false else v

end Sys2Proof.Machine
end

