-- ==== Sys2Proof/Machine/LaneRx.lean ====
section
/-! DEFINITION. The RX directions of the lanes: alignment and blocks (R53 to R59, R65 to R67), bonds and deskew (R68 to R70), the
byte sequence of a stream (R90 to R92), and the PRBS checker (R84, R85). -/
namespace Sys2Proof.Machine
open Sys2Proof

/-! ### One block on one lane -/

/-- What one block does to a lane. -/
structure RxStep where
  /-- The lane after it. -/
  lane : LaneSt
  /-- The block position passed to the stream layer (R66). -/
  pass : Option RxBlock := none
  /-- A lane slip (R59). -/
  slip : Bool := false
  /-- A valid TRAIN or ALIGN changed lane_index or bond_size (R70). -/
  changed : Bool := false
  /-- A good ALIGN (R69). -/
  align : Bool := false
  deriving DecidableEq, Repr

/-- Block positions from an IDLE_ENTER to the one with remaining 0, an ALIGN slot among them taking one more (R65, R75).
`since` is the number of positions since the last ALIGN slot. -/
def idleSpan (since : Option Nat) (z : Nat) : Nat → Nat
  | 0 => 0
  | n + 1 =>
    let k := match since with | some a => if (a + z + 1) % 1024 = 0 then 2 else 1 | none => 1
    k + idleSpan since (z + k) n

/-- A block read in the lane's polarity, or in the one that reads it while none is fixed (R67). -/
def pickBlock (pol : Option Bool) (b0 b1 : Block) : Block :=
  match pol with
  | some p => if p then b1 else b0
  | none => if b0.good then b0 else if b1.good then b1 else if b0.header then b0 else b1

/-- The lane falls to HUNT by a fault; in LOCKED and RELOCK that is a lock loss (R65). -/
def LaneSt.lose (l : LaneSt) : LaneSt := { l.rxHunt with lockLosses := satInc l.lockLosses }

/-- The state machine of R65 at a block position; the flag says whether the header is valid. Header errors are counted from VERIFY on,
code errors likewise: in HUNT there is no block position to judge, and R87 names no state (DEDUCED, log entry 23). -/
def LaneSt.advance (l : LaneSt) (valid : Bool) : LaneSt :=
  let l := if valid then l else { l with headerErrors := satInc l.headerErrors }
  let l := { l with sinceAlign := l.sinceAlign.map (· + 1) }
  match l.rx with
  | .hunt | .idle => l
  | .verify =>
    if !valid then l.rxHunt
    else if l.verifyCount + 1 ≥ 32 then { l with rx := .locked, verifyCount := 32, history := [] }
    else { l with verifyCount := l.verifyCount + 1 }
  | .relock => { l with relockGood := if valid then l.relockGood + 1 else 0 }
  | .locked =>
    let h := (valid :: l.history).take 64
    if (h.filter (!·)).length ≥ 8 then l.lose else { l with history := h }
  | .idlePending =>
    let l := { l with history := (valid :: l.history).take 64 }
    if l.remaining > 0 then { l with remaining := l.remaining - 1 }
    else if !valid then l
    else if l.pendingLeft ≤ 1 then { l with rx := .locked, pendingLeft := 0, idleErrors := satInc l.idleErrors }
    else { l with pendingLeft := l.pendingLeft - 1 }

/-- The contents of a TRAIN or ALIGN: lane_index and bond_size, when the bond_size is one of R61. -/
def trainFields (b : Block) : Option (Nat × Nat) :=
  let o := if b.kind = 1 then 0 else 2
  if bondSizes.contains (fieldU b.payload (o + 1) 1) then some (fieldU b.payload o 1, fieldU b.payload (o + 1) 1) else none

/-- Whether the 24 block times that RELOCK has from signal detect are over (R65, R79). -/
def LaneSt.relockOver (l : LaneSt) (limit now : Nat) : Bool := l.rx == .relock && decide (l.detectT + limit ≤ now)

/-- A framed block of 64 symbols on a lane (R52 to R59, R65 to R67). `stray` counts the commas found at other bit positions: each is a code
error (R54). `devQ` is device time at its arrival, `now` the instant, `limit` 24 block times. -/
def LaneSt.block (l : LaneSt) (syms : List Sym) (stray devQ now limit : Nat) : RxStep :=
  let s0 := (syms.headD 0).toNat
  match l.disparity, commaRd s0 with
  | none, none => { lane := l }
  | dis, com =>
    let rd := (if l.rx == .hunt then com else dis.or com).getD false
    let mark (b : Block) : Block := { b with errors := b.errors + stray, good := b.good && stray == 0 }
    let b0 := mark (decodeBlock false rd syms)
    let b1 := mark (decodeBlock true (!rd) syms)
    let b := pickBlock l.polarity b0 b1
    if l.rx == .hunt && com.isNone then { lane := l }
    else
      let pre := l.passes
      let st := if l.rx == .hunt then { l with rx := .verify, verifyCount := 1 } else l.advance b.header
      if st.rx == .hunt then { lane := { st with codeErrors := satAdd st.codeErrors b.errors } }
      else
        let l1 := { st with disparity := some b0.rd, codeErrors := satAdd st.codeErrors b.errors,
                            crcErrors := if b.header && !b.good then satInc st.crcErrors else st.crcErrors,
                            rxBlocks := if b.good then st.rxBlocks + 1 else st.rxBlocks }
        let train (x : Block) : Bool := x.good && (x.kind == 1 || x.kind == 2)
        if l1.relockOver (limit + 1) now || (l1.rx == .relock && ((train b && trainFields b != some (l1.laneIndex, l1.bondSize))
            || (l1.polarity == some false && train b1) || (l1.polarity == some true && train b0))) then { lane := l1.lose }
        else
          let l1 := if l1.rx == .relock && l1.relockGood ≥ 8 then { l1 with rx := .locked, cdr := true, history := [] } else l1
          let next (x : Nat) : Option Nat := some ((x + 1) % 16)
          let slip := pre && b.good && l1.expSeq.isSome && l1.expSeq != some b.seq
          let l2 := { l1 with expSeq := if b.good then next b.seq else l1.expSeq.bind next,
                              seqBreaks := if slip then satInc l1.seqBreaks else l1.seqBreaks,
                              polarity := if l1.polarity.isNone && (train b0 != train b1) then some (train b1) else l1.polarity }
          let got := if train b then trainFields b else none
          let changed := match got with | some g => g != (l2.laneIndex, l2.bondSize) | none => false
          let l3 := match got with | some g => { l2 with laneIndex := g.1, bondSize := g.2 } | none => l2
          let align := b.good && b.kind == 2 && got.isSome
          let l4 := if align then { l3 with sinceAlign := some 0, marker := fieldU b.payload 0 2, alignT := now,
                                             alignTimes := (l3.alignTimes ++ [devQ]).drop (l3.alignTimes.length + 1 - 65) }
            else l3
          let l5 := if b.good && b.kind == 3 && l4.rx == .locked && pre then
              { l4 with rx := .idlePending, pendingLeft := 8, remaining := idleSpan l4.sinceAlign 0 (fieldU b.payload 0 1) }
            else l4
          { lane := l5, slip := slip, changed := changed, align := align,
            pass := if pre && l5.polarity.isSome then
                some { kind := if b.good then b.kind else 5, payload := if b.good then b.payload else [],
                       marker := if align then l5.marker else 0 }
              else none }

/-! ### The symbol boundary (R54) -/

/-- Received symbols as the bits in which they arrived, the first most significant (R52). -/
def symBits (syms : List Sym) : Nat := syms.foldl (fun a s => a * 1024 + s.toNat) 0

/-- The symbols of a number of ten-bit groups, the first most significant. -/
def bitsSyms : Nat → Nat → List Sym
  | 0, _ => []
  | n + 1, v => BitVec.ofNat 10 (v / 1024 ^ n) :: bitsSyms n (v % 1024 ^ n)

/-- The first bit position, of `n` to look at, where a K28.5 or K28.1 begins in the `len` bits of `v`. -/
def findComma (v len : Nat) : Nat → Nat → Option Nat
  | 0, _ => none
  | n + 1, o => if (commaRd (v / 2 ^ (len - o - 10) % 1024)).isSome then some o else findComma v len n (o + 1)

/-- Commas in the 640 bits of a block at positions that are no symbol boundary (R54): 0b0011111 or 0b1100000. -/
def strayCommas (v : Nat) : Nat :=
  ((List.range 634).filter fun o => o % 10 != 0 && (let w := v / 2 ^ (633 - o) % 128; w == 0b0011111 || w == 0b1100000)).length

/-- The bits of a lane that are still to be framed, at its symbol boundary: in HUNT, those from the first comma on (R54, R65); the flag says
that there is a whole block of them. -/
def LaneSt.frame (l : LaneSt) : LaneSt × Bool :=
  let (len, v) := l.rxTail
  if l.rx == .hunt || l.disparity.isNone then
    match findComma v len (len - 9) 0 with
    | some o => ({ l with rxTail := (len - o, v % 2 ^ (len - o)) }, decide (640 ≤ len - o))
    | none => ({ l with rxTail := (min len 9, v % 2 ^ min len 9) }, false)
  else (l, decide (640 ≤ len))

/-! ### Bonds and deskew (R68 to R70) -/

/-- The bond of a stream dissolves or is lost (R68, R70, R132). -/
def Dev.bondLost (s err : Nat) (v : Dev) : Dev :=
  let v := if (v.is s).state == .off then v else v.isLose s .down 0 err
  v.modIs s fun x => { x with bonded := false, realign := false, epoch := none, sinceEpoch := 0, rows := [], runOpen := false, taken := 0, hunting := false, bondError := err }

/-- A failed epoch check or a lane slip (R70, R117): bond error 5; the stream's bytes are discarded up to the next ALIGN, where the
receiver deskews afresh. -/
def Dev.bondBreak (s n : Nat) (v : Dev) : Dev :=
  let v := if (v.is s).realign then v else (v.isCount s fun x => { x with resyncs := satInc x.resyncs }).breakFrame s
  let v := (List.range n).foldl (fun v i => v.modLane (s + i) fun l => { l with fifo := [], collect := false }) v
  v.modIs s fun x => { x with realign := true, bondError := 5, rows := [], runOpen := false, taken := 0, hunting := false }

/-- Block times by which an arrival lies before another, rounded to the nearest: lanes' blocks arrive at different points of a slot (R69). -/
def blocksBefore (t last block : Nat) : Nat := (2 * (last - t) + block) / (2 * block)

/-- The bond forms, or deskews afresh, once every lane's buffer begins with an ALIGN of one marker_count (R68, R69). -/
def Dev.bondForm (s n : Nat) (v : Dev) : Dev :=
  let order := v.bondOrder s n
  let ls := order.map v.lane
  let l0 := ls.headD {}
  let block := blockQ (v.block (s / 32)).rateCode
  if ls.any (fun l => !l.collect) || ls.any (fun l => (l.fifo.headD {}).marker != (l0.fifo.headD {}).marker || (l.fifo.headD {}).kind != 2) then v
  else if ls.any (fun l => decide (l0.alignT + 64 * block < l.alignT) || decide (l.alignT + 64 * block < l0.alignT)) then
    (if (v.is s).bonded then v.bondLost s 4 else v.modIs s fun x => { x with bondError := 4 })
  else
    let last := ls.foldl (fun t l => max t l.alignT) 0
    let v := order.foldl (fun v n => v.modLane n fun l => { l with deskewBlocks := blocksBefore l.alignT last block,
                                                                   alignTimes := l.alignTimes.drop (l.alignTimes.length - 1) }) v
    let fresh := !(v.is s).bonded
    let v := v.modIs s fun x => { x with bonded := true, realign := false, bondError := 0, sinceEpoch := 0, hunting := false,
                                          epoch := some ((65535 + (l0.fifo.headD {}).marker) % 65536), rows := [], runOpen := false, taken := 0,
                                          reversed := decide ((v.lane s).laneIndex ≠ 0), deskewDelay := blocksBefore l0.alignT last block }
    if fresh then v.isLose s .search 0 0
    else (v.cfg.fedBy (.ingress s)).foldl (fun v e => v.modEs e fun x => { x with delayPs := v.routeDelayPs s e }) v

/-- Conditions 1 to 3 of R68 are looked at for a stream whose bond is not formed; deskew follows. -/
def Dev.bondTry (s : Nat) (v : Dev) : Dev :=
  match smFind s v.cfg.ingress with
  | none => v
  | some c =>
    let err := v.bondJudge s c.bondSize
    if (v.is s).bonded then
      if (v.is s).realign && err = 0 then v.bondForm s c.bondSize else v
    else if err != 0 then v.modIs s fun x => { x with bondError := err }
    else (v.modIs s fun x => { x with bondError := if x.bondError = 4 then 4 else 0 }).bondForm s c.bondSize

/-- Bytes of a DATA row continue the run that is open, or begin a run (R91, R92); a hunt that the end of a run ended is over (R118). -/
def IngressSt.addRow (bs : List (Option Byte)) (x : IngressSt) : IngressSt :=
  if x.runOpen then { x with rows := x.rows.dropLast ++ [x.rows.getLastD [] ++ bs] }
  else { x with rows := x.rows ++ [bs], runOpen := true, taken := if x.rows.isEmpty then 0 else x.taken, hunting := false }.trim

/-- A row of a formed bond in order of lane_index (R70, R91, R92): an ALIGN row and a row of control blocks end the run. -/
def Dev.row (s n : Nat) (bs : List RxBlock) (v : Dev) : Dev :=
  let x := v.is s
  let slot := x.sinceEpoch + 1 ≥ 1024
  if bs.any (fun b => b.kind == 2) then
    let m := (bs.headD {}).marker
    if bs.all (fun b => b.kind == 2 && b.marker == m) && x.epoch == some ((65535 + m) % 65536) then
      v.setIs s { x with epoch := some m, sinceEpoch := 0, runOpen := false }.trim
    else v.bondBreak s n
  else if slot then v.bondBreak s n
  else
    let x := { x with sinceEpoch := x.sinceEpoch + 1 }
    if bs.any (fun b => b.kind == 0) then
      v.setIs s (x.addRow (bs.flatMap (fun b => if b.kind = 0 then b.payload.map some else List.replicate 60 none)))
    else if bs.all (fun b => b.kind == 5) then v.setIs s (x.addRow (List.replicate (60 * n) none))
    else v.setIs s { x with runOpen := false }.trim

/-- Whole rows leave the deskew buffers, oldest first. -/
def Dev.rows (s n : Nat) : Nat → Dev → Dev
  | 0, v => v
  | k + 1, v =>
    let order := v.bondOrder s n
    if !(v.is s).bonded || (v.is s).realign || order.any (fun m => (v.lane m).fifo.isEmpty) then v
    else
      let bs := order.map (fun m => (v.lane m).fifo.headD {})
      let v := order.foldl (fun v m => v.modLane m fun l => { l with fifo := l.fifo.drop 1 }) v
      Dev.rows s n k (v.row s n bs)

/-- The symbol rate offset measured at an ALIGN on the lane with lane_index 0 (R142). -/
def symRate (times : List Nat) (code : Nat) : Option Int :=
  let n := times.length - 1
  if n = 0 then none
  else
    let nominal : Int := ((n * 1024 * blockQ code : Nat) : Int)
    let el : Int := (times.getLastD 0 : Int) - (times.headD 0 : Int)
    some ((2 * (el - nominal) * 1000000 * 65536 + nominal) / (2 * nominal))

/-- A block position passes to the deskew buffer of its lane (R69): the buffer fills from an ALIGN on. Where it holds 128 blocks beside the
ALIGN and the bond has not formed, some lane's ALIGN has not come within tolerance: bond error 4 (R68). -/
def Dev.deskew (s m : Nat) (bonded : Bool) (b : RxBlock) (v : Dev) : Dev :=
  let l := v.lane m
  if b.kind = 2 && (!bonded || !l.collect) then v.setLane m { l with fifo := [b], collect := true }
  else if !l.collect then v
  else if !bonded && l.fifo.length ≥ 129 then
    (v.setLane m { l with fifo := [], collect := false }).modIs s fun x => { x with bondError := 4 }
  else v.setLane m { l with fifo := l.fifo ++ [b] }

/-- What a block does beyond its lane: the bond, the deskew buffer, the rows. On a lane of no configured ingress stream its contents go
nowhere (R71). -/
def Dev.afterBlock (m : Nat) (r : RxStep) (v : Dev) : Dev :=
  match v.cfg.ingressAt m with
  | none => v.modLane m fun l => { l with fifo := [], collect := false }
  | some (s, c) =>
    let n := c.bondSize
    let x := v.is s
    let lost := !r.lane.passes && r.lane.rx != .idle && r.lane.rx != .relock
    if x.bonded && lost then v.bondLost s 3
    else if x.bonded && r.changed then (v.bondLost s (if r.lane.bondSize != n then 1 else 2)).bondTry s
    else
      let v := if x.bonded && r.slip then v.bondBreak s n else v
      let aligned := (v.is s).bonded && !(v.is s).realign
      let v := match r.pass with | some b => v.deskew s m aligned b | none => v
      let v := if aligned then v else v.bondTry s
      let v := if (v.is s).bonded && r.align && (v.lane m).laneIndex = 0 then
          v.modIs s fun x => { x with symOffset := (symRate (v.lane m).alignTimes (v.block (m / 32)).rateCode).getD x.symOffset }
        else v
      v.rows s n (v.lane m).fifo.length

/-- Whether a lane's receiver takes blocks: its block is on, clocked and enabled, the lane is in no PRBS mode, and its CDR is locked
or it relocks. -/
def Dev.rxRuns (m : Nat) (v : Dev) : Bool :=
  let l := v.lane m
  v.mediaOn && v.blockOn (m / 32) && (v.block (m / 32)).refclk && l.rxEnable && l.rxPattern == 0 && (l.cdr || l.rx == .relock) && l.rx != .idle

/-- A framed block leaves the bits of its lane and is taken. After an invalid header the search goes on from the next bit (R65). -/
def Dev.takeBlock (m : Nat) (v : Dev) : Dev :=
  let l := v.lane m
  let (len, bits) := l.rxTail
  let first := bits / 2 ^ (len - 640)
  let rest := (len - 640, bits % 2 ^ (len - 640))
  let r := { l with rxTail := rest }.block (bitsSyms 64 first) (strayCommas first) v.nowQ v.clk.now (24 * blockQ (v.block (m / 32)).rateCode)
  let r := if r.lane.rx == .hunt then { r with lane := { r.lane with rxTail := (len - 1, bits % 2 ^ (len - 1)) } } else r
  let v := (v.updLane m r.lane).afterBlock m r
  match v.cfg.ingressAt m with
  | some (n, _) => v.settle n
  | none => v

/-- The blocks that the bits of a lane hold are taken in turn. -/
def Dev.takeBlocks (m : Nat) : Nat → Dev → Dev
  | 0, v => v
  | k + 1, v =>
    let (l, whole) := (v.lane m).frame
    let v := v.setLane m l
    if whole then Dev.takeBlocks m k (v.takeBlock m) else v

/-- BLOCK_RECEIVED (R54, R65): 640 bits arrive; with those left over they hold at most two blocks. -/
def execBlockReceived (t : Nat) (lane : Fin 512) (syms : List Sym) (s : State) : Result :=
  .next ((s.arrive t).onDev fun v =>
    if v.rxRuns lane then
      (v.modLane lane fun l => { l with rxTail := (l.rxTail.1 + 10 * syms.length, l.rxTail.2 * 1024 ^ syms.length + symBits syms) }).takeBlocks lane 2
    else v)

/-! ### Signal and CDR (R65, R72, R79) -/

/-- Whether a lane's receiver is there to notice its input. -/
def Dev.rxThere (m : Nat) (v : Dev) : Bool :=
  v.mediaOn && v.blockOn (m / 32) && (v.block (m / 32)).refclk && (v.lane m).rxEnable && (v.lane m).rxPattern == 0

/-- A lane's receiver changes state outside a block, and its bond with it. -/
def Dev.rxChange (m : Nat) (l : LaneSt) (v : Dev) : Dev :=
  let v := (v.updLane m l).afterBlock m { lane := l }
  match v.cfg.ingressAt m with
  | some (n, _) => v.settle n
  | none => v

/-- The lane after signal loss (R65): an announced one idles, retaining what R65 retains; any other goes to HUNT.
The ALIGN intervals of R142 begin again after it: one that spans the silence is not 65,536 symbols long (DESIGN CHOICE, log entry 23). -/
def LaneSt.signalLost (l : LaneSt) : LaneSt :=
  match l.rx with
  | .idlePending => { l with rx := .idle, cdr := false, disparity := none, fifo := [], collect := false, expSeq := none, rxTail := (0, 0), alignTimes := [],
                             idleEntries := l.idleEntries + 1 }
  | .locked | .relock => { l.lose with cdr := false, rxTail := (0, 0) }
  | .verify | .hunt => { l.rxHunt with cdr := false, rxTail := (0, 0) }
  | .idle => l

/-- SIGNAL_LOSS (R65, R79). -/
def execSignalLoss (t : Nat) (lane : Fin 512) (s : State) : Result :=
  .next ((s.arrive t).onDev fun v => if v.rxThere lane then v.rxChange lane (v.lane lane).signalLost else v)

/-- SIGNAL_DETECT (R65): an idle lane relocks. -/
def execSignalDetect (t : Nat) (lane : Fin 512) (s : State) : Result :=
  .next ((s.arrive t).onDev fun v =>
    let l := v.lane lane
    if v.rxThere lane && l.rx == .idle then
      v.rxChange lane { l with rx := .relock, relockGood := 0, detectT := v.clk.now, disparity := none, rxTail := (0, 0) }
    else v)

/-- RELOCK_TIMEOUT (R65, R79): a lane that 24 block times after signal detect has not locked hunts, its signal present. -/
def execRelockTimeout (t : Nat) (lane : Fin 512) (s : State) : Result :=
  .next ((s.arrive t).onDev fun v =>
    let l := v.lane lane
    if v.rxThere lane && l.relockOver (24 * blockQ (v.block (lane / 32)).rateCode) v.clk.now then v.rxChange lane { l.lose with cdr := true } else v)

/-- CDR_LOCK (R72): a hunting lane can find a comma. -/
def execCdrLock (t : Nat) (lane : Fin 512) (s : State) : Result :=
  .next ((s.arrive t).onDev fun v =>
    let l := v.lane lane
    if v.rxThere lane && l.rx == .hunt then v.setLane lane { l with cdr := true } else v)

/-! ### The PRBS checker (R84, R85) -/

/-- One received bit at the checker (R85). -/
def LaneSt.prbsBit (l : LaneSt) (b : Bool) : LaneSt :=
  let n := (prbsTaps l.rxPattern).1
  if l.prbsReg.length < n then { l with prbsReg := b :: l.prbsReg }
  else
    let e := prbsPredict l.rxPattern l.prbsReg
    if !l.prbsSynced then
      let good := if e == b then l.prbsGood + 1 else 0
      { l with prbsReg := (b :: l.prbsReg).take n, prbsGood := good, prbsSynced := decide (good ≥ 64), prbsWindow := [] }
    else
      let wrong := e != b
      let w := (wrong :: l.prbsWindow).take 64
      let l := { l with prbsBits := l.prbsBits + 1, prbsErrors := if wrong then satInc l.prbsErrors else l.prbsErrors }
      if (w.filter (·)).length ≥ 16 then
        { l with prbsSynced := false, prbsGood := 0, prbsReg := [], prbsWindow := [],
                 prbsSyncLosses := if l.prbsSyncLosses = 0xFFFF#16 then l.prbsSyncLosses else l.prbsSyncLosses + 1 }
      else { l with prbsReg := (e :: l.prbsReg).take n, prbsWindow := w }

/-- One received bit, with EV.LANE.PRBS when prbs_errors reaches prbs_threshold (R85). -/
def Dev.prbsBit (m : Nat) (v : Dev) (b : Bool) : Dev :=
  let l := (v.lane m).prbsBit b
  let hit := l.prbsArmed && decide (l.prbsThreshold ≤ l.prbsErrors.toNat)
  (v.setLane m (if hit then { l with prbsArmed := false } else l)).raiseIf hit (srcLane m 1) l.prbsErrors.toNat

/-- Bits received on a lane whose checker runs. -/
def Dev.prbsBits (m : Nat) (bits : List Bool) (v : Dev) : Dev :=
  let l := v.lane m
  if v.mediaOn && v.blockOn (m / 32) && (v.block (m / 32)).refclk && l.rxEnable && l.rxPattern != 0 then bits.foldl (Dev.prbsBit m) v else v

/-- PRBS_SYNC (R85): the bits received up to the instant of sync. -/
def execPrbsSync (t : Nat) (lane : Fin 512) (bits : List Bool) (s : State) : Result :=
  .next ((s.arrive t).onDev (Dev.prbsBits lane bits))

/-- PRBS_SYNC_LOSS (R85): the bits received up to the loss of sync. -/
def execPrbsSyncLoss (t : Nat) (lane : Fin 512) (bits : List Bool) (s : State) : Result :=
  .next ((s.arrive t).onDev (Dev.prbsBits lane bits))

/-- EV_LANE_PRBS (R85): the bits received up to the error that reaches the threshold. -/
def execEvLanePrbs (t : Nat) (lane : Fin 512) (bits : List Bool) (s : State) : Result :=
  .next ((s.arrive t).onDev (Dev.prbsBits lane bits))

end Sys2Proof.Machine
end

