-- ==== Sys2Proof/Machine/LaneCmds.lean ====
section
/-! DEFINITION. The LANE. family (R50, R74, R76, R86, R87, R437, R438), the TX directions' happenings (R60, R73 to R78), and the
lane reference clocks (R548). -/
namespace Sys2Proof.Machine
open Sys2Proof

/-! ### LANE.CONFIG (R50, R82, R437) -/

/-- Field rules of LANE.CONFIG. -/
def laneConfigBad (p : List Byte) : Option Nat :=
  firstBad [⟨0, 1, .unsigned, [(0, 15)]⟩, ⟨1, 1, .unsigned, [(0, 5)]⟩, ⟨2, 1, .unsigned, [(0, 1)]⟩, ⟨3, 5, .reserved, []⟩] p

/-- LANE.CONFIG. -/
def laneConfigRow : OpRow := { code := 0x0201, core := .m, lenOk := len8 }
/-- The work of LANE.CONFIG: refused while a stream is configured on the block; otherwise a cold bring-up at the rate code. -/
def laneConfigEff : Effect := fun d s =>
  let b := fieldU d.params 0 1
  match laneConfigBad d.params with
  | some o => (s, .fail (badField o))
  | none =>
    match s.dev.cfg.streamOn b with
    | some (k, i) => (s, .fail (ownedBy k i))
    | none =>
      if s.dev.pow.off.contains (8 + b) then (s, .fail { ownedBy 0 0 with field := 0 }) else (s.onDev fun v => (v.stopBlock b).modBlock b fun x => { x with rateCode := fieldU d.params 1 1 }, .ok [])
/-- LANE_CONFIG (R50). -/
def execLaneConfig (t : Nat) (d : Datagram) (s : State) : Result :=
  .next (serve laneConfigRow (.laneConfig t d) t d laneConfigEff s)

/-! ### LANE.IDLE (R74, R76, R78, R437) -/

/-- Field rules of LANE.IDLE. -/
def laneIdleBad (p : List Byte) : Option Nat :=
  firstBad [⟨0, 2, .unsigned, [(0, 511)]⟩, ⟨2, 1, .unsigned, [(0, 1)]⟩, ⟨3, 5, .reserved, []⟩] p

/-- The row of LANE.IDLE with a given op. -/
def laneIdleRow (op : Byte) : OpRow := { code := 0x0202, core := .m, fix := [(2, op)], codes := 2, lenOk := len8 }

/-- The work of LANE.IDLE on the named lane, or on the bond whose lowest lane it is. -/
def laneIdleEff (one : Nat → Dev → Dev) (bond : Nat → Dev → Dev) : Effect := fun d s =>
  let n := fieldU d.params 0 2
  match laneIdleBad d.params with
  | some o => (s, .fail (badField o))
  | none =>
    match s.dev.cfg.egressAt n with
    | none =>
      if s.dev.pow.off.contains (8 + n / 32) then (s, .fail { ownedBy 0 0 with field := 0 })
      else (s.onDev (one n), .ok [])
    | some (e, _) => if e = n then (s.onDev (bond e), .ok []) else (s, .fail (badField 0))

/-- LANE.IDLE enter. -/
def laneIdleEnterRow : OpRow := laneIdleRow 1
/-- A bond enters Dusk for the host. -/
def Dev.bondEnter (e : Nat) (v : Dev) : Dev := (v.onBond e (fun n => Dev.duskEnter n 1)).modEs e fun x => { x with hostDusk := true }
/-- The work of an enter: Dusk with reason HOST. -/
def laneIdleEnterEff : Effect := laneIdleEff (fun n => Dev.duskEnter n 1) Dev.bondEnter
/-- LANE_IDLE_ENTER (R74). -/
def execLaneIdleEnter (t : Nat) (d : Datagram) (s : State) : Result :=
  .next (serve laneIdleEnterRow (.laneIdleEnter t d) t d laneIdleEnterEff s)

/-- LANE.IDLE exit. -/
def laneIdleExitRow : OpRow := laneIdleRow 0
/-- A bond leaves Dusk; on a bond that is not in Dusk there is no action (R78). -/
def Dev.bondExit (e : Nat) (v : Dev) : Dev :=
  if (v.lane e).tx == .dusk then (v.onBond e Dev.duskExit).modEs e fun x => { x with hostDusk := false } else v
/-- The work of an exit: a Dawn burst, once the dwell has ended. -/
def laneIdleExitEff : Effect := laneIdleEff Dev.duskExit Dev.bondExit
/-- LANE_IDLE_EXIT (R76). -/
def execLaneIdleExit (t : Nat) (d : Datagram) (s : State) : Result :=
  .next (serve laneIdleExitRow (.laneIdleExit t d) t d laneIdleExitEff s)

/-! ### LANE.PRBS (R84 to R86, R437) -/

/-- Field rules of LANE.PRBS. -/
def lanePrbsBad (p : List Byte) : Option Nat :=
  firstBad [⟨0, 2, .unsigned, [(0, 511)]⟩, ⟨2, 1, .unsigned, [(0, 1)]⟩, ⟨3, 1, .unsigned, [(0, 4)]⟩, ⟨4, 4, .unsigned, [(1, 0xFFFFFFFF)]⟩] p

/-- The TX direction of a lane enters, changes or leaves PRBS mode (R84, R86): it sends no blocks, the generator is seeded with all ones,
and leaving is a start under R60 and R73. -/
def Dev.prbsTx (n pattern : Nat) (v : Dev) : Dev :=
  let l := v.lane n
  if pattern = 0 then
    if l.txPattern = 0 then v else (v.setLane n { l with txPattern := 0 }).txStart n
  else
    let at_ := if v.sends n then max v.clk.now (v.txLine n).at_ else v.clk.now
    ((v.setLane n { l with tx := .down, txPattern := pattern, dwelling := false, exitHeld := false, enterHeld := none, startHeld := false }).setTxLine n
      { at_ := at_, reg := List.replicate (prbsTaps pattern).1 true }).emit (.driver n (l.txEnable && (v.block (n / 32)).pll))

/-- The RX direction of a lane enters, changes or leaves PRBS mode (R85, R86): the checker seeds itself, and leaving goes to HUNT. -/
def Dev.prbsRx (n pattern threshold : Nat) (v : Dev) : Dev :=
  let l := v.lane n
  let idle := { l.rxHunt with rxTail := (0, 0), prbsSynced := false, prbsGood := 0, prbsReg := [], prbsWindow := [], prbsThreshold := threshold }
  if pattern = 0 ∧ l.rxPattern = 0 then v.setLane n { l with prbsThreshold := threshold }
  else v.updLane n { idle with rxPattern := pattern }

/-- LANE.PRBS. -/
def lanePrbsRow : OpRow := { code := 0x0203, core := .m, lenOk := len8 }
/-- The work of LANE.PRBS: refused on a direction that a configured stream uses. -/
def lanePrbsEff : Effect := fun d s =>
  let p := d.params
  let n := fieldU p 0 2
  match lanePrbsBad p with
  | some o => (s, .fail (badField o))
  | none =>
    if s.dev.pow.off.contains (8 + n / 32) then (s, .fail { ownedBy 0 0 with field := 0 })
    else if fieldU p 2 1 = 0 then
      match s.dev.cfg.egressAt n with
      | some (e, _) => (s, .fail (ownedBy 3 e))
      | none => (s.onDev (Dev.prbsTx n (fieldU p 3 1)), .ok [])
    else
      match s.dev.cfg.ingressAt n with
      | some (i, _) => (s, .fail (ownedBy 2 i))
      | none => (s.onDev (Dev.prbsRx n (fieldU p 3 1) (fieldU p 4 4)), .ok [])
/-- LANE_PRBS (R86). -/
def execLanePrbs (t : Nat) (d : Datagram) (s : State) : Result :=
  .next (serve lanePrbsRow (.lanePrbs t d) t d lanePrbsEff s)

/-! ### LANE.STATUS (R87, R88, R438) -/

/-- The 64-byte record of a lane (R438). -/
def laneRecord (n : Nat) (v : Dev) : List Byte :=
  let l := v.lane n
  let err := match v.cfg.ingressAt n with | some (s, _) => (v.is s).bondError | none => 0
  toBE 2 n ++ toBE 1 l.rxCode ++ toBE 1 l.txCode ++ toBE 1 (match l.polarity with | none => 0xFF | some b => b01 b) ++
  toBE 1 l.laneIndex ++ toBE 1 l.bondSize ++ toBE 1 err ++ toBE 1 l.deskewBlocks ++ zeros 1 ++ toBE 2 l.prbsSyncLosses.toNat ++
  toBE 8 l.rxBlocks.toNat ++ toBE 4 l.codeErrors.toNat ++ toBE 4 l.crcErrors.toNat ++ toBE 4 l.headerErrors.toNat ++
  toBE 4 l.seqBreaks.toNat ++ toBE 4 l.lockLosses.toNat ++ toBE 4 l.idleEntries.toNat ++ toBE 4 l.idleErrors.toNat ++
  toBE 8 l.prbsBits.toNat ++ toBE 4 l.prbsErrors.toNat ++ zeros 4

/-- A clear of a lane's counters re-arms EV.LANE.PRBS (R87). -/
def laneClear (n : Nat) (v : Dev) : Dev :=
  v.modLane n fun l => { l with rxBlocks := 0, codeErrors := 0, crcErrors := 0, headerErrors := 0, seqBreaks := 0, lockLosses := 0,
                                idleEntries := 0, idleErrors := 0, prbsBits := 0, prbsErrors := 0, prbsSyncLosses := 0, prbsArmed := true }

/-- LANE.STATUS. -/
def laneStatusRow : OpRow := queryRow 0x0204 true false
/-- The work of LANE.STATUS. -/
def laneStatusEff : Effect := query 512 64 false laneRecord laneClear
/-- LANE_STATUS (R87). -/
def execLaneStatus (t : Nat) (d : Datagram) (s : State) : Result :=
  .next (serve laneStatusRow (.laneStatus t d) t d laneStatusEff s)

/-! ### Happenings on the TX directions (R60, R73 to R78) -/

/-- A TX direction when its PLL locks: it starts, or sends its PRBS pattern (R60, R73, R84). -/
def Dev.pllStart (n : Nat) (v : Dev) : Dev :=
  let l := v.lane n
  if l.txPattern = 0 then v.txStart n else (v.modTxLine n fun x => { x with at_ := v.clk.now }).emit (.driver n l.txEnable)

/-- TX_PLL_LOCK (R60, R73): each enabled TX direction of the block starts. -/
def execTxPllLock (t : Nat) (block : Fin 16) (s : State) : Result :=
  .next ((s.arrive t).onDev fun v =>
    if v.blockOn block && (v.block block).refclk && v.mediaOn then
      let b : Nat := block
      (List.range 32).foldl (fun v i => v.pllStart (32 * b + i)) (v.modBlock b fun x => { x with pll := true })
    else v)

/-- What a lane does once nothing holds it: an entry asked for meanwhile, Dusk when unused, else DATA or NULL (R64, R73, R74, R78). -/
def Dev.txRun (n : Nat) (v : Dev) : Dev :=
  let l := v.lane n
  let v := v.setLane n { l with tx := .run, enterHeld := none }
  match l.enterHeld with
  | some r => v.duskNow n r
  | none => if (v.cfg.egressAt n).isNone && l.txIdleUnused then v.duskNow n 2 else v

/-- Whether a TX direction has sent TRAIN for 1 ms (R73). -/
def Dev.trained (n : Nat) (v : Dev) : Bool :=
  let l := v.lane n
  l.tx == .train && l.txPattern == 0 && decide (l.txStarted + msQ ≤ v.clk.now)

/-- TRAIN_PERIOD_END (R73). -/
def execTrainPeriodEnd (t : Nat) (lane : Fin 512) (s : State) : Result :=
  .next ((s.arrive t).onDev fun v => if v.trained lane then v.txRun lane else v)

/-- Whether a lane's minimum dwell of 500 ns after its four IDLE_ENTER blocks is over (R75). -/
def Dev.dwelt (n : Nat) (v : Dev) : Bool :=
  let l := v.lane n
  let x := v.txLine n
  l.tx == .dusk && l.dwelling && x.idleLeft == 0 && decide (x.idleT + 500 * 4000 ≤ v.clk.now)

/-- DUSK_DWELL_END (R75, R78, R129): a held exit decision is taken, or a new bond starts with its last lane out of the dwell. -/
def execDuskDwellEnd (t : Nat) (lane : Fin 512) (s : State) : Result :=
  .next ((s.arrive t).onDev fun v =>
    let l := v.lane lane
    if v.dwelt lane then
      let v := v.setLane lane { l with dwelling := false }
      if l.startHeld then (match v.cfg.egressAt lane with | some (e, _) => v.bondStart (v.cfg.egressLanes e) | none => v)
      else if l.exitHeld then v.burstNow lane else v
    else v)

/-! ### Lane reference clocks (R548) -/

/-- A lane without its reference clock: both directions stop, and its bond is lost (R68, R548). -/
def Dev.laneDies (n : Nat) (v : Dev) : Dev :=
  let v := if v.sends n then v.emit (.driver n false) else v
  v.rxChange n (v.lane n).stopped

/-- SK_REFCLK_LOSS (R548): the block's TX directions are held at common mode, its RX directions are DOWN. -/
def execSkRefclkLoss (t : Nat) (block : Fin 16) (s : State) : Result :=
  .next ((s.arrive t).onDev fun v =>
    let b : Nat := block
    let w := v.modBlock b fun x => { x with refclk := false }
    if !v.mediaOn || !v.blockOn b then w.modBlock b fun x => { x with pll := false }
    else ((List.range 32).foldl (fun v i => v.laneDies (32 * b + i)) w).modBlock b fun x => { x with pll := false })

/-- SK_REFCLK_RETURN (R548): a cold bring-up of the block; its TX directions start when the PLL locks. -/
def execSkRefclkReturn (t : Nat) (block : Fin 16) (s : State) : Result :=
  .next ((s.arrive t).onDev fun v =>
    let v := v.modBlock block fun x => { x with refclk := true }
    if !v.mediaOn || !v.blockOn block then v else v.stopBlock block)

end Sys2Proof.Machine
end

