-- ==== Sys2Proof/Machine/Heads.lean ====
section
/-! DEFINITION. The heads: the Midnight point (R256 to R259), the choice of the front porch (R260, R262), active start, lines and
FRAME_END (R255), self-refresh (R269 to R271), CLOCK_INFO (R108), the start of a head (R254) and HEAD.STATUS (R275). -/
namespace Sys2Proof.Machine
open Sys2Proof

/-! ### The front porch of the coming field -/

/-- The follow source's latest start and field period, quarter picoseconds, when it can be followed (R262). -/
def Dev.followSource (t : TimingCfg) (v : Dev) : Option (Nat × Nat) :=
  if t.followKind = 0 then
    let x := v.is t.followSource
    match x.held with
    | some d =>
      if x.state == .locked then
        some (x.lastStart.getD x.lastFrameQ, if x.intervals.length = 16 then x.intervals.sum / 16 else d.periodQ)
      else none
    | none => none
  else
    let r := v.cfg.rasterHead t.followSource
    match (v.cfg.head r).timing with
    | some u => if (v.head r).inSr then none else some ((v.head r).activeQ, u.fieldQ)
    | none => none

/-- The front porch whose active start lies nearest the target, and whether the target lies outside the range (R262). -/
def followPorch (t : TimingCfg) (x : TcSt) (c : Clock) (fixed m mT s p : Nat) : Nat × Bool :=
  let t0 : Int := (s : Int) + p + 4000 * t.followOffsetNs
  let t1 := if t0 > m then t0 else t0 + (((m : Int) - t0) / max 1 p + 1) * max 1 p
  let unit := t.hTotal * t.pclkDen * secQ * ppmOne
  let num := (c.instantOf t1.toNat - mT) * (t.pclkNum * x.dcoScaled)
  let at_ (l : Nat) : Nat := (l + fixed) * unit
  let down := num / max 1 unit
  let near := if 2 * (num - down * unit) ≤ unit then down else down + 1
  let l := max t.vFpMin (min t.vFpMax (near - fixed))
  (l, decide (num < at_ t.vFpMin) || decide (at_ t.vFpMax < num))

/-- The porch decision that a Midnight point makes at once; a VARIABLE head that shows frames leaves it open (R259, R260, R262, R270). -/
def Dev.choosePorch (h : Nat) (v : Dev) : Dev :=
  match (v.cfg.head h).timing with
  | none => v
  | some t =>
    let hs := v.head h
    if t.mode = 1 then v.setHead h { hs with vFpNext := t.vFpMin, candL := t.vFpMin, decided := hs.inSr || hs.black != 0 }
    else if t.mode = 2 then
      match v.followSource t with
      | some (s, p) =>
        let r := followPorch t (v.tc t.tc) v.clk (t.vSync + t.vBp + (if hs.extraDue then t.interlaceExtra else 0)) hs.midnightQ hs.midnightT s p
        let v := v.setHead h { hs with vFpNext := r.1, decided := true }
        if r.2 then (v.cfg.headGroup h).foldl (fun v k => v.modHead k fun x => { x with slips := satInc x.slips }) v else v
      | none => v.setHead h { hs with vFpNext := t.vFp, decided := true }
    else v.setHead h { hs with vFpNext := t.vFp, decided := true }

/-- Every layer of a head, or of a pair, selects at S (R184, R256). -/
def Dev.selectGroup (h q : Nat) (v : Dev) : Dev := (v.cfg.headGroup h).foldl (fun v k => v.selectHead k q) v

/-! ### Self-refresh (R269 to R271) -/

/-- The payload of SR_EXIT (R111). -/
def srExitPayload (no : U32) (q : Nat) : List Byte := toBE 4 no.toNat ++ toBE 5 (ts40OfQ q) ++ zeros 3
/-- The payload of SR_ENTER (R111). -/
def srEnterPayload (no : U32) (q : Nat) (dusk : Bool) : List Byte := toBE 4 no.toNat ++ toBE 5 (ts40OfQ q) ++ toBE 1 (b01 dusk) ++ zeros 2

/-- SR_EXIT on every egress stream that still waits for it (R271): once the active start that it names is decided and the lanes carry
packets, and before the FORMAT in any case (`now_`). -/
def State.sendSrExit (h : Nat) (now_ : Bool) (s : State) : State :=
  let hs := s.dev.head h
  if !(hs.decided || now_) then s
  else
    let q := if now_ then hs.activeQ else s.dev.nextActiveQ h
    (s.dev.cfg.fedByHeads (s.dev.cfg.headGroup h)).foldl (fun s ke =>
      if (s.dev.es ke.2).exitDue && (now_ || s.dev.lanesRun ke.2) then
        (s.onDev (Dev.modEs ke.2 fun x => { x with forwarding := true, exitDue := false })).toEgress ke.2 9 (srExitPayload hs.nextNo q)
      else s) s

/-- The egress streams of a head that is to send SR_EXIT: those that carried its SR_ENTER, and those taken to it since (R148, R271, R277). -/
def Dev.exitWaits (h : Nat) (v : Dev) : Dev :=
  (v.cfg.fedByHeads (v.cfg.headGroup h)).foldl (fun v ke =>
    v.modEs ke.2 fun x => { x with exitDue := x.inSr || !x.forwarding }) v

/-- Every lane of every egress stream of a head or pair. -/
def Dev.onHeadBonds (h : Nat) (f : Nat → Dev → Dev) (v : Dev) : Dev :=
  (v.cfg.fedByHeads (v.cfg.headGroup h)).foldl (fun v ke => v.onBond ke.2 f) v

/-- HEAD.SR as it stands at a Midnight point: entry or exit (R270, R271). -/
def Dev.srLive (h : Nat) (v : Dev) : Dev :=
  let hs := v.head h
  let want := (v.cfg.head h).sr.op == 1
  if want && !hs.inSr then
    let dusk := (v.cfg.head h).sr.dusk == 1
    let v := v.setHead h { hs with inSr := true, srDusk := dusk, srDue := hs.sentThisRun, srSent := false, exitDue := false, irregular := hs.irregular }
    if dusk && !hs.sentThisRun then v.onHeadBonds h (fun n => Dev.duskEnter n 0) else v
  else if !want && hs.inSr then
    let v := v.setHead h { hs with inSr := false, srDue := false, srDusk := false, irregular := true, exitDue := hs.srSent, srSent := false }
    let v := if hs.srSent then v.exitWaits h else v
    if hs.srDusk then v.onHeadBonds h Dev.duskExit else v
  else v

/-- Settings of egress streams that a head feeds become live once those carry no frame (R129). -/
def Dev.settleHead (h : Nat) (v : Dev) : Dev :=
  (v.cfg.fedByHeads (v.cfg.headGroup h)).foldl (fun v ke => if v.carries ke.2 then v else v.egressLive ke.2) v

/-! ### The Midnight point (R256 to R259) -/

/-- A head stops: it is OFF (R274). Its numbering, counters and last FRAME_END stay. -/
def Dev.headOff (h : Nat) (v : Dev) : Dev :=
  v.modHead h fun x => { x with fieldOpen := false, sending := false, inSr := false, srDue := false, srSent := false, srDusk := false,
                                exitDue := false, black := 0, blackNow := false, decided := false, irregular := false, selDue := false,
                                extraDue := false, timedOut := false, sentThisRun := false, startQ := none, endDue := false }

/-- The field that ends at a Midnight point (R253, R256, R259, R276). -/
def Dev.fieldEnds (h : Nat) (t : TimingCfg) (v : Dev) : Dev :=
  let hs := v.head h
  let n : U64 := if hs.fieldOpen then hs.rasterFrames + 1 else hs.rasterFrames
  let v := if hs.sending && !hs.blackNow then (v.cfg.headGroup h).foldl (fun v k => v.audioField k hs.activeQ) v else v
  let m := (v.midnightDue h t).getD v.clk.now
  let start := hs.startQ.isSome
  let v := v.setHead h
    { hs with rasterFrames := n, midnightN := if start then 0 else hs.activeN + t.va * t.hTotal
              originP := if start then (v.tc t.tc).phaseAt m else hs.originP, originN := if start then 0 else hs.originN, startQ := none
              midnightQ := hs.startQ.getD (v.clk.devQ m), midnightT := m, fieldOpen := false
              black := if hs.blackNow then hs.black - 1 else hs.black
              blackNow := false, sending := false, selDue := false, timedOut := false
              extraDue := hs.fieldOpen && t.interlaced && hs.second }
  (v.cfg.headGroup h).foldl (fun v k => (v.modHead k fun x => { x with endDue := hs.sending }).raise (srcHead k 0) (n.toNat % 2 ^ 32)) v

/-- A timing change at a Midnight point (R257 to R259): the new raster counts on from it, on another channel's phase from 0. -/
def Dev.timingChange (h : Nat) (a b : TimingCfg) (v : Dev) : Dev :=
  if a.core = b.core then v
  else
    let enters := (v.cfg.head h).sr.op == 1 && !(v.head h).inSr
    let g := v.cfg.headGroup h
    let v := v.modHead h fun x =>
      let n := if a.tc = b.tc then x.midnightN else 0
      { x with irregular := true, black := if enters then 0 else b.blackFrames, second := true, extraDue := false
               originP := if a.tc = b.tc then x.phaseN a x.midnightN else (v.tc b.tc).phaseAt x.midnightT
               originN := n, midnightN := n, restarted := x.restarted || a.tc != b.tc }
    let v := if a.tc = b.tc then v
      else (v.cfg.fedByHeads g).foldl (fun v ke => v.modEs ke.2 fun x => { x with tcMoveQ := some ((v.head h).midnightQ + v.presQ ke.2) }) v
    g.foldl (fun v k => v.modHead k fun x => { x with nextLine := b.va }) v

/-- What follows at a Midnight point on a head that runs on: the timing change, self-refresh, the porch and the selection. -/
def Dev.midnightRun (h : Nat) (a b : TimingCfg) (commits : Bool) (v : Dev) : Dev :=
  let v := ((v.timingChange h a b).srLive h).choosePorch h
  let v := (v.cfg.headGroup h).foldl (fun v k => v.modHead k fun x => { x with moved := false }) v
  let v := v.modHead h fun x => { x with changed := commits }
  let hs := v.head h
  if hs.inSr || hs.black != 0 then v
  else if b.mode = 0 then v.selectGroup h hs.midnightQ
  else v.modHead h fun x => { x with selDue := true }

/-- A Midnight point of a running head or pair. -/
def Dev.midnight (h : Nat) (v : Dev) : Dev :=
  match (v.cfg.head h).timing with
  | none => v
  | some a =>
    let g := v.cfg.headGroup h
    let v := v.fieldEnds h a
    let units := g.map UnitId.head
    let due := v.dueAt units
    let old := v.cfg
    let v := (v.goLiveAt units).layersLive old
    let no : U32 := (v.head h).nextNo
    let v := g.foldl (fun v k => v.ledgerAll (due.filter fun c => c.left.contains (.head k)) 0 0 k no) v
    let v := (g.filter fun k => (v.cfg.head k).timing.isNone).foldl (fun v k => v.headOff k) v
    match (v.cfg.head h).timing with
    | none => v
    | some b => (v.midnightRun h a b (!due.isEmpty)).settleHead h

/-- MIDNIGHT_POINT (R256): at R0, or at the end of the field in progress. -/
def execMidnightPoint (t : Nat) (head : Fin 256) (s : State) : Result :=
  let h : Nat := head
  match (s.dev.cfg.head h).timing with
  | some c =>
    if !s.dev.mediaOn || s.dev.cfg.pairOdd h then .next (s.arrive t)
    else match s.dev.midnightDue h c with
      | some q => .next (s.due q t fun s => (s.onDev (Dev.midnight h)).sendSrExit h false)
      | none => .next (s.arrive t)
  | none => .next (s.arrive t)

/-! ### The Twilight decision (R260) -/

/-- S of a front porch in device time (R260, R262): the active start that it gives, less t_lead. -/
def Dev.decisionQ (h l : Nat) (t : TimingCfg) (v : Dev) : Nat :=
  let x := { v.head h with vFpNext := l }
  v.clk.devQ (v.rasterT h t (t.activeAt x)) - t.leadQ

/-- The decision of a VARIABLE head at its candidate front porch, at S; without it the next candidate comes. -/
def Dev.decide_ (h : Nat) (t : TimingCfg) (v : Dev) : Dev :=
  let l := (v.head h).candL
  let q := v.decisionQ h l t
  let g := v.cfg.headGroup h
  let ready := v.allGatedReady g q
  if !ready && l < t.vFpMax then v.modHead h fun x => { x with candL := l + 1 }
  else
    let v := v.modHead h fun x => { x with vFpNext := l, decided := true, timedOut := !ready, selDue := false }
    let v := if ready then v else g.foldl (fun v k => (v.modHead k fun x => { x with timeouts := satInc x.timeouts }).raise (srcHead k 3) (2 * 2 ^ 32)) v
    v.selectGroup h q

/-- A FOLLOW head's layers select at S of the front porch it has chosen (R262). -/
def Dev.followSelect (h : Nat) (t : TimingCfg) (v : Dev) : Dev :=
  let q := v.decisionQ h (v.head h).vFpNext t
  (v.modHead h fun x => { x with selDue := false }).selectGroup h q

/-- FRAME_START_DECISION (R260): at S of the candidate front porch; on a FOLLOW head its layers select (R262). -/
def execFrameStartDecision (t : Nat) (head : Fin 256) (s : State) : Result :=
  let h : Nat := head
  match (s.dev.cfg.head h).timing with
  | some c =>
    let hs := s.dev.head h
    if !s.dev.mediaOn || s.dev.cfg.pairOdd h || !hs.selDue then .next (s.arrive t)
    else if c.mode = 1 then
      .next (s.due (s.dev.clk.instantOf (s.dev.decisionQ h hs.candL c)) t fun s => (s.onDev (Dev.decide_ h c)).sendSrExit h false)
    else .next (s.due (s.dev.clk.instantOf (s.dev.decisionQ h hs.vFpNext c)) t (State.onDev (Dev.followSelect h c)))
  | none => .next (s.arrive t)

/-! ### Active start (R255, R261) -/

/-- Whether a head shows a STAMP source, or a PRBS23 source with prbs_reseed 0 (R261). -/
def Cfg.livelySynth (h : Nat) (c : Cfg) : Bool :=
  (c.slotsOf h).any fun n => match n.2.layer with
    | some f => f.enable == 1 && f.sourceKind == 2 && (n.2.synth.kind == 5 || (n.2.synth.kind == 4 && n.2.synth.prbsReseed == 0))
    | none => false

/-- FRAME_START flags of the coming field (R261). -/
def Dev.startFlags (h : Nat) (t : TimingCfg) (v : Dev) : Nat :=
  let hs := v.head h
  let g := v.cfg.headGroup h
  let repeat_ := hs.sentThisRun && hs.timedOut && !hs.changed && g.all (fun k => !(v.head k).moved && !v.cfg.livelySynth k)
  let variable_ := if t.mode = 1 then decide (t.vFpMin < hs.vFpNext) else t.mode == 2 && hs.vFpNext != t.vFp
  b01 repeat_ + 2 * b01 hs.irregular + 4 * b01 variable_

/-- Field code of FRAME_START (R102): `second` says that it is the second field of its frame. -/
def fieldCode (scan : Nat) (second : Bool) : Nat := if scan = 0 then 0 else if (scan == 1) != second then 1 else 2

/-- FORMAT, then FRAME_START, on one egress stream of a head (R101, R251, R255). The first FORMAT of a stream carries the
descriptor_id its register holds: R101 names no first one (DESIGN CHOICE, log entry 33). -/
def State.sendStart (h e : Nat) (t : TimingCfg) (no : U32) (field flags : Nat) (s : State) : State :=
  let s := s.onDev (Dev.egressLive e)
  let x := s.dev.es e
  let off := ((smFind e s.dev.cfg.egress).map (·.presOffsetNs)).getD 0
  let d := headDesc t (s.dev.cfg.head h).colour off
  let same := x.descBody.isEmpty || (writeDesc d).drop 1 == x.descBody.drop 1
  let id := if same then x.descId else (x.descId + 1) % 256
  let s := s.onDev (Dev.modEs e fun x => { x with forwarding := true })
  let s := s.toEgress e 1 (writeDesc { d with descriptorId := id })
  s.toEgress e 2 (toBE 4 no.toNat ++ toBE 5 (ts40OfQ (s.dev.head (s.dev.cfg.rasterHead h)).activeQ) ++ toBE 1 id ++ toBE 1 field ++ toBE 1 flags)

/-- What an active start does to the raster. -/
def Dev.rasterStart (h : Nat) (t : TimingCfg) (v : Dev) : Dev :=
  let hs := v.head h
  let a := v.rasterT h t (t.activeAt hs)
  let v := v.setHead h
    { hs with activeN := t.activeAt hs, activeQ := v.clk.devQ a, activeT := a, vFpLast := hs.vFpNext, fieldOpen := true
              second := !t.interlaced || !hs.second, blackNow := hs.black != 0, extraDue := false, selDue := false }
  (v.cfg.headGroup h).foldl (fun v k =>
    v.modHead k fun x => { x with crcs := List.replicate 3 0xFFFFFFFF#32, linesSent := 0, nextLine := 0, underrunField := false }) v

/-- An active start (R255, R261, R271). -/
def State.activeStart (h : Nat) (t : TimingCfg) (s : State) : State :=
  let s := if (s.dev.head h).selDue then s.onDev (Dev.followSelect h t) else s
  let s := s.onDev (Dev.rasterStart h t)
  let hs := s.dev.head h
  if hs.inSr then s
  else
    let s := s.sendSrExit h true
    let g := s.dev.cfg.headGroup h
    let no := hs.nextNo
    let flags := s.dev.startFlags h t
    let field := fieldCode t.scan hs.second
    let s := s.onDev fun v => g.foldl (fun v k =>
      v.modHead k fun x => { x with frameNo := no, sent := true, framesSent := x.framesSent + 1 }) v
    let s := s.onDev (Dev.modHead h fun x => { x with sending := true, sentThisRun := true, irregular := false, exitDue := false })
    let s := if hs.blackNow then s else s.onDev fun v => g.foldl (fun v k =>
      (v.cfg.slotsOf k).foldl (fun v n => v.modLayer n.1 fun l => { l with frames := l.frames + 1 }) v) v
    (s.dev.cfg.fedByHeads g).foldl (fun s ke => s.sendStart ke.1 ke.2 (((s.dev.cfg.head ke.1).timing).getD t) no field flags) s

/-- ACTIVE_START (R255): at the first CORE cycle at or after A. -/
def execActiveStart (t : Nat) (head : Fin 256) (s : State) : Result :=
  let h : Nat := head
  match (s.dev.cfg.head h).timing with
  | some c =>
    if !s.dev.mediaOn || s.dev.cfg.pairOdd h then .next (s.arrive t)
    else match s.dev.activeDue h c with
      | some q => .next (s.due (coreUp q) t (State.activeStart h c))
      | none => .next (s.arrive t)
  | none => .next (s.arrive t)

/-! ### Lines (R255, R259, R265) -/

/-- A PRBS23 source that is not reseeded runs on past the frame (R217). -/
def Dev.prbsAdvance (h : Nat) (v : Dev) : Dev :=
  (v.cfg.slotsOf h).foldl (fun v n =>
    match n.2.layer with
    | some f =>
      if f.sourceKind = 2 && n.2.synth.kind = 4 && n.2.synth.prbsReseed = 0 then
        v.modLayer n.1 fun l => { l with prbs := prbsJump (f.srcWidth * f.srcHeight * 60) l.prbs }
      else v
    | none => v) v

/-- A line with its pixels from `m` on replaced by the underrun colour (R265). -/
def fillFrom (m : Option Nat) (px : Px) (line : Array Px) : Array Px :=
  match m with
  | some k => (line.toList.take k ++ List.replicate (line.size - k) px).toArray
  | none => line

/-- A line that underran: counted, and EV.HEAD.UNDERRUN once in the field (R265, R276). -/
def Dev.underrun (h line : Nat) (v : Dev) : Dev :=
  let x := v.head h
  (v.setHead h { x with underrunLines := satInc x.underrunLines, underrunField := true }).raiseIf (!x.underrunField) (srcHead h 3) (2 ^ 32 + line)

/-- The samples of one line of a head (R201 to R223, R259, R265), after the fetches it makes. -/
def State.headLine (h line y : Nat) (t : TimingCfg) (black : Bool) (missing : Option Nat) (s : State) : State × List (List Nat) :=
  let c := (s.dev.cfg.head h).colour
  let w := t.hActive
  let chroma := c.outFormat != 3 || line % 2 == 0
  if black then (s, blackLine c chroma w)
  else
    let xoff := if s.dev.cfg.pairOdd h then w else 0
    let frame := (s.dev.head h).frameNo.toNat
    let (s', px, bad) := s.compLine h y xoff w frame
    let m := match missing, bad with
      | some a, some b => some (min a b)
      | some a, none => some a
      | none, b => b
    let m := m.filter (· < w)
    let out (m : Option Nat) (a : Array Px) : Array Px := (fillFrom m (colour60 t.underrunColour 65535) a).map (outMatrix c)
    let next := if c.outFormat = 3 && c.siting != 0 && chroma then
        let below := s'.compLine h (y + if t.interlaced then 2 else 1) xoff w frame
        out (below.2.2.filter (· < w)) below.2.1
      else #[]
    let s' := if m.isSome then s'.onDev (Dev.underrun h line) else s'
    (s', outLine c chroma (out m px) next)

/-- A line of the field being sent. -/
def State.sendLine (h line : Nat) (t : TimingCfg) (missing : Option Nat) (s : State) : State :=
  let r := s.dev.head (s.dev.cfg.rasterHead h)
  let c := (s.dev.cfg.head h).colour
  let field := fieldCode t.scan r.second
  let y := if t.interlaced then 2 * line + (field - 1) else line
  let chroma := c.outFormat != 3 || line % 2 == 0
  let (s, comps) := s.headLine h line y t r.blackNow missing
  let s := s.onDev (Dev.modHead h fun x =>
    { x with crcs := (List.range 3).map (fun k => crcSamples (x.crcs.getD k 0) (comps.getD k [])), linesSent := x.linesSent + 1 })
  let s := ((s.dev.cfg.fedBy (.head h)).filter fun e => (s.dev.es e).forwarding).foldl (fun s e =>
    (linePackets c.outFormat c.outDepth t.hActive y chroma comps).foldl (fun s p => s.toEgress e 3 p) s) s
  if line + 1 = t.va && !r.blackNow then s.onDev (Dev.prbsAdvance h) else s

/-- A raster line starts. -/
def State.lineStarts (h line : Nat) (c : TimingCfg) (missing : Option Nat) (s : State) : State :=
  let s := s.onDev fun v => (v.modHead h fun x => { x with nextLine := line + 1 }).raiseIf (c.eventLine == line && c.eventLine != 65535) (srcHead h 1) line
  if (s.dev.head (s.dev.cfg.rasterHead h)).sending && line < c.va then s.sendLine h line c missing else s

/-- LINE_START (R253): EV.HEAD.LINE at its line (R276), and the packets of an active line of a field being sent. -/
def execLineStart (t : Nat) (head : Fin 256) (line : Nat) (missing : Option Nat) (s : State) : Result :=
  let h : Nat := head
  match (s.dev.cfg.head h).timing with
  | some c =>
    let r := s.dev.cfg.rasterHead h
    let x := s.dev.head r
    let raster := ((s.dev.cfg.head r).timing).getD c
    if !s.dev.mediaOn || !raster.lineOpen line (s.dev.head h).nextLine x then .next (s.arrive t)
    else .next (s.due (s.dev.rasterT r raster (raster.lineAt line x)) t (State.lineStarts h line c missing))
  | none => .next (s.arrive t)

/-! ### FRAME_END (R255, R270) -/

/-- The payload of FRAME_END of the field a head has sent (R105, R227). -/
def frameEndPayload (x : HeadSt) : List Byte :=
  toBE 4 x.frameNo.toNat ++ (List.range 3).flatMap (fun k => toBE 4 (crcDone (x.crcs.getD k 0)).toNat) ++ toBE 2 x.linesSent ++ toBE 1 7 ++ zeros 1

/-- FRAME_END of one head's field, with EV.HEAD.DONE. -/
def State.sendEnd (h : Nat) (s : State) : State :=
  let x := s.dev.head h
  if !x.endDue then s
  else
    let s := ((s.dev.cfg.fedBy (.head h)).filter fun e => (s.dev.es e).forwarding).foldl (fun s e => s.toEgress e 4 (frameEndPayload x)) s
    s.onDev fun v => (v.modHead h fun x => { x with endDue := false, endX := some v.clk.now }).raise (srcHead h 2) x.frameNo.toNat

/-- SR_ENTER follows FRAME_END on every egress stream that carried the frame, and Dusk follows it (R270). -/
def State.sendSrEnter (h : Nat) (s : State) : State :=
  let hs := s.dev.head h
  if !hs.srDue then s
  else
    let s := ((s.dev.cfg.fedByHeads (s.dev.cfg.headGroup h)).filter fun ke => (s.dev.es ke.2).forwarding).foldl (fun s ke =>
      s.toEgress ke.2 8 (srEnterPayload hs.frameNo hs.midnightQ hs.srDusk)) s
    s.onDev fun v =>
      let v := v.modHead h fun x => { x with srDue := false, srSent := true }
      let v := if hs.srDusk then v.onHeadBonds h (fun n => Dev.duskEnter n 0) else v
      v.settleHead h

/-- FRAME_END of a head or pair, and SR_ENTER behind it. -/
def State.headEnds (h : Nat) (s : State) : State :=
  let odd := h % 2 == 0 && (s.dev.cfg.pairOdd (h + 1) || (s.dev.cfg.head (h + 1)).timing.isNone)
  let s := s.sendEnd h
  let s := if odd then s.sendEnd (h + 1) else s
  s.sendSrEnter h

/-- HEAD_FRAME_END (R255, R270): at the first CORE cycle at or after M + 6 us. -/
def execHeadFrameEnd (t : Nat) (head : Fin 256) (s : State) : Result :=
  let h : Nat := head
  if !s.dev.mediaOn || s.dev.cfg.pairOdd h then .next (s.arrive t)
  else .next (s.due (coreUp ((s.dev.head h).midnightT + 6 * usQ)) t (State.headEnds h))

/-- Whether block 16 of a lane's Dawn burst has been sent (R76, R77). -/
def Dev.burstDone (n : Nat) (v : Dev) : Bool :=
  let x := v.txLine n
  (v.lane n).tx == .burst && x.burstLeft == 0 && decide (x.at_ ≤ v.clk.now)

/-- DAWN_BURST_END (R76, R77): the lane runs, or enters Dusk as asked meanwhile; a head's SR_EXIT follows the burst (R271). -/
def execDawnBurstEnd (t : Nat) (lane : Fin 512) (s : State) : Result :=
  .next (
    let s := s.arrive t
    let n : Nat := lane
    if !s.dev.burstDone n then s
    else
      let s := s.onDev (Dev.txRun n)
      match s.dev.cfg.egressAt n with
      | some (e, _) => (match (s.dev.cfg.route e).source with
        | .head h => s.sendSrExit (s.dev.cfg.rasterHead h) false
        | _ => s)
      | none => s)

/-! ### CLOCK_INFO (R108, R252) -/

/-- The CLOCK_INFO of a head for a whole millisecond of device time: the pixel count there, in whole pixels, and whether the count has restarted
since the one before. Every egress stream of the head carries the same (R272). -/
def Dev.clockInfoOf (h ms : Nat) (t : TimingCfg) (v : Dev) : Dev × List Byte :=
  let hs := v.head h
  match hs.clockInfo with
  | some (m, p) => if m = ms then (v, p) else go hs
  | none => go hs
where
  go (hs : HeadSt) : Dev × List Byte :=
    let n := hs.pixelsAt t ((v.tc t.tc).phaseAt (v.clk.instantOf (ms * msQ)))
    let p := toBE 6 (n % 2 ^ 48) ++ toBE 5 (ts40OfQ (ms * msQ)) ++ toBE 1 (1 + 2 * b01 hs.restarted)
    (v.setHead h { hs with clockInfo := some (ms, p), restarted := false }, p)

/-- Whether CLOCK_INFO and AUDIO of a head may go on an egress stream: its first packet is a FORMAT, or SR_EXIT (R148, R273), except where
its head has entered self-refresh with nothing sent (R270); behind an SR_ENTER with dusk 1 they wait for SR_EXIT (R123). -/
def Dev.headOpen (h e : Nat) (v : Dev) : Bool :=
  let hs := v.head h
  let x := v.es e
  (x.forwarding || x.await_.isNone || (hs.inSr && !hs.srSent && !hs.srDue)) && !(x.inSr && x.srDusk) && !x.exitDue

/-- CLOCK_INFO_SEND (R108): after each whole millisecond of device time, and at most once per 100 us, on a head-sourced egress stream. -/
def execClockInfoSend (t : Nat) (egress : Fin 512) (s : State) : Result :=
  .next (
    let s := s.arrive t
    let e : Nat := egress
    match (s.dev.cfg.route e).source with
    | .head h =>
      let r := s.dev.cfg.rasterHead h
      match (s.dev.cfg.head r).timing with
      | some c =>
        let x := s.dev.es e
        let ms := s.dev.nowQ / msQ
        let early := match x.clockT with | some a => decide (s.dev.clk.now < a + 100 * usQ) | none => false
        if !s.dev.mediaOn || ms = x.clockMs || early || (s.dev.head r).startQ.isSome || !s.dev.headOpen r e || !s.dev.txFlows e then s
        else
          let q := s.dev.clockInfoOf r ms c
          ({ s with dev := q.1 }.onDev (Dev.modEs e fun x => { x with clockT := some s.dev.clk.now, clockMs := ms })).toEgress e 6 q.2
      | none => s
    | _ => s)

/-! ### The start of a head (R254, R256) -/

/-- A head, or a pair, starts: its raster waits for R0, its first Midnight point; `e` is the effective time that starts it. -/
def Dev.startHead (h e : Nat) (v : Dev) : Dev :=
  let r0 := match (v.cfg.head h).timing with | some t => t.originQ e | none => e
  (v.cfg.headGroup h).foldl (fun v k => (v.headOff k).modHead k fun x =>
    { x with rasterFrames := 0, startQ := some r0, restarted := true, second := true, nextLine := 0, clockInfo := none }) v

/-- A head that is OFF takes its due settings at once (R254, R256). -/
def Dev.offHeadLive (h : Nat) (v : Dev) : Dev :=
  let due := v.due (.head h)
  if due.isEmpty || (v.cfg.head h).timing.isSome then v
  else
    let old := v.cfg
    let e := (due.map fun k => qOfU k.effective).foldl max 0
    let v := ((v.goLive (.head h)).layersLive old).ledgerAll due 0 0 h 0
    if (v.cfg.head h).timing.isSome then v.startHead h e else v

/-! ### HEAD.STATUS (R275) -/

/-- The egress stream whose auto-sync route holds a head (R155). -/
def Cfg.syncOwner (h : Nat) (c : Cfg) : Option Nat := (c.routes.find? (fun r => r.2.syncHead == some h)).map (·.1)

/-- The 72-byte record of a head. -/
def headRecord (h : Nat) (v : Dev) : List Byte :=
  let r := v.cfg.rasterHead h
  let hs := v.head r
  let own := v.head h
  let t := (v.cfg.head r).timing
  let st := match t with
    | none => 0
    | some _ => if hs.inSr then 3 else if hs.blackNow || hs.black != 0 then 2 else 1
  let fed := v.cfg.fedBy (.head h)
  toBE 2 h ++ toBE 1 st ++ toBE 1 ((t.map (·.mode)).getD 0) ++ toBE 1 ((t.map (·.tc)).getD 0) ++
  toBE 1 (b01 (v.cfg.syncOwner h).isSome) ++ toBE 2 ((v.cfg.syncOwner h).getD 0xFFFF) ++ toBE 4 own.frameNo.toNat ++ toBE 2 hs.vFpLast ++
  toBE 1 (min 4 fed.length) ++ zeros 1 ++ (List.range 4).flatMap (fun k => toBE 2 (fed.getD k 0xFFFF)) ++
  timeBytes (uOfQ hs.midnightQ) ++ timeBytes (uOfQ hs.activeQ) ++ toBE 8 hs.rasterFrames.toNat ++ toBE 4 own.framesSent.toNat ++
  toBE 4 own.underrunLines.toNat ++ toBE 4 own.timeouts.toNat ++ toBE 4 own.slips.toNat

/-- A clear of a head's counters (R275). -/
def headClear (h : Nat) (v : Dev) : Dev := v.modHead h fun x => { x with underrunLines := 0, timeouts := 0, slips := 0 }

/-- HEAD.STATUS. -/
def headStatusRow : OpRow := queryRow 0x0804 true false
/-- The work of HEAD.STATUS. -/
def headStatusEff : Effect := query 256 72 false headRecord headClear
/-- HEAD_STATUS (R275). -/
def execHeadStatus (t : Nat) (d : Datagram) (s : State) : Result :=
  .next (serve headStatusRow (.headStatus t d) t d headStatusEff s)

end Sys2Proof.Machine
end

