-- ==== Sys2Proof/Machine/Audio.lean ====
section
/-! DEFINITION. The audio engine: extraction (R281 to R283), the samples of a window (R290, R296, R299, R302, R304), boundaries (R287),
rate measurement (R298), and AUDIO.STATUS (R305). -/
namespace Sys2Proof.Machine
open Sys2Proof

/-! ### Extraction (R106, R281 to R283) -/

/-- Whether an AUDIO payload obeys R106. -/
def audioValid (p : List Byte) : Bool :=
  let n := fieldU p 1 1
  let cnt := fieldU p 10 2
  decide (16 ≤ p.length) && decide (fieldU p 0 1 ≤ 3) && decide (1 ≤ n) && decide (n ≤ 8) && decide (fieldU p 2 1 ≤ 1) && decide (fieldU p 3 1 ≤ 6)
    && decide (1 ≤ cnt) && decide (cnt ≤ 255) && decide (fieldU p 12 1 ≤ 1)
    && p.length == 16 + cnt * n * (if fieldU p 2 1 = 0 then 3 else 4) && decide (p.length ≤ 8192)

/-- Sample j of channel k of a packet in the internal format (R106, R283). -/
def audioSample (p : List Byte) (j k : Nat) : Int :=
  let w := if fieldU p 2 1 = 0 then 3 else 4
  let x := fieldS p (16 + (j * fieldU p 1 1 + k) * w) w
  if w = 3 then x * 256 else x

/-- The delay store of a channel with new samples: overlapping positions take the newer sample, and what is older than any D can reach
is dropped (R282, R291). -/
def storeSamples (old : List (Int × Int × Bool)) (new : List (Int × Int × Bool)) (period : Int) : List (Int × Int × Bool) :=
  let lo := (new.headD (0, 0, false)).1
  let hi := (new.getLastD (0, 0, false)).1
  let keep := old.filter fun e => decide (hi - 5 * (secQ : Int) < e.1)
  keep.filter (fun e => decide (2 * (e.1 - lo) ≤ -period)) ++ new ++ keep.filter (fun e => decide (period ≤ 2 * (e.1 - hi)))

/-- Readers of an extracted channel take something. -/
def Dev.forReaders (x : Nat) (f : Nat → Dev → Dev) (v : Dev) : Dev := (v.readers x).foldl (fun v ch => f ch v) v

/-- T of the sample that a channel makes of the source sample at P (R291). -/
def Dev.readerT (ch : Nat) (p : Int) (v : Dev) : Int := p + (v.ec ch).delay.getD 0

/-- A packet's samples of one channel reach the engine (R281, R282); while the AUD master drains their write is lost (R383). What they
change acts from the sample that they make of the packet's first. -/
def Dev.extract (x : Nat) (rate width : Nat) (nonPcm : Bool) (p0 : Int) (samples : List Int) (v : Dev) : Dev :=
  let c := v.xchan x
  let fs := rateHz rate
  let per : Int := (secQ / fs : Nat)
  let at_ (j : Nat) : Int := p0 + ((secQ * j / fs : Nat) : Int)
  let jump := match c.lastP with
    | some q => !c.absent && decide (per < (p0 - (q + per)).natAbs)
    | none => false
  let changed := c.rateCode != rate || c.width != width
  let back := c.absent
  let drain := (v.master 48).draining
  let new := (List.range samples.length).map fun j => (at_ j, samples.getD j 0, nonPcm)
  let whole := jump || changed || back
  let v := v.setXchan x
    { c with absent := false, count := if whole then samples.length else c.count + samples.length
             lastP := some (at_ (samples.length - 1)), rateCode := rate, width := width, nonPcm := nonPcm,
             store := if v.xcActive x then (if drain then c.store else storeSamples c.store new per) else []
             lost := if v.xcActive x then (if drain then (p0, at_ (samples.length - 1)) :: c.lost.take 63 else c.lost) else []
             tsJumps := if jump then satInc c.tsJumps else c.tsJumps }
  let v := if whole then v.audioInput x else v
  let v := if changed then v.forReaders x (fun ch v => v.modEc ch fun e => { e with acquired := false, acqT := v.clk.now }) else v
  let v := if changed || c.nonPcm != nonPcm then v.forReaders x (fun ch v => v.rePath ch (v.readerT ch p0) true) else v
  if back && !nonPcm then v.forReaders x fun ch v =>
      v.modEc ch fun e => if e.trans.isSome then e else
        { e with trans := some { kind := 3, switchQ := v.readerT ch p0, length := fade5 (rateHz (v.ecRate ch)) } }
  else v

/-- The work of an intact AUDIO packet: it is forwarded, and extracted while the stream is LOCKED or SELF_REFRESH (R281). -/
def audioIn (n : Nat) (p : List Byte) (s : State) : State :=
  if !audioValid p then s.onDev (Dev.malformedPacket n 5)
  else
    let s := s.forward n 5 p
    let g := fieldU p 0 1
    let cnt := fieldU p 1 1
    let rate := fieldU p 3 1
    let scale := fieldU p 12 1
    let spc := fieldU p 10 2
    let x := s.dev.is n
    let val := s.dev.unwrapTs scale (smFind g x.uwAudio) x.uwAny 0 (fieldU p 4 5)
    let next := val + ((spc * 1000000000000 / rateHz rate : Nat) : Int)
    let s := s.onDev (Dev.setIs n { x with
      uwAudio := smPut g { value := next, at_ := s.dev.clk.now, scale := scale } x.uwAudio,
      uwAny := if scale = 0 then some { value := val, at_ := s.dev.clk.now } else x.uwAny
      groups := smPut g (rate, 2 * cnt + fieldU p 2 1) x.groups })
    if x.state != .locked && x.state != .selfRefresh then s
    else s.onDev fun v =>
      let p0 := x.toDeviceQ scale val
      (List.range 8).foldl (fun v k =>
        let c := 32 * n + 8 * g + k
        if k < cnt then v.extract c rate (fieldU p 2 1) (bit (fieldU p 9 1) k) p0 ((List.range spc).map fun j => audioSample p j k)
        else v.xcAbsent c) v

/-- AUDIO (R281). -/
def execAudio (t : Nat) (stream : Fin 512) (p : Packet) (s : State) : Result :=
  .next (packetRow t stream 5 p (audioIn stream p.payload) s)

/-- P of the last sample of a group's present channels. -/
def Dev.groupEnd (n g : Nat) (v : Dev) : Option Int :=
  ((List.range 8).filterMap fun k => let c := v.xchan (32 * n + 8 * g + k)
    if c.absent then none else c.lastP).max?

/-- AUDIO_ABSENCE (R282): the eight channels of a group become absent 2 ms after P of its last sample. -/
def execAudioAbsence (t : Nat) (stream : Fin 512) (group : Fin 4) (s : State) : Result :=
  let n : Nat := stream
  let g : Nat := group
  .next (match s.dev.groupEnd n g with
    | some p => s.due (s.dev.clk.instantOf (p + (2 * msQ : Nat)).toNat) t (State.onDev fun v =>
        if !v.mediaOn then v
        else (List.range 8).foldl (fun v k => v.xcAbsent (32 * n + 8 * g + k)) (v.modIs n fun x => { x with groups := smErase g x.groups }))
    | none => s.arrive t)

/-! ### Gains and tones (R302, R304) -/

/-- A fixed-point number to the nearest integer, halves up. -/
def fxRound (x : Int) : Int := (2 * x + fxOne) / (2 * fxOne)

/-- g_in(n) of R304: 2^30 (1 - cos a) / 2 is 2^30 sin^2 (a / 2). -/
def gainIn (len n : Nat) : Int :=
  let s := fxSin (fxPi * (2 * n + 1 : Nat) / (4 * len : Nat))
  fxRound (fxMul s s * 2 ^ 30)
/-- g_out(n) of R304. -/
def gainOut (len n : Nat) : Int := 2 ^ 30 - gainIn len n
/-- `apply` of R304. -/
def applyGain (x g : Int) : Int := (x * g + 2 ^ 29) / 2 ^ 30
/-- The crossfade of R304. -/
def crossMix (old new : Int) (len n : Nat) : Int :=
  clip ((old * gainOut len n + new * gainIn len n + 2 ^ 29) / 2 ^ 30) (-(2 ^ 31)) (2 ^ 31 - 1)

/-- The sine of R302 at device time T (quarter ps). -/
def sineSample (c : ToneCfg) (t : Int) : Int :=
  let turns := fxRat ((c.freqMhz : Int) * t % (1000 * secQ : Nat)) (1000 * secQ : Nat) + fxRat (c.phaseUdeg : Int) 360000000
  let frac := turns % fxOne
  let a := fxMul (2 * fxPi) (if 2 * frac > fxOne then frac - fxOne else frac)
  let level := fxExp (-(fxLn (10 * fxOne) * (c.levelCdb : Int) / 2000))
  fxRound ((2 ^ 31 - 1) * fxMul level (fxSin a))

/-- The sample of a tone at T, with the PRBS state after it (R302). -/
def toneSample (c : ToneCfg) (prbs : Nat) (t : Int) : Int × Nat :=
  match c.kind with
  | 1 => (sineSample c t, prbs)
  | 2 =>
    let w := prbsWord 24 prbs
    (signedOf 3 w.1 * 256, w.2)
  | _ => (0, prbs)

/-! ### Samples of one channel (R290, R296, R299, R304) -/

/-- One side of a transition: what a channel reads, at what delay, on which path. -/
structure Side where
  /-- Extracted channel. -/
  source : Option Nat := none
  /-- Settings of the tone generator. -/
  tone : Option ToneCfg := none
  /-- D, quarter ps. -/
  delay : Option Int := none
  /-- Path. -/
  path : Nat := 0
  /-- Whether its SRC is acquired. -/
  acquired : Bool := false
  /-- Presentation time of the source sample used last. -/
  last : Option Int := none
  /-- PRBS state. -/
  prbs : Nat := 0
  /-- Whether a position error beyond 4 samples makes it slip (R299). -/
  slips : Bool := false
  deriving DecidableEq, Repr

/-- What a side gives for one output sample. -/
structure SideOut where
  /-- The sample. -/
  value : Int := 0
  /-- Non-PCM. -/
  nonPcm : Bool := false
  /-- Late (R296). -/
  late : Bool := false
  /-- Source sample used last on a transparent path. -/
  last : Option Int := none
  /-- How far its P lies from the position called for. -/
  err : Int := 0
  /-- It slipped (R299). -/
  slip : Bool := false
  /-- PRBS state. -/
  prbs : Nat := 0
  deriving DecidableEq, Repr

/-- A stored sample: P, the value, non-PCM. -/
abbrev Stored := Int × Int × Bool

/-- The source sample that a transparent path passes at a position, and whether it slipped: the one after the sample used last, or where
none follows it, the nearest within half a period. With `slips` a sample is repeated or dropped beyond 4 samples (R299). -/
def nextSample (store : List Stored) (last : Option Int) (pos period : Int) (slips : Bool) : Option Stored × Bool :=
  let near := store.find? fun e => decide (2 * ((e.1 - pos).natAbs : Int) ≤ period)
  match last with
  | none => (near, false)
  | some q =>
    match store.filter fun e => decide (q < e.1) with
    | [] => (none, false)
    | e :: r =>
      if 3 * period ≤ 2 * (e.1 - q) then (near, false)
      else if slips && decide (4 * period < e.1 - pos) then (store.find? (·.1 == q), true)
      else if slips && decide (e.1 - pos < -(4 * period)) then (r.head?, true)
      else (some e, false)

/-- The value of one side at T (R291, R296, R299). A position that no sample covers reads as zero (R282), and is late where none has been
written up to it while the source is present; samples that a drain of AUD lost are late (R383). -/
def Dev.side (x : Side) (fs : Nat) (t : Int) (v : Dev) : SideOut :=
  let none_ : SideOut := { last := x.last, prbs := x.prbs }
  match x.tone, x.source, x.delay with
  | some g, _, _ =>
    let r := toneSample g x.prbs t
    { value := r.1, prbs := r.2 }
  | none, some n, some d =>
    let c := v.xchan n
    let per : Int := (secQ / fs : Nat)
    if x.path = 0 then { none_ with nonPcm := c.nonPcm }
    else
      let pos := t - (if x.path = 2 then wholePeriods fs d else d)
      let written := c.absent || (match c.store.getLast? with | some e => decide (2 * pos ≤ 2 * e.1 + per) | none => false)
      let lost := (v.master 48).draining || c.lost.any fun q => decide (2 * q.1 - per ≤ 2 * pos) && decide (2 * pos ≤ 2 * q.2 + per)
      let near := c.store.find? fun e => decide ((e.1 - pos).natAbs ≤ per)
      let bit_ := (near.map (·.2.2)).getD false
      if lost then { none_ with late := true, nonPcm := bit_ && x.path == 2 }
      else if x.path = 1 then
        if !x.acquired then none_
        else if !written then { none_ with late := true }
        else if near.isNone || bit_ then { none_ with nonPcm := bit_ }
        else { none_ with value := clip (Config.srcSample (c.store.map fun e => (e.1, e.2.1)) pos) (-(2 ^ 31)) (2 ^ 31 - 1) }
      else match nextSample c.store x.last pos per x.slips with
        | (some e, slip) => { none_ with value := e.2.1, nonPcm := e.2.2, last := some e.1, err := e.1 - pos, slip := slip }
        | (none, _) => { none_ with late := !written, nonPcm := bit_ }
  | _, _, _ => none_

/-- The mix of a transition at its n-th sample (R304); non-PCM on either side takes a cut, and is zero over a delay step (R294). -/
def mixSides (tr : Transition) (o w : SideOut) : Int :=
  let n := tr.done
  let len := tr.length
  if o.nonPcm || w.nonPcm then (if tr.kind = 4 && n < 2 * len then 0 else w.value)
  else match tr.kind with
    | 1 | 4 => if n < len then applyGain o.value (gainOut len n) else if n < 2 * len then applyGain w.value (gainIn len (n - len)) else w.value
    | 2 => if n < len then crossMix o.value w.value len n else w.value
    | 3 => if n < len then applyGain w.value (gainIn len n) else w.value
    | _ => w.value

/-- Whether the old side sounds at the n-th sample, and whether the new one does. -/
def Transition.sounds (tr : Transition) : Bool × Bool :=
  match tr.kind with
  | 1 | 4 => (decide (tr.done < tr.length), decide (tr.length ≤ tr.done))
  | 2 => (decide (tr.done < tr.length), true)
  | _ => (false, true)

/-- Whether an SRC is acquired: it is, by its own word or 50 ms after it started to (R300). -/
def srcReady (acquired : Bool) (since now : Nat) : Bool := acquired || decide (since + 50 * msQ ≤ now)

/-- The side that a channel's settings call for. -/
def Dev.newSide (ch : Nat) (t : Int) (v : Dev) : Side :=
  let c := v.ec ch
  match smFind ch v.cfg.audio with
  | none => {}
  | some a =>
    let tone : ToneCfg := match c.toneOld with
      | some (q, g) => if t < q then g else smGet {} a.source v.cfg.tones
      | none => smGet {} a.source v.cfg.tones
    { source := c.resolved, tone := if a.sourceKind = 2 then some tone else none, delay := c.delay, path := c.path
      acquired := srcReady c.acquired c.acqT v.clk.now, last := c.lastUsed, prbs := c.prbs, slips := a.conversion == 2 }

/-- The old side of a transition (R304): it keeps its D, its path and its generator. -/
def Dev.oldSide (ch : Nat) (tr : Transition) (v : Dev) : Side :=
  { source := tr.oldSource, tone := tr.oldTone.map fun g => smGet {} g v.cfg.tones, delay := tr.oldDelay, path := tr.oldPath
    acquired := srcReady tr.oldAcquired (v.ec ch).acqT v.clk.now, last := tr.oldLast, prbs := tr.oldPrbs }

/-- A slip: it counts, and occurs as MODE (R299, R306). -/
def Dev.slipped (ch : Nat) (v : Dev) : Dev := (v.modEc ch fun c => { c with slips := satInc c.slips }).raise (srcAudio ch 1) ch

/-- What a sample leaves of the new side: its place, its generator and its position error. Beyond 4 samples an AUTO path leaves
transparent (R298), and a TRANSPARENT one has slipped (R299). -/
def Dev.sampled (ch : Nat) (t per : Int) (w : SideOut) (v : Dev) : Dev :=
  let v := v.modEc ch fun c => { c with lastUsed := w.last, prbs := w.prbs, posError := w.err }
  let v := if w.slip then v.slipped ch else v
  let auto := match smFind ch v.cfg.audio with | some a => a.conversion == 0 | none => false
  if auto && (v.ec ch).path == 2 && decide (4 * per < (w.err.natAbs : Int)) then (v.modEc ch fun c => { c with goodSince := none }).rePath ch (t + 1) false
  else v

/-- A channel before a sample at T: a transition all of whose samples have been sent ends, and a generator's new settings seed it from
their T on (R287, R302, R307). -/
def Dev.ecReady (ch : Nat) (t : Int) (v : Dev) : Dev :=
  let v := v.transitionEnd ch t
  let c := v.ec ch
  match c.toneOld, smFind ch v.cfg.audio with
  | some (q, _), some a => if t < q then v else v.setEc ch { c with toneOld := none, prbs := (smGet ({} : ToneCfg) a.source v.cfg.tones).prbsSeed }
  | _, _ => v

/-- One output sample of an embedded channel at T: the device after it, the value, non-PCM on a transparent path, late. -/
def Dev.ecSample (ch : Nat) (t : Int) (v : Dev) : Dev × Int × Bool × Bool :=
  let v := v.ecReady ch t
  let c := v.ec ch
  let fs := rateHz (v.ecRate ch)
  let per : Int := (secQ / fs : Nat)
  let w := v.side (v.newSide ch t) fs t
  match c.trans with
  | none => (v.sampled ch t per w, w.value, w.nonPcm && c.path == 2, w.late)
  | some tr =>
    let o := v.side (v.oldSide ch tr) fs t
    let old (tr : Transition) : Transition := { tr with oldLast := o.last, oldPrbs := o.prbs }
    if t < tr.switchQ then
      if tr.kind = 3 then (v.sampled ch t per w, w.value, w.nonPcm && c.path == 2, w.late)
      else (v.setEc ch { c with trans := some (old tr) }, o.value, o.nonPcm && tr.oldPath == 2, o.late)
    else
      let heard := tr.sounds
      (((v.setEc ch { c with trans := some { old tr with done := tr.done + 1 } }).sampled ch t per w), mixSides tr o w, w.nonPcm && c.path == 2,
        heard.1 && o.late || heard.2 && w.late)

/-! ### Windows (R290, R296) -/

/-- A sample in the width of a packet (R299). -/
def packSample (width : Nat) (x : Int) : List Byte := if width = 0 then toBEs 3 (clip ((x + 128) / 256) (-(2 ^ 23)) (2 ^ 23 - 1)) else toBEs 4 x

/-- What building a group's packet has produced so far: the samples as bytes, the non-PCM bits, the channels with a late sample. -/
structure AudioAcc where
  /-- The device after the samples. -/
  dev : Dev
  /-- Sample bytes. -/
  bytes : List Byte := []
  /-- non_pcm. -/
  nonPcm : Nat := 0
  /-- Channels with a late sample, one entry a sample. -/
  late : List Nat := []

/-- One sample of every channel of a group. -/
def AudioAcc.step (e g n width : Nat) (t : Int) (a : AudioAcc) : AudioAcc :=
  (List.range n).foldl (fun a k =>
    let ch := 32 * e + 8 * g + k
    let r := a.dev.ecSample ch t
    { dev := r.1, bytes := a.bytes ++ packSample width r.2.1, nonPcm := if r.2.2.1 then a.nonPcm ||| 2 ^ k else a.nonPcm,
      late := if r.2.2.2 then a.late ++ [ch] else a.late }) a

/-- EV.AUDIO.LATE, at most once in a window of a block of egress streams (R306). -/
def Dev.lateEvent (e : Nat) (window : Int) (ch : Nat) (v : Dev) : Dev :=
  let b := 32 * (e / 32)
  if (v.es b).lateWin = some window then v else (v.modEs b fun x => { x with lateWin := some window }).raise (srcAudio ch 0) ch

/-- The packet of one group in a window (R290): `inst` are its sample instants T - O. -/
def State.audioGroup (e g : Nat) (inst : List Int) (silent : Bool) (s : State) : State :=
  let n := s.dev.groupChannels e g
  if n = 0 || inst.isEmpty then s
  else
    let c := s.dev.cfg.audioStream e
    let a := inst.foldl (fun a q => a.step e g n (c.width g) (q + s.dev.presQ e)) ({ dev := s.dev } : AudioAcc)
    let s := { s with dev := a.dev }
    if silent then s
    else
      let s := s.onDev fun v => a.late.foldl (fun v ch => v.modEc ch fun x => { x with late := satInc x.late }) v
      let s := match a.late.head? with
        | some ch => s.onDev (Dev.lateEvent e (inst.headD 0 / (winQ : Nat)) ch)
        | none => s
      s.toEgress e 5 (toBE 1 g ++ toBE 1 n ++ toBE 1 (c.width g) ++ toBE 1 (c.rate g) ++ toBE 5 (ts40OfQ (inst.headD 0).toNat) ++ toBE 1 a.nonPcm ++
        toBE 2 inst.length ++ toBE 1 1 ++ zeros 3 ++ a.bytes)

/-- Whether samples of an egress stream are discarded: it has no bond or no source (R145), or its lanes are in self-refresh, until SR_EXIT
is sent (R123, R307). -/
def Dev.audioSilent (e : Nat) (v : Dev) : Bool :=
  let x := v.es e
  (smFind e v.cfg.egress).isNone || match (v.cfg.route e).source with
  | .none => true
  | .ingress _ => false
  | .head h =>
    let hs := v.head (v.cfg.rasterHead h)
    (x.inSr && x.srDusk) || (hs.srDusk && (x.exitDue || (hs.inSr && !v.lanesRun e)))

/-- The audio of one group in the window that ends at a device time: its clock goes on to the samples of the next window. -/
def State.groupWindow (e g : Nat) (hi : Nat) (s : State) : State :=
  let v := s.dev
  if v.groupChannels e g = 0 then s.onDev (Dev.modEs e fun x => { x with clocks := smErase g x.clocks })
  else
    let r := v.windowSamples e hi 128 (v.groupClk e g)
    (s.onDev (Dev.modEs e fun x => { x with clocks := smPut g r.2 x.clocks })).audioGroup e g r.1 (v.audioSilent e)

/-- A 500 us window of an egress stream (R290): D_auto follows O and the rates (R292), then the groups in order. -/
def State.audioWindow (e hi : Nat) (s : State) : State :=
  let s := s.onDev fun v => (v.cfg.audio.filter fun a => a.1 / 32 == e).foldl (fun v a => v.renewAuto a.1 ((hi - winQ : Nat) + v.presQ e)) v
  let s := (List.range 4).foldl (fun s g => s.groupWindow e g hi) s
  s.onDev fun v => v.modEs e fun x => { x with audioT := v.clk.instantOf hi, audioOn := !x.clocks.isEmpty }

/-- The end of the window that an egress stream builds next, in device time: the first boundary after the last one built. -/
def Dev.windowEnd (e : Nat) (v : Dev) : Nat := (v.clk.devQ (v.es e).audioT / winQ + 1) * winQ

/-- AUDIO_WINDOW (R290): the engine builds the next window at its end. -/
def execAudioWindow (t : Nat) (egress : Fin 512) (s : State) : Result :=
  let hi := s.dev.windowEnd egress
  .next (if (s.dev.es egress).audioOn && s.dev.mediaOn then s.due (s.dev.clk.instantOf hi) t (State.audioWindow egress hi) else s.arrive t)

/-- Windows of an egress stream that have ended by an instant are built first; `n` bounds them. -/
def State.audioTo (e t : Nat) : Nat → State → State
  | 0, s => s
  | n + 1, s =>
    let hi := s.dev.windowEnd e
    let d := s.dev.clk.instantOf hi
    if (s.dev.es e).audioOn && d ≤ t then (s.due d t (State.audioWindow e hi)).audioTo e t n else s

/-! ### Boundaries (R287, R301, R303, R456) -/

/-- One ledger entry for each commit that reaches the audio of an egress stream, unless it has one already (R456). -/
def Dev.audioLedger (e : Nat) (ks : List Commit) (v : Dev) : Dev :=
  ks.foldl (fun v k =>
    if v.ev.ledger.any (fun l => l.generation == k.generation && l.kind == 3 && l.unit == e) then v
    else v.ledger k.generation 3 0 e v.nowU 0) v

/-- New settings of a channel act from T_sw, the T of its boundary (R284, R287, R294, R303): `req` is the record that brought them. -/
def Dev.channelLive (ch : Nat) (tsw : Int) (old new : Option AudioChCfg) (req : AudioChCfg) (v : Dev) : Dev :=
  let kind (x : Option AudioChCfg) : Nat × Nat := match x with | some a => (a.sourceKind, a.source) | none => (0, 0)
  if kind old != kind new then
    v.switchCh ch req.changeTransition req.fadeMs (match old with | some a => if a.sourceKind = 2 then some a.source else none | none => none) tsw
  else match old, new with
    | some a, some b =>
      let v := if a.delayMode != b.delayMode && b.delayMode = 0 then
          let d := v.dAutoStart ch b
          v.modEc ch fun c => { c with dAuto := d, fresh := d.isNone, meas := [], farRun := 0 }
        else v
      let v := if a.conversion != b.conversion then v.modEc ch fun c => { c with goodSince := none, measT := v.clk.now, marks := [] } else v
      (v.applyDelay ch true tsw).rePath ch tsw false
    | _, _ => v

/-- A tone generator takes its due settings: the channels it feeds take them, and their seed, from T on (R287, R301, R302). -/
def Dev.toneLive (g : Nat) (tsw : Int) (v : Dev) : Dev × List Commit :=
  let due := v.due (.tone g)
  if due.isEmpty then (v, [])
  else
    let old := smGet ({} : ToneCfg) g v.cfg.tones
    let v := v.goLive (.tone g)
    ((v.cfg.audio.filter fun a => a.2.sourceKind == 2 && a.2.source == g).foldl (fun v a => v.modEc a.1 fun c => { c with toneOld := some (tsw, old) }) v, due)

/-- The last AUDIO.CHANNEL record of a channel among some commits. -/
def lastChannelRecord (ch : Nat) (ks : List Commit) : AudioChCfg :=
  ((ks.flatMap fun k => (k.ops.filter fun o => o.1 == .audioChannel ch && o.2.code == 0x0901).map fun o => readAudioChCfg o.2.params 0).getLast?).getD {}

/-- The boundary of a channel, the sample at T: its settings, and those of the generator that feeds it. -/
def Dev.channelBoundary (ch : Nat) (tsw : Int) (v : Dev) : Dev :=
  let due := v.due (.audioChannel ch)
  let old := smFind ch v.cfg.audio
  let v := v.goLive (.audioChannel ch)
  let new := smFind ch v.cfg.audio
  let v := if due.isEmpty then v else v.channelLive ch tsw old new (lastChannelRecord ch due)
  let (v, toneDue) := match new with
    | some a => if a.sourceKind = 2 then v.toneLive a.source tsw else (v, [])
    | none => (v, [])
  v.audioLedger (ch / 32) (due ++ toneDue)

/-- The boundary of an egress stream's audio settings, a window's start: paths are chosen again and delays follow the new rate (R288, R291,
R298). -/
def Dev.streamBoundary (e : Nat) (v : Dev) : Dev :=
  let due := v.due (.audioStream e)
  if due.isEmpty then v
  else
    let v := v.goLive (.audioStream e)
    let v := (v.cfg.audio.filter fun a => a.1 / 32 == e).foldl (fun v a =>
      let q := v.stepT a.1
      ((v.renewAuto a.1 q).applyDelay a.1 true q).rePath a.1 q false) v
    v.audioLedger e due

/-- The first E, in device time, of the commits that some units still have to take. -/
def Dev.firstDue (us : List UnitId) (v : Dev) : Option Nat := (v.daond.commits.find? fun k => k.left.any us.contains).map fun k => qOfU k.effective

/-- The boundary of a channel to come (R287): the first sample not yet sent whose T - O is not before E, as its T. -/
def Dev.channelT (ch : Nat) (v : Dev) : Option Int :=
  let tone := match smFind ch v.cfg.audio with
    | some a => if a.sourceKind = 2 then [UnitId.tone a.source] else []
    | none => []
  (v.firstDue (UnitId.audioChannel ch :: tone)).map fun q =>
    let c := v.groupClk (ch / 32) (ch % 32 / 8)
    v.sampleQ c (v.sampleFrom c (q + v.presQ (ch / 32)))

/-- AUDIO_BOUNDARY (R287): of a channel at its sample, of a stream at the start of its window, once the windows before it are built. -/
def execAudioBoundary (t : Nat) (egress : Fin 512) (channel : Option (Fin 32)) (s : State) : Result :=
  let e : Nat := egress
  .next (if !s.dev.mediaOn then s.arrive t
    else match channel with
      | some k =>
        let ch := 32 * e + (k : Nat)
        (match s.dev.channelT ch with
        | some q => s.due (s.dev.clk.instantOf (q - s.dev.presQ e).toNat) t (State.onDev (Dev.channelBoundary ch q))
        | none => s.arrive t)
      | none => match s.dev.firstDue [.audioStream e] with
        | some q =>
          let d := s.dev.clk.instantOf (ceilDiv q winQ * winQ)
          (s.audioTo e (min d t) ((min d t - s.dev.clk.now) / winQ + 4)).due d t (State.onDev (Dev.streamBoundary e))
        | none => s.arrive t)

/-! ### Rate measurement and SRC (R298 to R300) -/

/-- The rate of a source against a sample clock between two measurements, each against its nominal rate, as 2^-16 ppm (R298): `fs` is the
source's nominal rate. -/
def rateOffsetOf (fs setFreq : Nat) (a b : RateMark) : Int :=
  let num : Int := ((b.count - a.count) * cycleP * setFreq * (b.dev - a.dev) : Nat)
  let den : Int := (b.pos - a.pos) * (fs * (b.phase - a.phase) : Nat)
  if den ≤ 0 then 0 else clip ((2 * num * ppmOne + den) / (2 * den) - ppmOne) (-(2 ^ 31)) (2 ^ 31 - 1)

/-- Whether a later measurement goes on from an earlier one: one TC, and a source with no jump between. -/
def RateMark.follows (a b : RateMark) : Bool := a.tc == b.tc && decide (a.count < b.count) && decide (a.pos < b.pos) && decide (a.phase < b.phase)

/-- The measurement of a second under AUTO (R298): the offset over the last 10 s, then the path. -/
def Dev.measureRate (ch : Nat) (v : Dev) : Dev :=
  let c := v.ec ch
  match c.resolved, v.mediaOn with
  | some x, true =>
    let src := v.xchan x
    let k := v.groupClk (ch / 32) (ch % 32 / 8)
    let here : RateMark := { dev := v.nowQ, tc := k.tc, phase := (v.tc k.tc).phaseAt v.clk.now, count := src.count, pos := src.lastP.getD 0 }
    let old := c.marks.filter (·.follows here)
    let offset := (old.head?).map fun a => rateOffsetOf (rateHz src.rateCode) k.freq a here
    let good := match offset with | some o => !src.absent && decide (20 * o.natAbs ≤ 65536) | none => false
    let marks := old ++ [here]
    (v.setEc ch { c with rateOffset := offset.getD c.rateOffset, goodSince := if good then some (c.goodSince.getD v.clk.now) else none
                         measT := v.clk.now, marks := marks.drop (marks.length - 10) }).rePath ch (v.stepT ch) false
  | _, _ => v

/-- AUDIO_RATE_MEASUREMENT (R298): under AUTO, a second after the last. -/
def execAudioRateMeasurement (t : Nat) (egress : Fin 512) (channel : Fin 32) (s : State) : Result :=
  let e : Nat := egress
  let k : Nat := channel
  let ch := 32 * e + k
  let auto := match smFind ch s.dev.cfg.audio with | some a => a.sourceKind != 2 && a.conversion == 0 | none => false
  .next (if auto && (s.dev.ec ch).resolved.isSome then s.due ((s.dev.ec ch).measT + secQ) t (State.onDev (Dev.measureRate ch)) else s.arrive t)

/-- SRC_REACQUIRED (R300). -/
def execSrcReacquired (t : Nat) (egress : Fin 512) (channel : Fin 32) (s : State) : Result :=
  .next ((s.arrive t).onDev fun v =>
    let e : Nat := egress
    let k : Nat := channel
    if v.mediaOn then v.modEc (32 * e + k) fun c => { c with acquired := c.resolved.isSome || c.acquired } else v)

/-- AUDIO_SWITCH_POINT (R303): at the sample of T_sw, once that is known. -/
def execAudioSwitchPoint (t : Nat) (egress : Fin 512) (channel : Fin 32) (s : State) : Result :=
  let e : Nat := egress
  let k : Nat := channel
  .next (match (s.dev.es e).switchQ with
    | some q => s.due (s.dev.clk.instantOf (q - s.dev.presQ e).toNat) t (State.onDev fun v => if v.mediaOn then v.audioSwitch (32 * e + k) else v)
    | none => s.arrive t)

/-- TRANSITION_END (R304, R307). -/
def execTransitionEnd (t : Nat) (egress : Fin 512) (channel : Fin 32) (s : State) : Result :=
  .next ((s.arrive t).onDev fun v =>
    let e : Nat := egress
    let k : Nat := channel
    if v.mediaOn then v.transitionEnd (32 * e + k) (v.nextSampleT (32 * e + k)) else v)

/-! ### AUDIO.STATUS (R305) -/

/-- State of an embedded channel (R305): 0 OFF, 1 WAITING, 2 RUNNING, 3 ABSENT, 4 MUTED. -/
def Dev.ecState (ch : Nat) (v : Dev) : Nat :=
  let c := v.ec ch
  match smFind ch v.cfg.audio with
  | none => 0
  | some a =>
    if a.sourceKind = 2 then 2
    else match c.resolved with
      | none => 3
      | some x => if (v.xchan x).absent then 3 else if c.delay.isNone then 1 else if c.path = 0 then 4 else 2

/-- The 48-byte record of an embedded channel (R305). -/
def audioRecord (ch : Nat) (v : Dev) : List Byte :=
  let c := v.ec ch
  let x : Xc := match c.resolved with | some n => v.xchan n | none => {}
  let q := c.delay.getD 0
  let d : Int := ((if c.path = 2 then wholePeriods (rateHz (v.ecRate ch)) q else q) + 2000) / 4000
  toBE 2 ch ++ toBE 1 (v.ecState ch) ++ toBE 1 c.path ++ toBE 2 (c.resolved.getD 0xFFFF) ++ zeros 2 ++ toBE 4 d.toNat ++ toBEs 4 c.rateOffset ++
  toBE 4 c.late.toNat ++ toBE 4 c.slips.toNat ++ toBE 4 c.modeChanges.toNat ++ toBE 4 c.delaySteps.toNat ++ toBE 4 c.delayClips.toNat ++
  toBE 4 x.absences.toNat ++ toBE 4 x.tsJumps.toNat ++ zeros 4

/-- A clear of a channel's counters, those of its resolved source among them (R305). -/
def audioClear (ch : Nat) (v : Dev) : Dev :=
  let v := v.modEc ch fun c => { c with late := 0, slips := 0, modeChanges := 0, delaySteps := 0, delayClips := 0 }
  match (v.ec ch).resolved with
  | some n => v.modXchan n fun x => { x with absences := 0, tsJumps := 0 }
  | none => v

/-- AUDIO.STATUS. -/
def audioStatusRow : OpRow := queryRow 0x0904 true false
/-- The work of AUDIO.STATUS. -/
def audioStatusEff : Effect := query 16384 48 false audioRecord audioClear
/-- AUDIO_STATUS (R305). -/
def execAudioStatus (t : Nat) (d : Datagram) (s : State) : Result :=
  .next (serve audioStatusRow (.audioStatus t d) t d audioStatusEff s)

end Sys2Proof.Machine
end

