-- ==== Sys2Proof/Machine/LayerCmds.lean ====
section
/-! DEFINITION. What the host reads of capture channels, surfaces and layer slots: CAP.STATUS (R178), SURF.STATUS (R160),
LAYER.STATUS (R196, R203), and the read forms of LAYER.LUT (R209), LAYER.SCALER (R229) and LAYER.COEFF (R232). -/
namespace Sys2Proof.Machine
open Sys2Proof

/-- A number, or 0xFFFF for none, as two bytes. -/
def optBytes (x : Option Nat) : List Byte := toBE 2 (x.getD 0xFFFF)

/-! ### CAP.STATUS (R178) -/

/-- CAP.STATUS's record. -/
def capRecord (c : Nat) (v : Dev) : List Byte :=
  let x := v.cap c
  toBE 2 c ++ optBytes x.newest ++ optBytes x.writing ++ zeros 2 ++ toBE 4 x.captured.toNat ++ toBE 4 x.incomplete.toNat ++
  toBE 4 x.ringFull.toNat ++ toBE 4 x.cropEmpty.toNat ++ toBE 4 x.oversize.toNat ++ zeros 4

/-- A clear of a capture channel's counters. -/
def capClear (c : Nat) (v : Dev) : Dev :=
  v.modCap c fun x => { x with captured := 0, incomplete := 0, ringFull := 0, cropEmpty := 0, oversize := 0 }

/-- CAP.STATUS (R178, R435, R442). -/
def capStatusRow : OpRow := queryRow 0x0502 true false
/-- The work of CAP.STATUS. -/
def capStatusEff : Effect := query 512 32 false capRecord capClear
/-- CAP_STATUS (R178). -/
def execCapStatus (t : Nat) (d : Datagram) (s : State) : Result := .next (serve capStatusRow (.capStatus t d) t d capStatusEff s)

/-! ### SURF.STATUS (R160) -/

/-- The record of a surface: number and EMPTY with zeros where there is none. A slot inside ring_len that holds no frame answers so too,
though R160 says it of an unused slot (DESIGN CHOICE, log entry 32). -/
def surfRecord (n : Nat) (v : Dev) : List Byte :=
  let x := v.surface n
  if x.state == .empty then toBE 2 n ++ zeros 62
  else
    toBE 2 n ++ toBE 1 x.state.code ++ toBE 1 x.marks ++ toBE 1 x.storage ++ toBE 1 x.colourFormat ++ toBE 1 x.bitDepth ++ zeros 1 ++
    toBE 2 x.width ++ toBE 2 x.height ++ toBE 4 (if x.storage = 0 then x.realPitch else 0) ++ toBE 8 x.base ++ toBE 4 x.size ++ toBE 4 x.frameNumber ++
    timeBytes (uOfQ x.startQ) ++ timeBytes (uOfQ x.completeQ) ++ toBE 4 x.measured ++ toBE 2 x.maxRow ++ zeros 2

/-- SURF.STATUS (R160, R435, R442). -/
def surfStatusRow : OpRow := queryRow 0x0605 false false
/-- The work of SURF.STATUS: 16,384 surfaces, no counters. -/
def surfStatusEff : Effect := query 16384 64 false surfRecord (fun _ v => v)
/-- SURF_STATUS (R160). -/
def execSurfStatus (t : Nat) (d : Datagram) (s : State) : Result := .next (serve surfStatusRow (.surfStatus t d) t d surfStatusEff s)

/-! ### LAYER.STATUS (R196, R203) -/

/-- State of a slot as LAYER.STATUS shows it: OFF, SHOWN, HIDDEN, NOT_READY. -/
def layerStateCode (c : SlotCfg) (l : LayerSt) : Nat :=
  match c.layer with
  | none => 0
  | some f => if f.enable = 2 then 2 else if l.policyActs || l.lineActs then 3 else 1

/-- The two parts of LAYER.STATUS's record. -/
def layerRecord (n : Nat) (v : Dev) : List Byte :=
  let c := v.cfg.slot n
  let l := v.layer n
  toBE 2 n ++ optBytes (c.layer.map (·.head)) ++ toBE 1 (layerStateCode c l) ++ zeros 3 ++ toBE 4 l.frames.toNat ++ toBE 4 l.notReady.toNat ++
  optBytes l.shown.head? ++ toBE 1 l.weight ++ zeros 1 ++ toBE 4 ((l.shown.head?.map (fun k => (v.surface k).frameNumber)).getD 0) ++
  toBE 4 l.repeats.toNat ++ toBE 4 l.drops.toNat ++ toBE 4 l.slips.toNat ++ toBE 4 l.resyncs.toNat ++ toBE 4 l.blendShort.toNat ++
  toBE 4 l.chaseSubs.toNat ++ toBE 4 l.mtfErrors.toNat

/-- A clear of both parts' counters (R203). -/
def layerClear (n : Nat) (v : Dev) : Dev :=
  v.modLayer n fun l => { l with frames := 0, notReady := 0, repeats := 0, drops := 0, slips := 0, resyncs := 0, blendShort := 0,
                                 chaseSubs := 0, mtfErrors := 0 }

/-- LAYER.STATUS (R203, R435, R442). -/
def layerStatusRow : OpRow := queryRow 0x0707 true false
/-- The work of LAYER.STATUS. -/
def layerStatusEff : Effect := query 1024 52 false layerRecord layerClear
/-- LAYER_STATUS (R203). -/
def execLayerStatus (t : Nat) (d : Datagram) (s : State) : Result := .next (serve layerStatusRow (.layerStatus t d) t d layerStatusEff s)

/-! ### Read forms (R209, R229, R232) -/

/-- Point i of the table a LAYER.LUT read names: the host table for code 1, a built-in table else (R209, R210). -/
def lutRead (c : SlotCfg) (comp table i : Nat) : Nat :=
  if table = 1 then
    match smFind comp c.luts with
    | some t => t.getD i 0
    | none => min fullScale (1024 * i)
  else lutPoint table i

/-- The read form of LAYER.LUT (R209, R442). -/
def layerLutReadRow : OpRow :=
  { code := 0x0702, fix := [(3, 1)], codes := 2, lease := fun _ => false, changes := fun _ => false, lenOk := len8 }
/-- The work of a LUT read. -/
def layerLutReadEff : Effect := fun d s =>
  let p := d.params
  match firstBad [⟨0, 2, .unsigned, [(0, 1023)]⟩, ⟨2, 1, .unsigned, [(0, 2)]⟩, ⟨4, 1, .unsigned, [(1, 7)]⟩, ⟨5, 3, .reserved, []⟩] p with
  | some o => (s, .fail (badField o))
  | none =>
    let c := s.dev.cfg.slot (fieldU p 0 2)
    (s, .ok (p ++ (List.range 1025).flatMap fun i => toBE 4 (lutRead c (fieldU p 2 1) (fieldU p 4 1) i)))
/-- LAYER_LUT_READ (R209). -/
def execLayerLutRead (t : Nat) (d : Datagram) (s : State) : Result :=
  .next (serve layerLutReadRow (.layerLutRead t d) t d layerLutReadEff s)

/-- The 32-byte reply of a LAYER.SCALER read (R229). -/
def scalerRecord (n op : Nat) (v : Dev) : List Byte :=
  let c := v.cfg.slot n
  let seam := (c.layer.bind fun f => optU16 f.seamSlot).bind fun k => (v.cfg.slot k).scaler
  writeScalerCfg { c.scalerSet with slot := n, op := op } ++
  toBE 2 (if c.scGran = 0 && c.chGran = 0 then 0 else c.wBuf) ++ toBE 1 c.scGran ++ toBE 1 c.chGran ++ optBytes c.scaler ++ optBytes seam ++
  toBE 4 (v.layer n).shortFrames.toNat ++ zeros 4

/-- Field rules of the read forms of LAYER.SCALER: every field after `op` is zero (R229). -/
def scalerReadBad (p : List Byte) : Option Nat :=
  firstBad [⟨0, 2, .unsigned, [(0, 1023)]⟩, ⟨3, 1, .reserved, []⟩, ⟨4, 1, .reserved, []⟩, ⟨5, 1, .reserved, []⟩, ⟨6, 2, .reserved, []⟩,
            ⟨8, 2, .reserved, []⟩, ⟨10, 6, .reserved, []⟩] p

/-- Op 1 of LAYER.SCALER (R229, R442). -/
def layerScalerReadRow : OpRow :=
  { code := 0x0705, fix := [(2, 1)], codes := 3, lease := fun _ => false, changes := fun _ => false, lenOk := fun p => p.length == 16 }
/-- The work of a scaler read. -/
def layerScalerReadEff : Effect := fun d s =>
  match scalerReadBad d.params with
  | some o => (s, .fail (badField o))
  | none => (s, .ok (scalerRecord (fieldU d.params 0 2) 1 s.dev))
/-- LAYER_SCALER_READ (R229). -/
def execLayerScalerRead (t : Nat) (d : Datagram) (s : State) : Result :=
  .next (serve layerScalerReadRow (.layerScalerRead t d) t d layerScalerReadEff s)

/-- Op 2 of LAYER.SCALER (R229, R442). -/
def layerScalerReadClearRow : OpRow := { code := 0x0705, fix := [(2, 2)], codes := 3, lenOk := fun p => p.length == 16 }
/-- The work of a scaler read that zeroes short_buffer_frames. -/
def layerScalerReadClearEff : Effect := fun d s =>
  match scalerReadBad d.params with
  | some o => (s, .fail (badField o))
  | none =>
    let n := fieldU d.params 0 2
    (s.onDev fun v => v.modLayer n fun l => { l with shortFrames := 0 }, .ok (scalerRecord n 2 s.dev))
/-- LAYER_SCALER_READ_CLEAR (R229). -/
def execLayerScalerReadClear (t : Nat) (d : Datagram) (s : State) : Result :=
  .next (serve layerScalerReadClearRow (.layerScalerReadClear t d) t d layerScalerReadClearEff s)

/-- Coefficient (phase, tap) of the table a LAYER.COEFF read names (R231, R232). -/
def coeffRead (c : SlotCfg) (dir table : Nat) : List Int :=
  let built (k : Nat) : List Int := (List.range 64).flatMap (kernelCoeffs k)
  if table = 5 then
    match smFind dir c.coeffs with
    | some t => t
    | none => built 2
  else built table

/-- The read form of LAYER.COEFF (R232, R442). -/
def layerCoeffReadRow : OpRow :=
  { code := 0x0706, fix := [(3, 1)], codes := 2, lease := fun _ => false, changes := fun _ => false, lenOk := len8 }
/-- The work of a coefficient read. -/
def layerCoeffReadEff : Effect := fun d s =>
  let p := d.params
  match firstBad [⟨0, 2, .unsigned, [(0, 1023)]⟩, ⟨2, 1, .unsigned, [(0, 1)]⟩, ⟨4, 1, .unsigned, [(1, 5)]⟩, ⟨5, 3, .reserved, []⟩] p with
  | some o => (s, .fail (badField o))
  | none => (s, .ok (p ++ (coeffRead (s.dev.cfg.slot (fieldU p 0 2)) (fieldU p 2 1) (fieldU p 4 1)).flatMap (toBEs 2)))
/-- LAYER_COEFF_READ (R232). -/
def execLayerCoeffRead (t : Nat) (d : Datagram) (s : State) : Result :=
  .next (serve layerCoeffReadRow (.layerCoeffRead t d) t d layerCoeffReadEff s)

end Sys2Proof.Machine
end

