-- ==== Sys2Proof/Machine/Demand.lean ====
section
/-! DEFINITION. The demand of an egress stream and the capacity of its bond (R121, R122), as exact fractions. -/
namespace Sys2Proof.Machine
open Sys2Proof

/-- The video format of an egress stream under a configuration: colour format, depth, width, v_total, scan, rate numerator and
denominator (R121, R122). -/
def Cfg.egressFormat (e : Nat) (c : Cfg) : Option (Nat × Nat × Nat × Nat × Nat × Nat × Nat) :=
  match (c.route e).source with
  | .none => none
  | .ingress s => (smFind s c.ingress).map fun i =>
      (i.expected.colourFormat, i.expected.bitDepth, i.expected.width, i.expected.vTotal, i.expected.scan, i.expected.rateNum, i.expected.rateDen)
  | .head h =>
    let x := c.head h
    x.timing.map fun t => (x.colour.outFormat, x.colour.outDepth, t.hActive, t.vTotal, t.scan, t.rate.1, t.rate.2)

/-- The audio groups that an egress stream carries, as rate code, channels and bytes a sample (R23, R121). -/
def Dev.audioGroups (e : Nat) (c : Cfg) (v : Dev) : List (Nat × Nat × Nat) :=
  if c.hasAudio e then
    (List.range 4).filterMap fun g =>
      let n := c.groupChannels e g
      if n = 0 then none else some ((c.audioStream e).rate g, n, if (c.audioStream e).width g = 0 then 3 else 4)
  else match (c.route e).source with
    | .ingress s => (v.is s).groups.map fun x => (x.2.1, x.2.2 / 2, if x.2.2 % 2 = 0 then 3 else 4)
    | _ => []

/-- The audio term of D in bit/s. -/
def audioBits (gs : List (Nat × Nat × Nat)) : Nat := (gs.map fun g => 8 * rateHz g.1 * g.2.1 * g.2.2 + 8 * 20 * 2000).sum

/-- D of an egress stream as a numerator and a denominator (R121); 0 without a source. -/
def Dev.demand (e : Nat) (c : Cfg) (v : Dev) : Nat × Nat :=
  match c.egressFormat e with
  | none => (0, 1)
  | some (fmt, bd, w, vTotal, scan, rn, rd) =>
    let rd := max 1 rd
    ((frameBits fmt bd w vTotal scan * rn + (audioBits (v.audioGroups e c) + 128000) * rd) * 1280 + lineRate (v.block (e / 32)).rateCode * rd, rd * 1280)

/-- C of an egress stream's bond as a numerator and a denominator (R121). -/
def Dev.capacity (e : Nat) (c : Cfg) (v : Dev) : Nat × Nat :=
  ((((smFind e c.egress).map (·.bondSize)).getD 0) * lineRate (v.block (e / 32)).rateCode * 3069, 4096)

/-- By how much D exceeds C, in bit/s rounded up; 0 when the stream fits. -/
def Dev.overload (e : Nat) (c : Cfg) (v : Dev) : Nat :=
  let d := v.demand e c
  let k := v.capacity e c
  if d.1 * k.2 ≤ k.1 * d.2 then 0 else ceilDiv (d.1 * k.2 - k.1 * d.2) (d.2 * k.2)

end Sys2Proof.Machine
end

