-- ==== Sys2Proof/Machine/Gaps.lean ====
section
/-! DEFINITION. The prediction of gaps and the search for take windows (R147 to R149). Instants are quarter picoseconds of OSC time. -/
namespace Sys2Proof.Machine
open Sys2Proof

/-- A predicted gap: its start, and its end unless the source stays in it. -/
structure Gap where
  /-- Start. -/
  lo : Nat
  /-- End. -/
  hi : Option Nat
  deriving DecidableEq, Repr

/-! ### Ingress streams -/

/-- The smallest of some values. -/
def minOf (xs : List Nat) : Nat := (xs.min?).getD 0

/-- The predicted gaps of a LOCKED ingress stream that end after `a` and start before `b` (R147). -/
def Dev.ingressGaps (s a b : Nat) (v : Dev) : List Gap :=
  let x := v.is s
  let len := minOf x.gaps
  match x.lastEndX with
  | none => []
  | some q =>
    let p := max 1 (v.ingressPeriod s)
    let j0 := if q + len < a then (a - q - len) / p else 0
    (List.range ((b - a) / p + 3)).map fun i => { lo := q + (j0 + i) * p, hi := some (q + (j0 + i) * p + len) }

/-! ### Heads -/

/-- A head's settings that become live at a Midnight point to come: the instant of E and the operation (R147). -/
abbrev HeadEvent := Nat × StagedOp

/-- What the prediction of a head carries from one Midnight point to the next. -/
structure HeadPred where
  /-- Next Midnight point. -/
  m : Nat
  /-- Raster. -/
  t : TimingCfg
  /-- In self-refresh. -/
  sr : Bool
  /-- Start of the gap it is in, while it stays in self-refresh. -/
  since : Option Nat
  /-- The field that ends at `m` is the second of its frame. -/
  second : Bool
  deriving DecidableEq, Repr

/-- The time of some lines of a raster. -/
def Dev.linesQ (t : TimingCfg) (n : Nat) (v : Dev) : Nat := t.pixQ (v.tc t.tc) (n * t.hTotal)

/-- HEAD.TIMING and HEAD.SR of one event, on the raster and self-refresh state. -/
def headEventAt (q : Option TimingCfg × Bool) (o : StagedOp) : Option TimingCfg × Bool :=
  if o.code = 0x0801 then (if fieldU o.params 2 1 = 0 then none else some (readTimingCfg o.params 0), q.2)
  else if o.code = 0x0803 then (q.1, fieldU o.params 2 1 == 1)
  else q

/-- The gaps of a head from a Midnight point on, up to `b`. -/
def Dev.headGapsFrom (evs : List HeadEvent) (b : Nat) (v : Dev) : Nat → HeadPred → List Gap
  | 0, _ => []
  | n + 1, p =>
    if b < p.m then (match p.since with | some q => [{ lo := q, hi := none }] | none => [])
    else
      let q := (evs.filter (fun e => decide (e.1 ≤ p.m))).foldl (fun q e => headEventAt q e.2) (some p.t, p.sr)
      let later := evs.filter (fun e => decide (p.m < e.1))
      let lo := p.since.getD (6 * usQ + p.m)
      match q.1 with
      | none => [{ lo := lo, hi := none }]
      | some t =>
        let fresh := t.core != p.t.core
        let extra := if p.second && t.interlaced && !fresh then t.interlaceExtra else 0
        let a := p.m + v.linesQ t (t.vFp0 + t.vSync + t.vBp + extra)
        let next : HeadPred := { m := a + v.linesQ t t.va, t := t, sr := q.2, since := if q.2 then some lo else none, second := t.interlaced && (fresh || !p.second) }
        let here : List Gap := if q.2 then [] else if p.sr then [{ lo := lo, hi := some p.m }] else [{ lo := lo, hi := some a }]
        here ++ v.headGapsFrom later b n next

/-- Where the gap of a head in self-refresh starts (R147): as its SR_ENTER passes, or at no instant where it has none to send. -/
def HeadSt.srLo (x : HeadSt) : Nat := if x.srSent then x.srT else if x.srDue then 6 * usQ + x.midnightT else 0

/-- The predicted gaps of a head up to `b` (R147); a head that is OFF is in its gap until the first active start that a HEAD.TIMING
gives it. -/
def Dev.headGaps (h : Nat) (evs : List HeadEvent) (b : Nat) (v : Dev) : List Gap :=
  let r := v.cfg.rasterHead h
  let hs := v.head r
  let fuel (t : TimingCfg) : Nat := (b - v.clk.now) / max 1 (v.linesQ t t.va) + 4
  let start (t : TimingCfg) (sr : Bool) (r0 : Nat) (rest : List HeadEvent) : List Gap :=
    let a := r0 + v.linesQ t (t.vFp0 + t.vSync + t.vBp)
    let p : HeadPred := { m := a + v.linesQ t t.va, t := t, sr := sr, since := if sr then some 0 else none, second := false }
    (if sr then [] else [{ lo := 0, hi := some a }]) ++ v.headGapsFrom rest b (fuel t) p
  match (v.cfg.head r).timing with
  | none =>
    let q := evs.foldl (fun q e => headEventAt q e.2) (none, (v.cfg.head r).sr.op == 1)
    (match q.1 with
    | some t => start t q.2 (v.clk.instantOf (t.originQ (v.clk.devQ ((evs.head?.map (·.1)).getD v.clk.now)))) []
    | none => [])
  | some t =>
    if let some q := hs.startQ then start t hs.inSr (v.clk.instantOf q) evs
    else if hs.fieldOpen then
      v.headGapsFrom evs b (fuel t)
        { m := v.rasterT r t (hs.activeN + t.va * t.hTotal), t := t, sr := hs.inSr, since := if hs.inSr then some hs.srLo else none, second := hs.second }
    else
      let a := v.rasterT r t (t.activeAt { hs with vFpNext := if t.mode = 1 then t.vFpMin else hs.vFpNext })
      let p : HeadPred := { m := a + v.linesQ t t.va, t := t, sr := hs.inSr, since := if hs.inSr then some hs.srLo else none, second := t.interlaced && !hs.second }
      (if hs.inSr then [] else [{ lo := if hs.exitDue then hs.srT else if hs.sentThisRun then 6 * usQ + hs.midnightT else 0, hi := some a }]) ++ v.headGapsFrom evs b (fuel t) p

/-! ### Windows (R148, R149) -/

/-- The gaps of a source, none where it imposes no constraint (R148). -/
def Dev.sourceGaps (x : Source) (evs : List HeadEvent) (a b : Nat) (v : Dev) : Option (List Gap) :=
  match x with
  | .none => none
  | .ingress s => if (v.is s).state == .locked then some (v.ingressGaps s a b) else none
  | .head h => some (v.headGaps h evs b)

/-- A gap shrunk by the guard of 2 us at both ends (R147). -/
def Gap.guard (g : Gap) : Gap := { lo := 2 * usQ + g.lo, hi := g.hi.map (· - 2 * usQ) }

/-- The intersection of two gaps. -/
def Gap.meet (x y : Gap) : Gap :=
  { lo := max x.lo y.lo, hi := match x.hi, y.hi with
      | some a, some b => some (min a b)
      | some a, none => some a
      | none, b => b }

/-- The instant at which a take with effective instant `e` executes in a window, if the window leaves the margin after it (R148). -/
def Gap.takeAt (e margin : Nat) (g : Gap) : Option Nat :=
  let t := max e g.lo
  match g.hi with
  | some h => if t + margin ≤ h then some t else none
  | none => some t

/-- Frame period of a source, quarter ps (R149). -/
def Dev.framePeriod (x : Source) (v : Dev) : Nat :=
  match x with
  | .none => 0
  | .ingress s => v.ingressPeriod s * (match (v.is s).held with | some d => d.fields | none => 1)
  | .head h => match (v.cfg.head h).timing with | some t => t.fieldQ * (if t.interlaced then 2 else 1) | none => 0

/-- P of R149. -/
def Dev.takePeriod (old new : Source) (v : Dev) : Nat := if old = .none then v.framePeriod new else v.framePeriod old

/-- Whether the lanes of an egress stream stand in Dusk with reason SELF_REFRESH (R148). -/
def Dev.duskSr (e : Nat) (v : Dev) : Bool := (v.cfg.egressLanes e).any fun n => (v.lane n).tx == .dusk && (v.lane n).duskReason == 0

/-- Whether a take to a source leaves the lanes in Dusk: a head in self-refresh with dusk 1 (R148). -/
def Dev.staysDusk (new : Source) (v : Dev) : Bool :=
  match new with
  | .head h =>
    let hs := v.head (v.cfg.rasterHead h)
    hs.inSr && hs.srDusk
  | _ => false

/-- The margin that a window must leave after the take (R148): 2 us, and the exit time of R77 when the lanes leave Dusk. -/
def Dev.takeMargin (e : Nat) (new : Source) (v : Dev) : Nat :=
  2 * usQ + (if v.duskSr e && !v.staysDusk new then 400000 + 16 * blockQ (v.block (e / 32)).rateCode else 0)

/-- The first instant from `a` on at which a take may execute, by predictions up to `b` (R148): in a window that leaves the margin after
it, or at the first CORE cycle where no source constrains it. -/
def Dev.takeFirst (e a b : Nat) (old new : Source) (oldEvs newEvs : List HeadEvent) (v : Dev) : Option Nat :=
  let margin := v.takeMargin e new
  let go (x y : List Gap) : Option Nat := (x.flatMap fun g => y.filterMap fun k => (g.meet k).takeAt a margin).min?
  let all : List Gap := [{ lo := 0, hi := none }]
  match v.sourceGaps old oldEvs a b, v.sourceGaps new newEvs a b with
  | none, none => some (Machine.coreUp a)
  | some x, none => go (x.map Gap.guard) all
  | none, some y => go all (y.map Gap.guard)
  | some x, some y => go (x.map Gap.guard) (y.map Gap.guard)

/-- Whether a take may execute from `a` to `b` (R148, R149): with no constraint it always may. -/
def Dev.takeWithin (e a b : Nat) (old new : Source) (oldEvs newEvs : List HeadEvent) (v : Dev) : Bool :=
  (v.sourceGaps old oldEvs a b).isNone && (v.sourceGaps new newEvs a b).isNone ||
  match v.takeFirst e a b old new oldEvs newEvs with | some t => decide (t ≤ b) | none => false

/-- Whether a take qualifies at admission (R149): it may execute from E to E + 4 P. -/
def Dev.takeQualifies (e eff : Nat) (old new : Source) (oldEvs newEvs : List HeadEvent) (v : Dev) : Bool :=
  v.takeWithin e eff (eff + 4 * v.takePeriod old new) old new oldEvs newEvs

/-! ### Predictions as they stand (R150) -/

/-- HEAD.TIMING and HEAD.SR of a head among some operations with one E (R147). -/
def headEventsOf (h e : Nat) (os : List StagedOp) (v : Dev) : List HeadEvent :=
  os.filterMap fun o => if (o.code == 0x0801 || o.code == 0x0803) && fieldU o.params 0 2 == h then some (v.clk.instantOf (qOfU e), o) else none

/-- The settings of a head that admitted commits have still to bring. -/
def Dev.headComing (x : Source) (v : Dev) : List HeadEvent :=
  match x with
  | .head h => v.daond.commits.flatMap fun k =>
    headEventsOf (v.cfg.rasterHead h) k.effective ((k.ops.filter fun o => k.left.contains o.1).map (·.2)) v
  | _ => []

/-- Whether a take from the live source of a route to a new one may execute at some instant from `a` to `b`, by the predictions as they
stand now. -/
def Dev.takeCan (e a b : Nat) (new : Source) (v : Dev) : Bool :=
  let old := (v.cfg.route e).source
  v.takeWithin e a b old new (v.headComing old) (v.headComing new)

/-- The source that the takes due on an egress stream lead to. -/
def Dev.takeTo (e : Nat) (ks : List Commit) (v : Dev) : Source := ((ks.foldl (fun c k => k.applyAt (.take e) c) v.cfg).route e).source

/-- The last instant at which a take may execute (R150): E + 4 P. -/
def Dev.takeLast (e : Nat) (k : Commit) (v : Dev) : Nat :=
  v.clk.instantOf (qOfU k.effective) + 4 * v.takePeriod (v.cfg.route e).source (v.takeTo e [k])

/-- The instant at which the takes at the front of an egress stream's queue execute (R37, R148), by the predictions as they stand: those
whose E lies at or before it execute together. -/
def Dev.takeT (e : Nat) (v : Dev) : Option Nat :=
  let old := (v.cfg.route e).source
  let queue := v.daond.commits.filter fun k => k.left.contains (.take e)
  let go (n : Nat) : Option Nat :=
    let ks := queue.take n
    let new := v.takeTo e ks
    let a := ks.foldl (fun a k => max a (v.clk.instantOf (qOfU k.effective))) v.clk.now
    let b := max (Machine.coreUp a) (match ks with | k :: _ => v.takeLast e k | [] => 0)
    match v.takeFirst e a b old new (v.headComing old) (v.headComing new) with
    | some t => if decide (t ≤ b) && ((queue.drop n).all fun k => decide (t < v.clk.instantOf (qOfU k.effective))) then some t else none
    | none => none
  (List.range queue.length).findSome? fun n => go (n + 1)

/-- Whether the first take of an egress stream's queue finds no window from now to E + 4 P (R150). -/
def Dev.takeLost (e : Nat) (v : Dev) : Bool :=
  match v.due (.take e) with
  | [] => false
  | k :: _ => !v.takeCan e v.clk.now (v.takeLast e k) (v.takeTo e [k])

/-- The instant at which a take that has found no window fails (R150). -/
def Dev.takeLostT (e : Nat) (v : Dev) : Option Nat := (v.daond.commits.find? fun k => k.left.contains (.take e)).map fun k => v.takeLast e k

end Sys2Proof.Machine
end

