-- ==== Sys2Proof/Machine/Route.lean ====
section
/-! DEFINITION. Takes at their window (R148, R150 to R153), ROUTE.STATUS (R156), and STREAM.STATUS of both directions (R143, R440). -/
namespace Sys2Proof.Machine
open Sys2Proof

/-! ### What an auto-sync route gives up (R155) -/

/-- The run-time side of what a route's auto-sync claims held: the head stops, its slot and capture channel are left. -/
def Dev.syncReleased (e : Nat) (r : Route) (old : Cfg) (v : Dev) : Dev :=
  let v := match r.syncHead with | some h => v.headOff h | none => v
  let v := v.layersLive old
  let v := match r.syncCap with | some c => (v.cutCaptures (· == c)).emptyRing c | none => v
  let gone := (List.range r.syncCh).map (32 * e + ·) |>.filter fun ch => (smFind ch old.audio).isSome && (smFind ch v.cfg.audio).isNone
  gone.foldl (fun v ch => v.switchCh ch 0 1 none (v.nowQ + v.presQ e)) v

/-! ### TAKE_WINDOW (R148, R152, R153) -/

/-- Source period against which an irregular frame is measured (R152), quarter ps. -/
def Dev.oldPeriod (x : Source) (v : Dev) : Nat :=
  match x with
  | .none => 0
  | .ingress s => v.ingressPeriod s
  | .head h => match (v.cfg.head h).timing with | some t => t.fieldQ | none => 0

/-- EV.EGRESS.TAKE of the takes that one boundary brings but the last: their source forwards no frame before the next take executes
(R153). -/
def Dev.takesPassed (e : Nat) (due : List Commit) (v : Dev) : Dev :=
  (due.dropLast.foldl (fun (q : Cfg × Dev) k =>
    let c := k.applyAt (.take e) q.1
    (c, if (c.route e).source = (q.1.route e).source then q.2 else q.2.takeRaise e (c.route e).take 0 1)) (v.cfg, v)).2

/-- A take executes at its window. delay_ps of a stream without a direct route reads 0: R156 gives a direct route's delay only
(DESIGN CHOICE, log entry 27). -/
def Dev.takeNow (e : Nat) (v : Dev) : Dev :=
  let due := v.due (.take e)
  if due.isEmpty then v
  else
    let oldR := v.cfg.route e
    let x := v.es e
    let v := if x.await_.isSome then v.takeEvent e 0 1 else v
    let v := v.takesPassed e due
    let v := v.probeEnd 1 e false none
    let leave := v.duskSr e
    let old := v.cfg
    let period := v.oldPeriod oldR.source
    let v := v.goLive (.take e)
    let v := v.syncReleased e oldR old
    let new := (v.cfg.route e).source
    let (v, qs) := v.ledgerEgress e due
    let wait : Option AwaitTake := if new = .none then none else
      some { ledgerSeq := qs.getLast?, oldStartT := if oldR.source = .none || x.await_.isSome then none else x.lastStartT, oldPeriod := period }
    let delay := match new with | .ingress s => v.routeDelayPs s e | _ => 0
    let v := v.modEs e fun y =>
      { y with forwarding := false, srFrom := false, inSr := false, srDusk := false, exitDue := false, clockMs := v.nowQ / msQ,
               takeTime := v.nowU, takeFrame := 0, delta := 0, outcome := 1, await_ := wait, delayPs := delay,
               switchWait := true, switchQ := none, tcMoveQ := none }
    let v := if new = .none then v.switchKnown e else v
    let v := if new = .none then v.takeEvent e 0 1 else v
    let v := if leave && !v.staysDusk new then v.onBond e Dev.duskExit else v
    let v := v.audioTake e
    if v.carries e then v else v.egressLive e

/-- TAKE_WINDOW (R148): the takes at the front of the queue execute at the instant that the predictions as they stand give. -/
def execTakeWindow (t : Nat) (egress : Fin 512) (s : State) : Result :=
  .next (match s.dev.takeT egress with
    | some d => s.due d t fun s => s.onDev fun v => if v.mediaOn then v.takeNow egress else v
    | none => s.arrive t)

/-! ### TAKE_NOT_EXECUTED (R150) -/

/-- What a commit has claimed for the auto-sync route of a take, as a route (R154). -/
def Commit.syncRoute (e : Nat) (k : Commit) : Option Route :=
  (k.ops.find? fun o => o.1 == .take e && o.2.code == opSync).map fun o =>
    let p := o.2.params
    { take := readTakeCfg p 0, syncHead := optU16 (fieldU p 8 2), syncSlot := optU16 (fieldU p 10 2), syncCap := optU16 (fieldU p 12 2), syncCh := fieldU p 14 2 }

/-- The units that hold only what an auto-sync take claimed. -/
def Route.syncUnits (e : Nat) (r : Route) : List UnitId :=
  (r.syncHead.toList.map UnitId.head) ++ (r.syncCap.toList.map UnitId.capture) ++ (List.range r.syncCh).map fun k => .audioChannel (32 * e + k)

/-- A take fails: the route stays, the commit's claims for the new route are given up, its other settings go on (R150). -/
def Dev.takeFails (e : Nat) (v : Dev) : Dev :=
  match v.due (.take e) with
  | [] => v
  | k :: _ =>
    let sync := k.syncRoute e
    let op := (k.ops.find? fun o => o.1 == .take e).map (·.2.params)
    let v := v.dropDue (.take e) [k]
    let v := match sync with
      | none => v
      | some r =>
        let rest := (v.daond.commits.map fun (c : Commit) => if c.order = k.order then c.less (r.syncUnits e) else c).filter fun (c : Commit) => !c.left.isEmpty
        let v := { v with daond := { v.daond with commits := rest } }
        let old := v.cfg
        let route := v.cfg.route e
        let cleared := Cfg.releaseSync e (v.cfg.route e).syncCh { v.cfg with routes := smPut e r v.cfg.routes }
        let v := { v with cfg := { cleared with routes := smSet e (if route.source = Source.none then none else some route) cleared.routes } }
        v.syncReleased e r old
    let v := v.modEs e fun y => { y with outcome := 2, takeTime := v.nowU }
    let v := v.raise (srcEgress e 0) (2 * 2 ^ 24 + ((op.map fun p => fieldU p 2 1).getD 0) * 2 ^ 16 + (op.map fun p => fieldU p 4 2).getD 0)
    v.ledger k.generation 1 1 e v.nowU 0

/-- TAKE_NOT_EXECUTED (R150): the first take fails at E + 4 P where it has found no window. -/
def execTakeNotExecuted (t : Nat) (egress : Fin 512) (s : State) : Result :=
  .next (match s.dev.takeLostT egress with
    | some d => s.due d t fun s => s.onDev fun v => if v.mediaOn && v.takeLost egress then v.takeFails egress else v
    | none => s.arrive t)

/-! ### ROUTE.STATUS (R156) -/

/-- route_state: 0 UNROUTED, 1 FORWARDING, 2 WAITING, 3 AUTO_SYNC. A source in self-refresh counts as forwarding once the stream forwards
from it (R131, R156). -/
def Dev.routeState (e : Nat) (v : Dev) : Nat :=
  let r := v.cfg.route e
  if r.syncHead.isSome then 3
  else match r.source with
    | .none => 0
    | .ingress s => if (v.is s).state == .locked || ((v.is s).state == .selfRefresh && (v.es e).forwarding) then 1 else 2
    | .head _ => 1

/-- The 36-byte record of a route (R156). -/
def routeRecord (e : Nat) (v : Dev) : List Byte :=
  let r := v.cfg.route e
  let x := v.es e
  toBE 2 e ++ toBE 1 r.take.sourceKind ++ toBE 1 (v.routeState e) ++ toBE 2 r.take.source ++ toBE 2 (r.syncHead.getD 0xFFFF) ++
  toBE 4 x.delayPs ++ timeBytes x.takeTime ++ toBE 4 x.takeFrame.toNat ++ toBEs 4 x.delta ++ toBE 1 x.outcome ++
  toBE 1 (b01 (v.queued (.take e))) ++ zeros 2

/-- ROUTE.STATUS. -/
def routeStatusRow : OpRow := { queryRow 0x0402 false false with lease := fun _ => false }
/-- The work of ROUTE.STATUS: it starts at no stream inside a bond (R17), and has no counters, so a clear acts on nothing. -/
def routeStatusEff : Effect := fun d s =>
  match s.dev.streamInside 1 (fieldU d.params 0 2) 0 with
  | some f => (s, .fail f)
  | none => query 512 36 false routeRecord (fun _ v => v) d s
/-- ROUTE_STATUS (R156). -/
def execRouteStatus (t : Nat) (d : Datagram) (s : State) : Result :=
  .next (serve routeStatusRow (.routeStatus t d) t d routeStatusEff s)

/-! ### STREAM.STATUS (R143, R440) -/

/-- The 128-byte record of an ingress stream (R143). -/
def ingressRecord (n : Nat) (v : Dev) : List Byte :=
  let x := v.is n
  toBE 2 n ++ toBE 1 x.state.code ++ toBE 1 x.mismatch ++ toBE 1 x.bondError ++ toBE 1 ((x.held.map (·.tsScale)).getD 0) ++ zeros 2 ++
  (match x.held with | some d => writeDesc d | none => zeros 32) ++ toBE 4 x.lastNo ++ timeBytes (uOfQ x.lastFrameQ) ++ timeBytes (uOfQ x.lastPresentQ) ++
  toBE 8 (if x.intervals.length = 16 then x.intervals.sum / 16 else 0) ++ toBEs 4 x.symOffset ++ toBE 4 x.damaged.toNat ++ toBE 4 x.headerErrs.toNat ++
  toBE 4 x.resyncs.toNat ++ toBE 4 x.unknown.toNat ++ toBE 4 x.malformed.toNat ++ toBE 4 x.orderErrs.toNat ++ toBE 4 x.incomplete.toNat ++
  toBE 4 x.crcMismatches.toNat ++ toBE 4 x.periodErrors.toNat ++ zeros 4 ++ toBE 8 x.rxPackets.toNat

/-- A clear of an ingress stream's counters (R143). -/
def ingressClear (n : Nat) (v : Dev) : Dev :=
  v.modIs n fun x => { x with damaged := 0, headerErrs := 0, resyncs := 0, unknown := 0, malformed := 0, orderErrs := 0, incomplete := 0,
                              crcMismatches := 0, periodErrors := 0, rxPackets := 0 }

/-- The state of an egress stream (R440): 0 OFF, 1 DOWN, 2 RUNNING, 3 SELF_REFRESH, 4 DUSK. -/
def Dev.egressState (e : Nat) (v : Dev) : Nat :=
  if (smFind e v.cfg.egress).isNone then 0
  else if (v.cfg.egressLanes e).any (fun n => !(v.lane n).txEnable) then 1
  else if (v.es e).hostDusk then 4
  else if (v.es e).inSr then 3
  else 2

/-- The 40-byte record of an egress stream (R440). -/
def egressRecord (e : Nat) (v : Dev) : List Byte :=
  let x := v.es e
  let c := smFind e v.cfg.egress
  let d := v.demand e v.cfg
  let k := v.capacity e v.cfg
  toBE 2 e ++ toBE 1 (v.egressState e) ++ toBE 1 ((c.map (·.bondSize)).getD 0) ++ toBE 4 ((c.map (·.presOffsetNs)).getD 0) ++ toBE 8 x.txPackets.toNat ++
  toBE 4 x.txFrames.toNat ++ toBE 8 (ceilDiv d.1 d.2) ++ toBE 8 (k.1 / k.2) ++ zeros 4

/-- A clear of an egress stream's counters (R440). -/
def egressClear (e : Nat) (v : Dev) : Dev := v.modEs e fun x => { x with txPackets := 0, txFrames := 0 }

/-- STREAM.STATUS: bit 1 of the flags asks for egress streams (R435); the range starts at no stream inside another bond (R17). -/
def streamStatusEff : Effect := fun d s =>
  let egress := bit (fieldU d.params 2 1) 1
  match s.dev.streamInside (b01 egress) (fieldU d.params 0 2) 0 with
  | some f => (s, .fail f)
  | none => if egress then query 512 40 true egressRecord egressClear d s else query 512 128 true ingressRecord ingressClear d s

/-- STREAM.STATUS of ingress streams: the row leaves bit 1 of the flags clear. -/
def streamStatusIngressRow : OpRow := queryRow 0x0302 true false
/-- STREAM_STATUS_INGRESS (R143). -/
def execStreamStatusIngress (t : Nat) (d : Datagram) (s : State) : Result :=
  let d := { d with params := d.params.set 2 (BitVec.ofNat 8 (fieldU d.params 2 1) &&& 0xFD#8) }
  .next (serve streamStatusIngressRow (.streamStatusIngress t d) t d streamStatusEff s)

/-- STREAM.STATUS of egress streams: the row sets bit 1 of the flags. -/
def streamStatusEgressRow : OpRow := queryRow 0x0302 true false
/-- STREAM_STATUS_EGRESS (R440). -/
def execStreamStatusEgress (t : Nat) (d : Datagram) (s : State) : Result :=
  let d := { d with params := d.params.set 2 (BitVec.ofNat 8 (fieldU d.params 2 1) ||| 2#8) }
  .next (serve streamStatusEgressRow (.streamStatusEgress t d) t d streamStatusEff s)

end Sys2Proof.Machine
end

