-- ==== Sys2Proof/Machine/SlotMath.lean ====
section
/-! DEFINITION. The quantities that admission counts, as exact fractions: pixel rates and loads (R204, R248), line-buffer granules
(R239, R240), budgets of the memory ports (R389, R390), the audio engine's allocations (R279, R295). -/
namespace Sys2Proof.Machine
open Sys2Proof

/-! ### Exact fractions -/

/-- A fraction of natural numbers; the denominator is not zero where it counts. -/
structure Frac where
  /-- Numerator. -/
  num : Nat := 0
  /-- Denominator. -/
  den : Nat := 1
  deriving DecidableEq, Repr

/-- A fraction in lowest terms. -/
def Frac.of (n d : Nat) : Frac := let g := max 1 (Nat.gcd n d); { num := n / g, den := max 1 (d / g) }
/-- Sum. -/
def Frac.add (a b : Frac) : Frac := Frac.of (a.num * b.den + b.num * a.den) (a.den * b.den)
/-- Product. -/
def Frac.mul (a b : Frac) : Frac := Frac.of (a.num * b.num) (a.den * b.den)
/-- Order. -/
def Frac.le (a b : Frac) : Bool := decide (a.num * b.den ≤ b.num * a.den)
/-- The larger of two. -/
def Frac.max (a b : Frac) : Frac := if a.le b then b else a
/-- The smallest whole number not below. -/
def Frac.ceil (a : Frac) : Nat := ceilDiv a.num a.den
/-- The sum of some fractions. -/
def fracSum (xs : List Frac) : Frac := xs.foldl Frac.add {}
/-- The largest of some fractions. -/
def fracMax (xs : List Frac) : Frac := xs.foldl Frac.max {}

/-! ### What a layer reads -/

/-- The surface behind a layer, as admission counts it (R239, R389): dimensions, format, storage, pitch, place. -/
structure SourceInfo where
  /-- Colour format (codes of R160). -/
  fmt : Nat := 0
  /-- Bit depth. -/
  bd : Nat := 8
  /-- W_surf. -/
  width : Nat := 0
  /-- Height in lines. -/
  height : Nat := 0
  /-- 1 for MTF. -/
  storage : Nat := 0
  /-- max_row_sectors of a sealed MTF surface. -/
  maxRow : Option Nat := none
  /-- pitch_bytes as configured. -/
  pitch : Nat := 0
  /-- Address. -/
  base : Nat := 0
  /-- The ring carries fields. -/
  fields : Bool := false
  deriving DecidableEq, Repr

/-- The surface that a capture ring's slot holds (R173): crop intersected with the expected frame. -/
def ringInfo (c : CapCfg) (x : Desc) : SourceInfo :=
  let r := captureRect c x 0
  { fmt := x.colourFormat, bd := x.bitDepth, width := r.2.1, height := if x.scan = 0 then r.2.2.2 else ceilDiv r.2.2.2 2, storage := c.storage,
    pitch := c.pitchBytes, base := c.ringBase, fields := x.scan != 0 }

/-- The ring of a channel under a configuration. -/
def Cfg.ringSource (ch : Nat) (c : Cfg) : Option SourceInfo :=
  match smFind ch c.caps, smFind ch c.ingress with
  | some k, some i => some (ringInfo k i.expected)
  | _, _ => none

/-- The surface behind a layer; none for a synthetic source and for one that does not exist. -/
def Cfg.layerSource (f : LayerCfg) (c : Cfg) : Option SourceInfo :=
  if f.sourceKind = 0 then
    (smFind f.source c.statics).map fun x =>
      { fmt := x.colourFormat, bd := x.bitDepth, width := x.width, height := x.height, storage := x.storage,
        maxRow := if x.storage = 1 then some x.maxRow else none, pitch := x.pitch, base := x.base }
  else if f.sourceKind = 1 then c.ringSource f.source
  else none

/-- Whether a layer shows fields on their own (R193): BOB on a ring of fields. -/
def Cfg.bob (f : LayerCfg) (c : Cfg) : Bool :=
  f.sourceKind == 1 && f.fieldMode == 1 && (match c.layerSource f with | some x => x.fields | none => false)

/-- sh(L): source lines that the scaler reads (R204). -/
def Cfg.sourceLines (f : LayerCfg) (c : Cfg) : Nat := if c.bob f && f.scaler != 255 then f.srcHeight / 2 else f.srcHeight

/-- W_buf (R239). -/
def Cfg.wBufOf (f : LayerCfg) (c : Cfg) : Nat :=
  let w : Int := match c.layerSource f with | some x => (x.width : Int) | none => (f.srcWidth : Int)
  (max 1 (min (f.srcWidth : Int) (w - (f.srcX : Int)))).toNat

/-! ### Granules (R240) -/

/-- Granules of a number of bytes. -/
def granules (bytes : Nat) : Nat := ceilDiv bytes 16384
/-- Granules of a layer's scaler. -/
def Cfg.scalerGranules (n : Nat) (f : LayerCfg) (c : Cfg) : Nat :=
  if f.scaler = 255 || (c.slot n).scalerSet.vKernel = 0 then 0 else granules (8 * c.wBufOf f * 8)
/-- Granules of a layer's chroma upsampler. -/
def Cfg.chromaGranules (f : LayerCfg) (c : Cfg) : Nat :=
  match c.layerSource f with
  | some x => if x.fmt = 3 then granules (2 * c.wBufOf f * 8) else 0
  | none => 0
/-- Granules of a head's chroma downsampler. -/
def Cfg.headGranules (h : Nat) (c : Cfg) : Nat :=
  let x := c.head h
  match x.timing with
  | some t => if x.colour.outFormat = 3 && x.colour.siting != 0 then granules (t.hActive * 8) else 0
  | none => 0

/-! ### Rates and loads (R204, R248) -/

/-- f_pixel of a raster. -/
def TimingCfg.fPixel (t : TimingCfg) : Frac := Frac.of (t.dcoFreqHz * t.pclkNum) t.pclkDen
/-- f_pixel of a head; 0 while it is OFF. -/
def Cfg.fPixel (h : Nat) (c : Cfg) : Frac := match (c.head h).timing with | some t => t.fPixel | none => {}
/-- load(L) (R204). -/
def Cfg.loadOf (f : LayerCfg) (c : Cfg) : Frac :=
  ((c.fPixel f.head).mul (Frac.max (Frac.of 1 1) (Frac.of f.srcWidth f.dstWidth))).mul (Frac.max (Frac.of 1 1) (Frac.of (c.sourceLines f) f.dstHeight))
/-- The layer of a slot while it is enabled, shown or hidden. -/
def Cfg.layerOn (n : Nat) (c : Cfg) : Option LayerCfg := match (c.slot n).layer with | some f => if f.enable = 0 then none else some f | none => none
/-- load of a slot; 0 while it is free. -/
def Cfg.slotLoad (n : Nat) (c : Cfg) : Frac := match c.layerOn n with | some f => c.loadOf f | none => {}

/-! ### Memory budgets (R389, R390) -/

/-- A master's stream of accesses: master, region (1 or 2), demand D in bytes/s, q, whether it is packed. -/
structure Stream where
  /-- The unit whose demand it is (R44): a layer slot's number, or 1,024 and a capture channel's. -/
  unit : Nat
  /-- Master number (R375). -/
  master : Nat
  /-- Region 1 or 2. -/
  region : Nat
  /-- D. -/
  d : Frac
  /-- q. -/
  q : Nat
  /-- Packed. -/
  packed : Bool
  deriving DecidableEq, Repr

/-- Region of an address. -/
def regionOf (a : Nat) : Nat := if a < region2 then 1 else 2
/-- Whether a surface's pitch is its minimum, or it is MTF. -/
def SourceInfo.tight (x : SourceInfo) : Bool := x.storage == 1 || x.pitch == 0 || x.pitch == minPitch x.fmt x.bd x.width

/-- The stream of a capture channel (R389). -/
def Cfg.captureStream (ch : Nat) (c : Cfg) : Option Stream :=
  match smFind ch c.caps, smFind ch c.ingress with
  | some k, some i =>
    if k.enable != 1 then none
    else
      let x := ringInfo k i.expected
      let size := surfaceSize k.storage x.fmt x.bd x.width x.height (if k.pitchBytes = 0 then minPitch x.fmt x.bd x.width else k.pitchBytes)
      let q := Frac.of size (max 1 x.height)
      some { unit := 1024 + ch, master := ch / 32, region := regionOf k.ringBase, q := q.ceil, packed := x.tight
             d := q.mul (Frac.of (i.expected.vTotal * i.expected.rateNum) (max 1 i.expected.rateDen)) }
  | _, _ => none

/-- bpp of R389 times 2. -/
def bppTwice (fmt bd : Nat) : Nat := container bd * (if fmt = 2 then 4 else if fmt = 3 then 3 else 2 * components fmt)

/-- The stream of a layer slot (R389). -/
def Cfg.layerStream (n : Nat) (c : Cfg) : Option Stream :=
  match c.layerOn n with
  | none => none
  | some f =>
    match c.layerSource f, (c.head f.head).timing with
    | some x, some t =>
      let w := if (c.slot n).wBuf = 0 then c.wBufOf f else (c.slot n).wBuf
      let nt := (f.srcX + w - 1) / 32 - f.srcX / 32 + 1
      let raw := rawSectors x.fmt x.bd
      let sect := match x.maxRow with | some m => min m (nt * raw) | none => nt * raw
      let q := if x.storage = 0 then 64 * (ceilDiv (w * bppTwice x.fmt x.bd) 128 + 1) else 16 * (sect + ceilDiv nt 64 + 1)
      let units := if f.sourceKind = 1 && f.syncMode = 2 then 2 else 1
      let lines := t.fPixel.mul (Frac.of 1 t.hTotal)
      some { unit := n, master := 16 + n / 32, region := regionOf x.base, q := q, packed := f.srcX == 0 && w == x.width && x.tight
             d := ((Frac.of (q * units) 1).mul lines).mul (Frac.of (c.sourceLines f) f.dstHeight) }
    | _, _ => none

/-- The share of a stream on each port of its region (R390). -/
def Stream.share (s : Stream) : Frac :=
  let n := if s.region = 1 then 16 else 14
  if s.packed then s.d.mul (Frac.of 1 n) else s.d.mul (Frac.of (min s.q (4096 * ceilDiv (s.q / 4096 + 2) n)) (max 1 s.q))

/-- Every stream of accesses under a configuration. -/
def Cfg.streams (c : Cfg) : List Stream := c.caps.filterMap (fun k => c.captureStream k.1) ++ c.slots.filterMap (fun k => c.layerStream k.1)

/-- A CAP or CMP master's budget at a port over some configurations (R390): each layer and capture channel counts with the largest of its
shares (R44, R387). -/
def masterBudget (sss : List (List Stream)) (m p : Nat) : Nat :=
  let mine := sss.flatten.filter fun s => s.master = m && (s.region = 1 || decide (p < 14)) && s.d.num != 0
  let shares := (mine.map (·.unit)).eraseDups.map fun u => fracMax ((mine.filter (·.unit == u)).map Stream.share)
  if mine.isEmpty then 0 else max 4 (Frac.ceil ((fracSum shares).mul (Frac.of 16 1000000000)))

/-- The budgets of the 54 masters at a port that some configurations call for, fixed budgets included (R387, R388, R391). -/
def budgetsAt (sss : List (List Stream)) (p : Nat) : List Nat :=
  (List.range 54).map fun m => if m < 48 then masterBudget sss m p else fixedBudget m p

/-! ### Audio (R279, R295) -/

/-- The extracted channels that are active under a configuration (R279). -/
def Cfg.extractedOn (c : Cfg) : List Nat := (c.audio.filterMap fun a => c.resolveCh a.1).eraseDups
/-- Bytes that a channel holds in the delay store (R295). -/
def Cfg.delayBytes (ch : Nat) (a : AudioChCfg) (c : Cfg) : Nat :=
  if a.sourceKind = 2 then 0
  else ceilDiv ((ceilDiv (a.delayMaxMs * rateHz ((c.audioStream (ch / 32)).rate (ch % 32 / 8))) 1000 + 1024) * 4) 4096 * 4096

end Sys2Proof.Machine
end

