-- ==== Sys2Proof/Machine/OpFields.lean ====
section
/-! DEFINITION. The parameters of the staged operations on their own (R6, R7, R41, R424, check 1 of R43): their lengths, and the first
field that breaks the rule of its layout. A release is judged by the rules of all its fields, and a field that it does not use may also be zero
(log entry 63). -/
namespace Sys2Proof.Machine
open Sys2Proof

/-- The first offset whose condition fails. -/
def firstFail (cs : List (Nat × Bool)) : Option Nat := (cs.find? fun c => !c.2).map (·.1)

/-- Length of an operation's parameters; none for an opcode outside R41 and for a query (R424). -/
def stagedLen (code : Nat) (p : List Byte) : Option (List Nat) :=
  match code with
  | 0x0301 => some (if p.length < 3 then [52, 12] else if fieldU p 2 1 = 0 then [52] else if fieldU p 2 1 = 1 then [12] else [52, 12])
  | 0x0401 => some [8] | 0x0501 => some [32] | 0x0601 => some [64] | 0x0602 => some [8] | 0x0603 => some [8] | 0x0604 => some [8]
  | 0x0701 => some [64] | 0x0702 => some [4108] | 0x0703 => some [64] | 0x0704 => some [32] | 0x0705 => some [16] | 0x0706 => some [1032]
  | 0x0801 => some [80] | 0x0802 => some [84] | 0x0803 => some [8] | 0x0901 => some [24] | 0x0902 => some [16] | 0x0903 => some [16]
  | _ => none

/-- Whether a staged record is a read form: op not 0 of LAYER.LUT, LAYER.SCALER or LAYER.COEFF (R209, R229, R232). -/
def stagedRead (code : Nat) (p : List Byte) : Bool :=
  ((code == 0x0702 || code == 0x0706) && fieldU p 3 1 == 1) || (code == 0x0705 && (fieldU p 2 1 == 1 || fieldU p 2 1 == 2))

/-- The first field of an expected descriptor that breaks R99 or R100, beyond the ranges of its fields (R128); `o` is its place. -/
def descBad (o : Nat) (d : Desc) : Option Nat :=
  firstFail [
    (o + 4, !subsampled d.colourFormat || d.width % 2 == 0),
    (o + 6, ((d.scan == 0 && d.colourFormat != 3) || d.height % 2 == 0) && (d.scan == 0 || d.colourFormat != 3 || d.height % 4 == 0)),
    (o + 8, d.hTotal == 0 || decide (d.width ≤ d.hTotal)),
    (o + 10, d.vTotal != 0 && decide (d.height ≤ d.vTotal)),
    (o + 12, d.rateNum != 0 && decide (d.rateDen ≤ d.rateNum) && decide (d.rateNum ≤ 1000 * d.rateDen)),
    (o + 16, d.rateDen != 0),
    (o + 23, !(d.colourFormat == 2 && d.siting == 2))]

/-- Fields of STREAM.CONFIG (R17, R127, R128, R439). -/
def streamBad (p : List Byte) : Option Nat :=
  let n := fieldU p 3 1
  if fieldU p 2 1 = 0 then
    if n = 0 then firstBadFree ingressCfgFields p
    else ((firstBad ingressCfgFields p).orElse fun _ => descBad 8 (readDesc p 8)).orElse fun _ => firstFail [(0, fieldU p 0 2 % n == 0)]
  else if fieldU p 2 1 = 1 then
    if n = 0 then firstBadFree egressCfgFields p
    else (firstBad egressCfgFields p).orElse fun _ => firstFail [(0, fieldU p 0 2 % n == 0)]
  else some 2

/-- Fields of ROUTE.TAKE (R144). -/
def takeBad (p : List Byte) : Option Nat :=
  (firstBad takeCfgFields p).orElse fun _ =>
    firstFail [(4, if fieldU p 2 1 = 0 then fieldU p 4 2 == 0 else fieldU p 2 1 = 1 || decide (fieldU p 4 2 ≤ 255)),
               (7, fieldU p 6 1 == 0 || (decide (1 ≤ fieldU p 7 1) && decide (fieldU p 7 1 ≤ 128)))]

/-- Fields of CAP.CONFIG (R172). -/
def capBad (p : List Byte) : Option Nat :=
  if fieldU p 4 1 = 0 then firstBad capCfgFields p
  else (firstBad capCfgFields p).orElse fun _ =>
    firstFail [(16, fieldU p 16 8 % 4096 == 0), (24, if fieldU p 3 1 = 1 then fieldU p 24 4 == 0 else fieldU p 24 4 % 64 == 0),
               (28, fieldU p 28 4 % 4096 == 0)]

/-- Fields of SURF.CREATE (R160). -/
def surfBad (p : List Byte) : Option Nat :=
  (firstBad surfCfgFields p).orElse fun _ =>
    let fmt := fieldU p 5 1
    firstFail [(8, !subsampled fmt || fieldU p 8 2 % 2 == 0), (10, fmt != 3 || fieldU p 10 2 % 2 == 0),
               (12, if fieldU p 4 1 = 1 then fieldU p 12 4 == 0
                    else fieldU p 12 4 == 0 || (fieldU p 12 4 % 64 == 0 && decide (lineBytes fmt (fieldU p 6 1) (fieldU p 8 2) ≤ fieldU p 12 4))),
               (16, fieldU p 16 8 % 4096 == 0)]

/-- Fields of LAYER.CONFIG with its frame-sync block (R183, R198); CHASE with WEAVE and BLEND with BOB are refused
(R194). DEDUCED: of any ring, log entry 32. -/
def layerBad (p : List Byte) : Option Nat :=
  if fieldU p 4 1 = 0 then firstBadFree layerCfgFields p
  else (firstBad layerCfgFields p).orElse fun _ =>
    let f := readLayerCfg p 0
    let ring := f.sourceKind == 1
    firstFail [(49, ring || f.syncMode == 0), (50, !ring || decide (f.fieldMode ≤ 1)),
      (50, !ring || !((f.syncMode == 3 && f.fieldMode == 0) || (f.syncMode == 2 && f.fieldMode == 1))),
      (51, !(ring && f.syncMode == 1) || (decide (1 ≤ f.cadenceLen) && decide (f.cadenceLen ≤ 8))),
      (52, if f.sourceKind = 0 then decide (8192 ≤ f.source) && decide (f.source ≤ 16383) else f.sourceKind == 2 || decide (f.source ≤ 511)),
      (54, !(ring && f.syncMode == 3) || decide (f.chaseLines ≤ 4095)),
      (56, !(ring && f.syncMode == 1) || (List.range 8).all fun i => if i < f.cadenceLen then f.pattern i != 0 else f.pattern i == 0),
      (60, !(ring && f.syncMode == 2) || decide (f.blendDelayNs ≤ 100000000))]

/-- Fields of LAYER.LUT's load form (R209). -/
def lutBad (p : List Byte) : Option Nat :=
  (firstBad [⟨0, 2, .unsigned, [(0, 1023)]⟩, ⟨2, 1, .unsigned, [(0, 2)]⟩, ⟨3, 1, .unsigned, [(0, 0)]⟩, ⟨4, 1, .unsigned, [(0, 0)]⟩, ⟨5, 3, .reserved, []⟩] p).orElse fun _ =>
    ((List.range 1025).find? fun i => decide (1048575 < fieldU p (8 + 4 * i) 4)).map fun i => 8 + 4 * i

/-- Fields of LAYER.MATRIX (R211, R212). -/
def matrixBad (p : List Byte) : Option Nat :=
  firstBad ([⟨0, 2, .unsigned, [(0, 1023)]⟩, ⟨2, 2, .reserved, []⟩] ++ (List.range 9).map (fun i => ⟨4 + 4 * i, 4, .signed, [(-524288, 524287)]⟩) ++
    (List.range 6).map (fun i => ⟨40 + 4 * i, 4, .signed, [(-1048576, 1048575)]⟩)) p

/-- Whether a PRBS23 seed is valid (R215, R301). -/
def seedOk (x : Nat) : Bool := x != 0 && decide (x < 2 ^ 23)

/-- Fields of LAYER.SYNTH that its kind uses (R215). -/
def synthBad (p : List Byte) : Option Nat :=
  (firstBad [⟨0, 2, .unsigned, [(0, 1023)]⟩, ⟨2, 1, .unsigned, [(0, 5)]⟩] p).orElse fun _ =>
    let k := fieldU p 2 1
    let cells := k == 3 || k == 5
    let two := k != 0 && k != 4
    firstFail [(3, k != 4 || decide (fieldU p 3 1 ≤ 1)), (4, !cells || (decide (1 ≤ fieldU p 4 2) && decide (fieldU p 4 2 ≤ 4096))),
      (6, !cells || (decide (1 ≤ fieldU p 6 2) && decide (fieldU p 6 2 ≤ 4096))), (8, k == 4 || decide (fieldU p 8 8 < 2 ^ 60)),
      (16, !two || decide (fieldU p 16 8 < 2 ^ 60)), (28, k != 4 || seedOk (fieldU p 28 4))]

/-- Fields of LAYER.SCALER's set form (R229). -/
def scalerBad (p : List Byte) : Option Nat := if fieldU p 2 1 != 0 then some 2 else firstBad scalerCfgFields p

/-- Fields of LAYER.COEFF's load form (R232). -/
def coeffBad (p : List Byte) : Option Nat :=
  (firstBad [⟨0, 2, .unsigned, [(0, 1023)]⟩, ⟨2, 1, .unsigned, [(0, 1)]⟩, ⟨3, 1, .unsigned, [(0, 0)]⟩, ⟨4, 1, .unsigned, [(0, 0)]⟩, ⟨5, 3, .reserved, []⟩] p).orElse fun _ =>
    (((List.range 512).find? fun i => decide (fieldS p (8 + 2 * i) 2 < -2048) || decide (2047 < fieldS p (8 + 2 * i) 2)).map fun i => 8 + 2 * i).orElse fun _ =>
      ((List.range 64).find? fun f => ((List.range 8).map fun t => fieldS p (8 + 16 * f + 2 * t) 2).sum != 1024).map fun f => 8 + 16 * f

/-- What R249 asks of a raster beyond its fields' ranges; FOLLOW's source is judged with the other heads. -/
def rasterBad (t : TimingCfg) : Option Nat :=
  let fp := t.vFp0
  let blank := (fp + t.vSync + t.vBp) * t.hTotal * t.pclkDen
  let f := t.dcoFreqHz * t.pclkNum
  let rateOk (v : Nat) : Bool := decide (t.pclkDen * t.hTotal * v ≤ f) && decide (f ≤ 1000 * (t.pclkDen * t.hTotal * v))
  firstFail [
    (5, t.mode != 1 || !t.interlaced),
    (6, t.tilePair == 0 || t.head % 2 == 0),
    (8, decide (t.hTotal ≤ 65535) && decide (t.hActive + 16 ≤ t.hTotal)),
    (16, !t.interlaced || t.vActive % 2 == 0),
    (18, t.mode != 2 || (decide (t.vFpMin ≤ t.vFp) && decide (t.vFp ≤ t.vFpMax))),
    (20, decide (f * 20 ≤ blank * 1000000) && decide (8 * t.hTotal * t.pclkDen ≤ blank)),
    (22, decide (t.vTotal ≤ 65535)),
    (24, t.mode == 0 || decide (t.vFpMin ≤ t.vFpMax)),
    (26, t.mode != 1 || decide (t.pclkDen * t.hTotal * t.vTotalAt t.vFpMax ≤ f)),
    (28, t.interlaced || t.interlaceExtra == 0),
    (36, rateOk t.vTotal && decide (t.rate.1 < 2 ^ 32) && decide (t.rate.2 < 2 ^ 32))]

/-- Fields of HEAD.TIMING (R247, R249). -/
def timingBad (p : List Byte) : Option Nat :=
  if fieldU p 2 1 = 0 then (firstBadFree timingCfgFields p).orElse fun _ => firstFail [(44, fieldU p 3 1 != 2 || decide (fieldU p 44 1 ≤ 1))]
  else (firstBad timingCfgFields p).orElse fun _ =>
    let t := readTimingCfg p 0
    (rasterBad t).orElse fun _ =>
      firstFail [(44, t.mode != 2 || decide (t.followKind ≤ 1)), (46, t.mode != 2 || decide (t.followSource ≤ if t.followKind = 0 then 511 else 255)),
                 (48, t.mode != 2 || (decide (-1000000000 ≤ t.followOffsetNs) && decide (t.followOffsetNs ≤ 1000000000)))]

/-- Fields of HEAD.COLOUR (R222); chroma_siting 2 belongs to 4:2:0 (R99). -/
def colourBad (p : List Byte) : Option Nat :=
  (firstBad colourCfgFields p).orElse fun _ => firstFail [(7, !(fieldU p 2 1 == 2 && fieldU p 7 1 == 2))]

/-- Fields of HEAD.SR (R269). -/
def srBad (p : List Byte) : Option Nat := (firstBad srCfgFields p).orElse fun _ => firstFail [(3, fieldU p 2 1 == 1 || fieldU p 3 1 == 0)]

/-- Fields of AUDIO.CHANNEL that its kind and mode use (R284). -/
def audioChBad (p : List Byte) : Option Nat :=
  let k := fieldU p 2 1
  let fade := fieldU p 7 1 == 0 || (decide (1 ≤ fieldU p 10 1) && decide (fieldU p 10 1 ≤ 128))
  if k = 0 then (firstBadFree audioChCfgFields p).orElse fun _ => firstFail [(10, fade)]
  else (firstBad audioChCfgFields p).orElse fun _ =>
    firstFail [(4, decide (fieldU p 4 2 ≤ if k = 1 then 16383 else if k = 2 then 63 else 31)),
      (10, fade),
      (16, fieldU p 6 1 == 0 || decide (fieldU p 16 4 ≤ 4000000000))]

/-- Fields of AUDIO.TONE that its kind uses (R301). -/
def toneBad (p : List Byte) : Option Nat :=
  (firstBad [⟨0, 1, .unsigned, [(0, 63)]⟩, ⟨1, 1, .unsigned, [(0, 2)]⟩] p).orElse fun _ =>
    let k := fieldU p 1 1
    firstFail [(2, k != 1 || decide (fieldU p 2 2 ≤ 14000)), (4, k != 1 || (decide (1000 ≤ fieldU p 4 4) && decide (fieldU p 4 4 ≤ 90000000))),
      (8, k != 1 || decide (fieldU p 8 4 ≤ 359999999)), (12, k != 2 || seedOk (fieldU p 12 4))]

/-- The first field of a staged operation that breaks its rule. -/
def stagedBad (o : StagedOp) : Option Nat :=
  let p := o.params
  match o.code with
  | 0x0301 => streamBad p
  | 0x0401 => takeBad p
  | 0x0501 => capBad p
  | 0x0601 => surfBad p
  | 0x0602 | 0x0603 | 0x0604 => firstBad [⟨0, 2, .unsigned, [(8192, 16383)]⟩, ⟨2, 6, .reserved, []⟩] (p.take 8)
  | 0x0701 => layerBad p
  | 0x0702 => lutBad p
  | 0x0703 => matrixBad p
  | 0x0704 => synthBad p
  | 0x0705 => scalerBad p
  | 0x0706 => coeffBad p
  | 0x0801 => timingBad p
  | 0x0802 => colourBad p
  | 0x0803 => srBad p
  | 0x0901 => audioChBad p
  | 0x0902 => firstBad audioStreamCfgFields p
  | 0x0903 => toneBad p
  | _ => none

end Sys2Proof.Machine
end

