-- ==== Sys2Proof/Machine/Checks.lean ====
section
/-! DEFINITION. The checks of admission on the operations of one commit: parameters, names and conflicts (checks 1 and 2 of R43). -/
namespace Sys2Proof.Machine
open Sys2Proof

/-- What the checks of one commit see (R44, R45). -/
structure AdmCtx where
  /-- The configurations that count besides the one this commit changes: what commits under way replace, the live one and what
  earlier commits lead to, and what prepared transactions lead to. -/
  held : List Cfg := []
  /-- The configuration that this commit changes. -/
  old : Cfg := {}
  /-- The configuration that it produces. -/
  new : Cfg := {}
  /-- The device. -/
  dev : Dev := {}

/-- Every configuration that counts: live, armed, before and after (R44). -/
def AdmCtx.all (x : AdmCtx) : List Cfg := x.held ++ [x.old, x.new]
/-- Every configuration that counts but the one the commit replaces: what it frees is judged by its result alone (R423). -/
def AdmCtx.kept (x : AdmCtx) : List Cfg := x.held ++ [x.new]

/-- A failure of check 1 that names an object. -/
def badAt (off kind index : Nat) : Fail := { status := .badParam, check := 1, kind := kind, index := index, field := off }
/-- A conflict with an object (check 2), through a field. -/
def busyAt (off kind index : Nat) : Fail := { status := .resourceBusy, check := 2, kind := kind, index := index, field := off }

/-- The first failure of some conditions. -/
def firstFailure (cs : List (Bool × Fail)) : Option Fail := (cs.find? fun c => !c.1).map (·.2)

/-- The first of some values. -/
def leastOf (xs : List Nat) : Option Nat := xs.min?

/-! ### What an operation writes -/

/-- The thing that an operation writes, as a kind and a number (R427). -/
def StagedOp.key (o : StagedOp) : Nat × Nat :=
  let n := fieldU o.params 0 2
  match o.code % 0x10000 / 0x100 with
  | 0x03 => (if fieldU o.params 2 1 = 0 then 2 else 3, n)
  | 0x04 => (100, n)
  | 0x05 => (4, n)
  | 0x06 => (5, n)
  | 0x07 => (6, n)
  | 0x08 => (7, n)
  | _ => if o.code = 0x0901 then (18, n) else if o.code = 0x0902 then (101, n) else (102, fieldU o.params 0 1)

/-- The prepared transaction that writes what an operation writes (R427). -/
def Dev.preparedOn (o : StagedOp) (v : Dev) : Option Nat :=
  (v.daond.prepared.find? fun q => q.commit.ops.any fun x => x.2.key == o.key).map (·.groupId)

/-! ### Address ranges (R161, R172, R373) -/

/-- The ranges that surfaces and rings occupy: object kind, number, first address, length. -/
def Cfg.ranges (c : Cfg) : List (Nat × Nat × Nat × Nat) :=
  (c.statics.map fun s => (5, s.1, s.2.base, s.2.size)) ++
  c.caps.filterMap fun k => (smFind k.1 c.ingress).map fun i => (4, k.1, k.2.ringBase, k.2.ringLen * capSlot k.2 i.expected)

/-- What R161 and R373 find wrong with a range: the boundary it crosses, or the object it overlaps. -/
def AdmCtx.rangeBad (x : AdmCtx) (off kind n base len : Nat) : Option Fail :=
  let last := base + max 1 len - 1
  if base < region2 && region2 ≤ last then some (badAt off 19 region2)
  else if region3 ≤ last then some (badAt off 19 region3)
  else
    let hit := (x.kept.flatMap Cfg.ranges).find? fun r => (r.1 != kind || r.2.1 != n) && decide (r.2.2.1 < base + len) && decide (base < r.2.2.1 + r.2.2.2)
    hit.map fun r => badAt off r.1 r.2.1

/-! ### Rings and pins (R185) -/

/-- The most surfaces that a layer pins of a ring under a configuration. -/
def Cfg.pinsOf (n ring : Nat) (c : Cfg) : Nat :=
  match c.layerOn n with
  | some f =>
    if f.sourceKind = 1 && f.source = ring then
      let weave := f.fieldMode = 0 && (match c.ringSource ring with | some r => r.fields | none => false)
      (if f.syncMode ≥ 2 then 2 else 1) * (if weave then 2 else 1)
    else 0
  | none => 0

/-- The slots that some configurations list. -/
def slotNumbers (cs : List Cfg) : List Nat := (cs.flatMap fun c => c.slots.map (·.1)).eraseDups

/-- Whether a ring holds a free slot for every frame (R185). -/
def AdmCtx.ringOk (ring : Nat) (x : AdmCtx) : Bool :=
  match smFind ring x.new.caps with
  | some k => decide (2 + ((slotNumbers x.all).map fun n => ((x.all.map fun c => c.pinsOf n ring).max?).getD 0).sum ≤ k.ringLen)
  | none => true

/-- The lowest layer that names a source under some configurations. -/
def readerIn (kind n : Nat) (cs : List Cfg) : Option Nat :=
  leastOf ((slotNumbers cs).filter fun s => cs.any fun c => match c.layerOn s with | some f => f.sourceKind == kind && f.source == n | none => false)
/-- The lowest layer whose live or armed configuration names a source; for what takes a source away, one that the transaction leaves on it
too (R174, R181). -/
def AdmCtx.reader (kind n : Nat) (x : AdmCtx) : Option Nat := readerIn kind n x.all

/-! ### Check 1 (R43) -/

/-- Check 1 on a stream that an operation names at `off`: it lies inside no other bond (R17). -/
def AdmCtx.streamInside (dir n off : Nat) (x : AdmCtx) : Option Fail :=
  (insideOf (x.kept.flatMap (if dir = 0 then Cfg.inBonds else Cfg.outBonds)) n).map fun k => badAt off (2 + dir) k

/-- Check 1 on ROUTE.TAKE (R144). -/
def takeNames (pre : Cfg) (p : List Byte) : Option Fail :=
  let e := fieldU p 0 2
  let n := fieldU p 4 2
  firstFailure [((smFind e pre.egress).isSome, badAt 0 3 e), (fieldU p 2 1 != 1 || (smFind n pre.ingress).isSome, badAt 4 2 n),
    (fieldU p 2 1 != 2 || (pre.head n).timing.isSome, badAt 4 7 n)]

/-- Check 1 on CAP.CONFIG (R172, R173, R185). -/
def AdmCtx.capNames (x : AdmCtx) (pre : Cfg) (p : List Byte) : Option Fail :=
  let c := fieldU p 0 2
  match smFind c pre.ingress with
    | none => some (badAt 0 2 c)
    | some i =>
      let k := readCapCfg p 0
      let r := ringInfo k i.expected
      if k.ringLen = 0 then none
      else (firstFailure [(r.width != 0 && r.height != 0, badAt 8 4 c),
        (k.storage == 1 || k.pitchBytes == 0 || decide (lineBytes r.fmt r.bd r.width ≤ k.pitchBytes), badAt 24 4 c),
        (k.slotBytes == 0 || decide (capSlotBytes k i.expected ≤ k.slotBytes), badAt 28 4 c)]).orElse fun _ =>
          (x.rangeBad 16 4 c k.ringBase (k.ringLen * capSlot k i.expected)).orElse fun _ => firstFailure [(x.ringOk c, badAt 4 4 c)]

/-- Check 1 on SURF.SEAL, SURF.UNSEAL and SURF.DELETE: the state at B (R182, R462). -/
def surfState (pre : Cfg) (code : Nat) (p : List Byte) : Option Fail :=
  let n := fieldU p 0 2
  let st := (smFind n pre.statics).map (·.state)
  let ok := if code = 0x0602 then st == some .open_ else if code = 0x0603 then st == some .sealed
    else st == some .open_ || st == some .sealed || st == some .incomplete
  if ok then none else some (badAt 0 5 n)

/-- The tile pair that a head belongs to: its even head and h_active. -/
def Cfg.pairOf (h : Nat) (c : Cfg) : Option (Nat × Nat) :=
  let k := h / 2 * 2
  match (c.head k).timing with | some t => if t.tilePair = 1 then some (k, t.hActive) else none | none => none

/-- Whether a layer's destination crosses the seam of its pair (R199, R267). -/
def Cfg.crosses (f : LayerCfg) (c : Cfg) : Bool :=
  match c.pairOf f.head with
  | some (_, w) => decide (f.dstX < (w : Int)) && decide ((w : Int) < f.dstX + f.dstWidth)
  | none => false

/-- What R230 asks of a layer with a scaler; the offsets of the fields at fault are those of the operation that asks. -/
def Cfg.scalerFits (n : Nat) (hOff vOff yOff : Nat) (c : Cfg) : Option Fail :=
  match c.layerOn n with
  | some f =>
    if f.scaler = 255 then none
    else
      let k := (c.slot n).scalerSet
      let bob := c.bob f
      firstFailure [(k.hKernel != 0 || (f.srcWidth == f.dstWidth && k.hOffset == 0), badAt hOff 6 n),
        (k.vKernel != 0 || (c.sourceLines f == f.dstHeight && k.vOffset == 0 && !bob), badAt vOff 6 n),
        (!bob || (f.srcY % 2 == 0 && f.srcHeight % 2 == 0), badAt yOff 6 n)]
  | none => none

/-- The slots of a head, seam slots included. -/
def Cfg.headSlots (h : Nat) (c : Cfg) : List (Nat × LayerCfg) := c.slots.filterMap fun s => (c.layerOn s.1).bind fun f => if f.head = h then some (s.1, f) else none

/-- What R199 asks of the slots of a head: at most 16, and no z twice. -/
def Cfg.headFits (n : Nat) (f : LayerCfg) (c : Cfg) : Option Fail :=
  let xs := c.headSlots f.head
  let twin := (xs.find? fun s => s.1 != n && s.2.z == f.z).map (·.1)
  firstFailure [(decide (xs.length ≤ 16), badAt 2 7 f.head), (twin.isNone, badAt 5 6 (twin.getD 0))]

/-- Check 1 on LAYER.CONFIG (R185, R199, R230). -/
def AdmCtx.layerNames (x : AdmCtx) (p : List Byte) : Option Fail :=
  let n := fieldU p 0 2
  if fieldU p 4 1 = 0 then none
  else
    let f := readLayerCfg p 0
    let c := x.new
    let st := smFind f.source c.statics
    let seam := c.crosses f
    (firstFailure [(n / 32 == f.head / 8, badAt 2 7 f.head),
      (!seam || f.head % 2 == 0, badAt 2 7 f.head),
      (f.scaler != 255 || f.dstWidth == f.srcWidth, badAt 12 6 n), (f.scaler != 255 || f.dstHeight == f.srcHeight, badAt 14 6 n),
      (f.sourceKind != 0 || st.map (·.state) == some SurfState.sealed, badAt 52 5 f.source),
      (f.sourceKind != 0 || (match st with | some s => decide (f.srcX + f.srcWidth ≤ s.width) | none => true), badAt 20 5 f.source),
      (f.sourceKind != 0 || (match st with | some s => decide (f.srcY + f.srcHeight ≤ s.height) | none => true), badAt 22 5 f.source),
      (if seam then f.seamSlot != 0xFFFF && f.seamSlot != n && f.seamSlot / 32 == f.head / 8 else f.seamSlot == 0xFFFF, badAt 32 6 n)]).orElse fun _ =>
        (c.headFits n f).orElse fun _ =>
          ((if seam then (match (c.slot f.seamSlot).layer with | some g => c.headFits f.seamSlot g | none => none) else none)).orElse fun _ =>
            (c.scalerFits n 20 22 18).orElse fun _ => firstFailure [(f.sourceKind != 1 || x.ringOk f.source, badAt 49 4 f.source)]

/-- Whether following from a head leads back to it (R249). -/
def Cfg.followsBack (h : Nat) (c : Cfg) : Nat → Nat → Bool
  | 0, _ => false
  | k + 1, g =>
    if g = h then true
    else match (c.head g).timing with
      | some t => if t.mode = 2 && t.followKind = 1 then c.followsBack h k t.followSource else false
      | none => false

/-- Check 1 on HEAD.TIMING (R17, R249): FOLLOW does not lead back to the head. -/
def AdmCtx.timingNames (x : AdmCtx) (p : List Byte) : Option Fail :=
  let t := readTimingCfg p 0
  if fieldU p 2 1 = 0 || t.mode != 2 then none
  else if t.followKind = 0 then x.streamInside 0 t.followSource 46
  else if x.new.followsBack t.head 256 t.followSource then some (badAt 46 7 t.followSource) else none

/-- The sine tones at or above 0.45 fs of a group that they feed: generator and channel (R301). -/
def Cfg.loudTones (c : Cfg) : List (Nat × Nat) :=
  c.audio.filterMap fun a =>
    if a.2.sourceKind != 2 then none
    else
      let g := smGet {} a.2.source c.tones
      if g.kind = 1 && 450 * rateHz ((c.audioStream (a.1 / 32)).rate (a.1 % 32 / 8)) ≤ g.freqMhz then some (a.2.source, a.1) else none

/-- Check 1 on the audio operations (R17, R301). -/
def AdmCtx.audioNames (x : AdmCtx) (o : StagedOp) : Option Fail :=
  let n := fieldU o.params 0 2
  let xs := x.new.loudTones
  if o.code = 0x0901 then firstFailure [(!xs.any fun t => t.2 == n, badAt 4 18 n)]
  else if o.code = 0x0902 then
    (x.streamInside 1 n 0).orElse fun _ => (xs.find? fun t => t.2 / 32 == n).map fun t => badAt (4 + t.2 % 32 / 8) 18 t.2
  else match xs.find? fun t => t.1 == fieldU o.params 0 1 with
    | some t => some (badAt 4 18 t.2)
    | none => none

/-- Check 1 on STREAM.CONFIG (R17, R128, R185): the ring of a captured stream is admitted afresh on its new scan. -/
def AdmCtx.streamNames (x : AdmCtx) (p : List Byte) : Option Fail :=
  let s := fieldU p 0 2
  (x.streamInside (fieldU p 2 1) s 0).orElse fun _ =>
    if fieldU p 2 1 = 0 && fieldU p 3 1 != 0 then firstFailure [(x.ringOk s, badAt 11 4 s)] else none

/-- Check 1 on one operation, whose fields are good on their own: `pre` is the configuration before it. -/
def AdmCtx.check1 (x : AdmCtx) (pre : Cfg) (o : StagedOp) : Option Fail :=
  let p := o.params
  match o.code with
  | 0x0301 => x.streamNames p
  | 0x0401 => takeNames pre p
  | 0x0501 => x.capNames pre p
  | 0x0601 => match smFind (fieldU p 0 2) x.new.statics with
    | some s => x.rangeBad 16 5 (fieldU p 0 2) s.base s.size
    | none => none
  | 0x0602 | 0x0603 | 0x0604 => surfState pre o.code p
  | 0x0701 => x.layerNames p
  | 0x0705 => x.new.scalerFits (fieldU p 0 2) 3 4 2
  | 0x0801 => x.timingNames p
  | 0x0803 => if x.new.pairOdd (fieldU p 0 2) then some (badAt 0 7 (fieldU p 0 2)) else none
  | 0x0901 | 0x0902 | 0x0903 => x.audioNames o
  | _ => none

/-! ### Check 2 (R43) -/

/-- The egress stream whose auto-sync route owns something (R155). -/
def AdmCtx.syncOwner (x : AdmCtx) (p : Nat → Route → Bool) : Option Nat :=
  leastOf ((x.all.flatMap fun c => c.routes).filterMap fun r => if p r.1 r.2 then some r.1 else none)

/-- A conflict with an auto-sync route. -/
def AdmCtx.syncBusy (x : AdmCtx) (off : Nat) (p : Nat → Route → Bool) : Option Fail := (x.syncOwner p).map fun e => busyAt off 3 e

/-- The lowest egress stream that stays routed from a source, or is under a configuration that counts. -/
def AdmCtx.fed (x : AdmCtx) (src : Source) : Option Nat := leastOf (x.kept.flatMap fun c => c.fedBy src)

/-- Check 2 on STREAM.CONFIG (R127, R311, R439). -/
def AdmCtx.streamBusy (x : AdmCtx) (p : List Byte) : Option Fail :=
  let s := fieldU p 0 2
  let n := fieldU p 3 1
  if fieldU p 2 1 = 0 then
    let ref := (List.range 8).find? fun k => (x.dev.ref (33 + k)).cfg.enable == 1 && (x.dev.ref (33 + k)).cfg.lrcStream == s
    match ref with
    | some k => some (busyAt 0 12 (33 + k))
    | none =>
      if n = 0 then
        (match x.fed (.ingress s) with
        | some e => some (busyAt 3 3 e)
        | none =>
          match leastOf ((x.kept.flatMap fun c => c.routes).filterMap fun r => if r.2.take.sourceKind == 1 && r.2.take.source == s then some r.1 else none) with
          | some e => some (busyAt 3 3 e)
          | none => if x.kept.any fun c => (smFind s c.caps).isSome then some (busyAt 3 4 s) else none)
      else ((x.kept.flatMap Cfg.inBonds).find? fun e => decide (s < e.1) && decide (e.1 < s + n)).map fun e => busyAt 3 2 e.1
  else if n = 0 then
    match (x.kept.map fun c => (c.route s).source).find? fun y => y != Source.none with
    | some (Source.ingress i) => some (busyAt 3 2 i)
    | some (Source.head h) => some (busyAt 3 7 h)
    | _ => none
  else ((x.kept.flatMap Cfg.outBonds).find? fun e => e.1 != s && decide (e.1 < s + n) && decide (s < e.1 + e.2)).map fun e => busyAt 3 3 e.1

/-- Check 2 on ROUTE.TAKE: a head feeds at most 4 egress streams (R144). Another stream's take may name a head that an auto-sync route
owns: R155 names its owner and no refusal for such a take (DESIGN CHOICE, log entry 29). -/
def AdmCtx.takeBusy (x : AdmCtx) (p : List Byte) : Option Fail :=
  let h := fieldU p 4 2
  if fieldU p 2 1 != 2 then none
  else if (((x.kept.flatMap fun c => c.fedBy (.head h)).eraseDups.filter (· != fieldU p 0 2)).length ≥ 4) then some (busyAt 4 7 h) else none

/-- The parameters of CAP.CONFIG with slot_bytes 0 replaced by the size that R173 computes from the expected descriptor before the
operation: a ring keeps its layout until the next CAP.CONFIG (R174). -/
def Cfg.sizeCap (p : List Byte) (c : Cfg) : List Byte :=
  match smFind (fieldU p 0 2) c.ingress with
  | some i => if fieldU p 4 1 = 0 then p else p.take 28 ++ toBE 4 (capSlot (readCapCfg p 0) i.expected)
  | none => p

/-- Check 2 on CAP.CONFIG (R155, R174). -/
def AdmCtx.capBusy (x : AdmCtx) (pre : Cfg) (p : List Byte) : Option Fail :=
  let c := fieldU p 0 2
  (x.syncBusy 0 fun _ r => r.syncCap == some c).orElse fun _ =>
    match smFind c pre.caps with
    | none => none
    | some a => if fieldU p 4 1 != 0 && a.sameRing (readCapCfg (pre.sizeCap p) 0) then none
      else (if fieldU p 4 1 = 0 then x.reader 1 c else readerIn 1 c (x.held ++ [x.old])).map fun s => busyAt 4 6 s

/-- Check 2 on the operations on static surfaces (R160, R181, R462). -/
def AdmCtx.surfBusy (x : AdmCtx) (pre : Cfg) (o : StagedOp) : Option Fail :=
  let n := fieldU o.params 0 2
  let armed := x.dev.freeze.state == 1 && x.dev.freeze.cfg.surface == n
  if o.code = 0x0601 then (if (smFind n pre.statics).isSome then some (busyAt 0 5 n) else none)
  else if armed && o.code != 0x0603 then some (busyAt 0 17 49)
  else if o.code = 0x0602 then none
  else (x.reader 0 n).map fun s => busyAt 0 6 s

/-- The layer that owns a slot as its seam slot (R199). -/
def AdmCtx.seamOwner (x : AdmCtx) (n : Nat) : Option Nat := (x.all.filterMap fun c => (c.slot n).seamOf).head?

/-- The layer that owns a scaler: another than `n`, and than `n`'s seam slot (R199, R242). -/
def scalerOwner (cs : List Cfg) (n g : Nat) : Option Nat :=
  (cs.findSome? fun c => c.slots.find? fun s => s.1 != n && s.2.scaler == some g && s.2.seamOf != some n).map fun s => s.2.seamOf.getD s.1

/-- Check 2 on the operations on layer slots (R155, R199). -/
def AdmCtx.slotBusy (x : AdmCtx) (o : StagedOp) : Option Fail :=
  let n := fieldU o.params 0 2
  (x.syncBusy 0 fun _ r => r.syncSlot == some n).orElse fun _ =>
    match x.seamOwner n with
    | some m => some (busyAt 0 6 m)
    | none =>
      if o.code != 0x0701 || fieldU o.params 4 1 = 0 then none
      else
        let f := readLayerCfg o.params 0
        (x.syncBusy 2 fun _ r => r.syncHead == some f.head).orElse fun _ =>
          (if f.scaler = 255 then none else (scalerOwner x.kept n (n / 32 * 8 + f.scaler)).map fun m => busyAt 26 6 m).orElse fun _ =>
            if f.seamSlot = 0xFFFF then none
            else
              let q := f.seamSlot
              let taken := x.kept.find? fun c => (c.slot q).layer.isSome && (c.slot q).seamOf != some n
              (x.syncBusy 32 fun _ r => r.syncSlot == some q).orElse fun _ => taken.map fun c => busyAt 32 6 ((c.slot q).seamOf.getD q)

/-- The lowest layer whose live or armed configuration names some heads. -/
def AdmCtx.layerOnHeads (x : AdmCtx) (g : List Nat) : Option Nat :=
  leastOf ((slotNumbers x.all).filter fun s => x.all.any fun c => match c.layerOn s with | some f => g.contains f.head | none => false)

/-- What keeps some heads from being released (R274). -/
def AdmCtx.headsHeld (x : AdmCtx) (g : List Nat) : Option Fail :=
  match g.findSome? fun h => x.fed (.head h) with
  | some e => some (busyAt 0 3 e)
  | none => (x.layerOnHeads g).map fun s => busyAt 0 6 s

/-- Check 2 on HEAD.TIMING, HEAD.COLOUR and HEAD.SR (R155, R266, R268, R274). -/
def AdmCtx.headBusy (x : AdmCtx) (pre : Cfg) (o : StagedOp) : Option Fail :=
  let h := fieldU o.params 0 2
  (x.syncBusy 0 fun _ r => r.syncHead == some h).orElse fun _ =>
    if o.code != 0x0801 then none
    else if pre.pairOdd h then some (busyAt 0 7 (h - 1))
    else
      let pair := h % 2 == 0 && (pre.pairOf h).isSome
      if fieldU o.params 2 1 = 0 then x.headsHeld (if pair then [h, h + 1] else [h])
      else if fieldU o.params 6 1 = 1 && !pair then
        (if (x.held ++ [x.old, pre]).any fun c => (c.head (h + 1)).timing.isSome then some (busyAt 6 7 (h + 1)) else none)
      else if pair && fieldU o.params 6 1 = 0 then x.headsHeld [h + 1]
      else none

/-- Whether a power domain is off by configuration (R507). -/
def Dev.domainOff (k : Nat) (v : Dev) : Bool := v.pow.off.contains k
/-- Whether some HBM domain is off: every region of surfaces and rings reaches a port of each stack (R372, R508). -/
def Dev.hbmOff (v : Dev) : Bool := (List.range 4).any fun k => v.domainOff (4 + k)
/-- The domain of a compositor quadrant, from a cluster. -/
def quadrantDomain (k : Nat) : Nat := 24 + k / 8

/-- The field through which an operation would configure a unit of a domain that is off (R508). -/
def Dev.offField (o : StagedOp) (v : Dev) : Option Nat :=
  let n := fieldU o.params 0 2
  let at_ (b : Bool) (off : Nat) : Option Nat := if b then some off else none
  match o.code / 0x100 with
  | 0x03 => at_ (fieldU o.params 3 1 != 0 && v.domainOff (8 + n / 32)) 0
  | 0x05 => at_ (fieldU o.params 4 1 != 0 && v.hbmOff) 16
  | 0x06 => at_ (o.code == 0x0601 && v.hbmOff) 16
  | 0x07 => at_ (!(o.code == 0x0701 && fieldU o.params 4 1 == 0) && v.domainOff (quadrantDomain (n / 32))) 0
  | 0x08 => at_ (!(o.code == 0x0801 && fieldU o.params 2 1 == 0) && v.domainOff (quadrantDomain (n / 8))) 0
  | 0x09 =>
    let release := o.code == 0x0901 && fieldU o.params 2 1 == 0
    at_ (!release && (v.domainOff 28 || (o.code == 0x0901 && fieldU o.params 2 1 != 2 && v.domainOff 7))) 0
  | _ => none

/-- R508: an operation that would configure a unit in a domain that is off. -/
def Dev.domainBusy (o : StagedOp) (v : Dev) : Option Fail := (v.offField o).map fun off => busyAt off 0 0

/-- Check 2 on one operation: domains that are off (R508), then owners and conflicts. -/
def AdmCtx.check2 (x : AdmCtx) (pre : Cfg) (o : StagedOp) : Option Fail :=
  (x.dev.domainBusy o).orElse fun _ =>
  match o.code / 0x100 with
  | 0x03 => x.streamBusy o.params
  | 0x04 => x.takeBusy o.params
  | 0x05 => x.capBusy pre o.params
  | 0x06 => x.surfBusy pre o
  | 0x07 => x.slotBusy o
  | 0x08 => x.headBusy pre o
  | 0x09 => if o.code = 0x0901 then x.syncBusy 0 fun e r => decide (32 * e ≤ fieldU o.params 0 2) && decide (fieldU o.params 0 2 < 32 * e + r.syncCh) else none
  | _ => none

end Sys2Proof.Machine
end

