-- ==== Sys2Proof/Machine/Expand.lean ====
section
/-! DEFINITION. From the operations of a transaction to what its units take: the unit of each operation (R34, R129, R174, R182, R200,
R256, R287), seam slots (R242, R267), tile pairs (R266), and line-buffer allocations (R240, R243). -/
namespace Sys2Proof.Machine
open Sys2Proof

/-- An operation for a unit, with the place in the transaction of the operation it comes from. -/
structure UnitOp where
  /-- Place in the transaction. -/
  at_ : Nat
  /-- Unit. -/
  unit : UnitId
  /-- Operation. -/
  op : StagedOp
  deriving DecidableEq, Repr

/-- The head at whose Midnight point a head's settings become live: the even one of its pair, before or after the commit. -/
def midnightHead (old fin : Cfg) (h : Nat) : Nat := if fin.pairOdd h || old.pairOdd h then h - 1 else h

/-- The unit of a slot's settings (R200): the head that the commit gives it, else the head it has, else the slot itself. -/
def slotUnit (old fin : Cfg) (n : Nat) : UnitId :=
  match fin.layerOn n, old.layerOn n with
  | some f, _ => .head (midnightHead old fin f.head)
  | none, some f => .head (midnightHead old fin f.head)
  | none, none => .slot n

/-- The unit at whose boundary an operation becomes live. -/
def unitOf (old fin : Cfg) (o : StagedOp) : UnitId :=
  let n := fieldU o.params 0 2
  match o.code / 0x100 with
  | 0x03 => if fieldU o.params 2 1 = 0 then .ingress n else .egress n
  | 0x04 => .take n
  | 0x05 => .capture n
  | 0x06 => .surface n
  | 0x07 => slotUnit old fin n
  | 0x08 => .head (midnightHead old fin n)
  | _ => if o.code = 0x0901 then .audioChannel n else if o.code = 0x0902 then .audioStream n else .tone (fieldU o.params 0 1)

/-- Whether a take names the source that the route has (R144). -/
def sameSource (c : Cfg) (p : List Byte) : Bool :=
  let t := (c.route (fieldU p 0 2)).take
  t.sourceKind == fieldU p 2 1 && t.source == fieldU p 4 2

/-- The seam slot of a slot. -/
def Cfg.seamSlotOf (n : Nat) (c : Cfg) : Option Nat := (c.slots.find? fun s => s.2.seamOf == some n).map (·.1)

/-- The parameters of LAYER.CONFIG for a seam slot on its head; it has no seam slot of its own. -/
def layerFor (slot head : Nat) (p : List Byte) : List Byte := toBE 2 slot ++ toBE 2 head ++ ((p.drop 4).set 28 0xFF#8).set 29 0xFF#8
/-- Parameters that name another slot. -/
def slotFor (slot : Nat) (p : List Byte) : List Byte := toBE 2 slot ++ p.drop 2
/-- The release of a seam slot. -/
def seamRelease (q main : Nat) : StagedOp := { code := opSeam, params := toBE 2 q ++ zeros 62 ++ toBE 2 main }

/-- What LAYER.CONFIG does to seam slots (R199, R242, R267): the old seam slot is released, a crossing layer takes its new one with the
settings of the slot. -/
def seamOps (pre fin : Cfg) (p : List Byte) : List StagedOp :=
  let n := fieldU p 0 2
  let f := readLayerCfg p 0
  let wants : Option Nat := if f.enable != 0 && fin.crosses f then optU16 f.seamSlot else none
  let drop := match pre.seamSlotOf n with | some q => if wants = some q then [] else [seamRelease q n] | none => []
  match wants with
  | some q => drop ++ [{ code := opSeam, params := layerFor q (f.head + 1) p ++ toBE 2 n }, { code := opCopy, params := toBE 2 q ++ toBE 2 n }]
  | none => drop

/-- What HEAD.TIMING does to the odd head of a pair (R266, R268). -/
def pairOps (pre : Cfg) (p : List Byte) : List StagedOp :=
  let h := fieldU p 0 2
  if fieldU p 2 1 = 1 && fieldU p 6 1 = 1 then [{ code := opPair, params := toBE 2 (h + 1) ++ (p.drop 2).set 4 0 }]
  else if (pre.pairOf h).isSome && h % 2 = 0 then [{ code := opPair, params := toBE 2 (h + 1) ++ zeros 78 }] else []

/-- The operations that one operation stands for, itself first; none for a take of the current source (R144). -/
def expandOp (pre fin : Cfg) (o : StagedOp) : List StagedOp :=
  match o.code with
  | 0x0401 => if sameSource pre o.params then [] else [o]
  | 0x0501 => [{ o with params := pre.sizeCap o.params }]
  | 0x0701 => o :: seamOps pre fin o.params
  | 0x0702 | 0x0703 | 0x0704 | 0x0705 | 0x0706 =>
    match pre.seamSlotOf (fieldU o.params 0 2) with
    | some q => [o, { o with params := slotFor q o.params }]
    | none => [o]
  | 0x0801 => o :: pairOps pre o.params
  | _ => [o]

/-- Operations applied in order. -/
def applyOps (os : List StagedOp) (c : Cfg) : Cfg := os.foldl (fun c o => applyOp o c) c

/-- The operations of a transaction from place `i` on, expanded against the configuration before each. -/
def expandFrom (old fin : Cfg) : Nat → Cfg → List StagedOp → List UnitOp
  | _, _, [] => []
  | i, pre, o :: r =>
    let os := expandOp pre fin o
    let u := unitOf old fin o
    (os.map fun q => { at_ := i, unit := u, op := q }) ++ expandFrom old fin (i + 1) (applyOps os pre) r

/-- The allocation of one slot under a configuration (R239, R240), with the scaler it takes. -/
def granOp (n : Nat) (f : LayerCfg) (scaler : Option Nat) (c : Cfg) : StagedOp :=
  { code := opGran, params := toBE 2 n ++ toBE 2 (c.wBufOf f) ++ toBE 2 (c.scalerGranules n f) ++ toBE 2 (c.chromaGranules f) ++ optBytes scaler }

/-- The slots that a transaction admits afresh, with the place of the operation that does: LAYER.CONFIG and LAYER.SCALER (R243). -/
def granSlots (os : List StagedOp) : List (Nat × Nat) :=
  let xs := os.zipIdx.filterMap fun o => if o.1.code = 0x0701 || o.1.code = 0x0705 then some (fieldU o.1.params 0 2, o.2) else none
  (xs.map (·.1)).eraseDups.map fun n => (n, ((xs.filter (·.1 == n)).map (·.2)).foldl max 0)

/-- The lowest-numbered scaler of a cluster that no layer owns (R242). -/
def freeScaler (cs : List Cfg) (n named : Nat) : Option Nat :=
  ((List.range 8).map fun i => n / 32 * 8 + i).find? fun g => g != named && (scalerOwner cs n g).isNone

/-- The allocations that follow the operations of a transaction: those of the layers first, then those of their seam slots; the failure
when a seam slot finds no scaler (R242). -/
def granOps (held : List Cfg) (old fin : Cfg) (slots : List (Nat × Nat)) (c : Cfg) : Except (Nat × Fail) (List UnitOp) :=
  let mains := slots.filterMap fun s => (c.layerOn s.1).map fun f =>
    ({ at_ := s.2, unit := slotUnit old fin s.1, op := granOp s.1 f (if f.scaler = 255 then none else some (s.1 / 32 * 8 + f.scaler)) c } : UnitOp)
  let c1 := applyOps (mains.map (·.op)) c
  slots.foldl (fun (r : Except (Nat × Fail) (List UnitOp)) s =>
    match r with
    | .error e => .error e
    | .ok us =>
      match c.seamSlotOf s.1, c.layerOn s.1 with
      | some q, some f =>
        let cur := applyOps ((us.drop mains.length).map (·.op)) c1
        let g : LayerCfg := match (c.slot q).layer with | some x => x | none => f
        if f.scaler = 255 then .ok (us ++ [{ at_ := s.2, unit := slotUnit old fin s.1, op := granOp q g none c }])
        else match freeScaler (held ++ [cur]) s.1 (s.1 / 32 * 8 + f.scaler) with
          | some k => .ok (us ++ [{ at_ := s.2, unit := slotUnit old fin s.1, op := granOp q g (some k) c }])
          | none => .error (s.2, busyAt 26 6 ((scalerOwner (held ++ [cur]) s.1 (s.1 / 32 * 8 + 7)).getD s.1))
      | _, _ => .ok us) (.ok mains)

/-- A transaction expanded: its operations by unit, in order. -/
def expandAll (held : List Cfg) (old : Cfg) (os : List StagedOp) : Except (Nat × Fail) (List UnitOp) :=
  let fin := applyOps os old
  let us := expandFrom old fin 0 old os
  match granOps held old fin (granSlots os) (applyOps (us.map (·.op)) old) with
  | .ok gs => .ok (us ++ gs)
  | .error e => .error e

end Sys2Proof.Machine
end

