-- ==== Sys2Proof/Machine/Admit.lean ====
section
/-! DEFINITION. Admission: the quantities of checks 3 to 7 of R43 over every configuration that counts (R44, R45), and the verdict on a
request. -/
namespace Sys2Proof.Machine
open Sys2Proof

/-! ### Checks 3 to 7 -/

/-- The largest value of a fraction over some configurations. -/
def maxOver (cs : List Cfg) (f : Cfg → Frac) : Frac := fracMax (cs.map f)
/-- The largest value of a number over some configurations. -/
def maxNat (cs : List Cfg) (f : Cfg → Nat) : Nat := ((cs.map f).max?).getD 0

/-- Check 3: the heads that operations set run on a TC with the set frequency that they assume (R250). -/
def Dev.check3 (os : List StagedOp) (c : Cfg) (v : Dev) : Option Fail :=
  os.findSome? fun o =>
    if o.code != 0x0801 || fieldU o.params 2 1 = 0 then none
    else match (c.head (fieldU o.params 0 2)).timing with
      | some t => if t.dcoFreqHz = (v.tc t.tc).cfg.setFreqHz then none
          else some { status := .tcFreq, check := 3, kind := 7, index := fieldU o.params 0 2, field := 32 }
      | none => none

/-- Check 4: every egress stream fits its bond (R43, R121, R122). -/
def Dev.check4 (c : Cfg) (v : Dev) : Option Fail :=
  (c.egress.find? fun e => v.overload e.1 c != 0).map fun e => { status := .capacity, check := 4, kind := 3, index := e.1 }

/-- Clusters that some configurations use. -/
def clustersOf (cs : List Cfg) : List Nat :=
  (List.range 32).filter fun k => cs.any fun c => c.heads.any (fun h => h.1 / 8 == k) || c.slots.any (fun s => s.1 / 32 == k)

/-- Check 5 on the compositor clusters (R204). -/
def check5Clusters (cs : List Cfg) : Option Fail :=
  (clustersOf cs).findSome? fun k =>
    let heads := (List.range 8).map fun i => (8 * k + i, maxOver cs fun c => c.fPixel (8 * k + i))
    let f (kind i : Nat) : Fail := { status := .capacity, check := 5, kind := kind, index := i }
    match heads.find? fun h => !h.2.le (Frac.of 8000000000 1) with
    | some h => some (f 7 h.1)
    | none =>
      if !(fracSum (heads.map (·.2))).le (Frac.of 10000000000 1) then some (f 9 k)
      else
        let slots := (slotNumbers cs).filter fun n => n / 32 == k
        if !(fracSum (slots.map fun n => maxOver cs fun c => c.slotLoad n)).le (Frac.of 40000000000 1) then some (f 9 k) else none

/-- Check 5 on the audio engine (R279, R280, R295). -/
def check5Audio (cs : List Cfg) : Option Fail :=
  let chans := (cs.flatMap fun c => c.audio.map (·.1)).eraseDups
  let ext := (cs.flatMap Cfg.extractedOn).eraseDups
  let bytes := (chans.map fun ch => maxNat cs fun c => match smFind ch c.audio with | some a => c.delayBytes ch a | none => 0).sum
  if chans.length ≤ 8192 && ext.length ≤ 8192 && bytes ≤ 2147483648 then none else some { status := .capacity, check := 5 }

/-- Granules that a slot's scalers hold over some configurations: a scaler is a unit of its own, so one that the layer leaves counts
beside the one it moves to (R44, R246). -/
def scalerDemand (cs : List Cfg) (n : Nat) : Nat :=
  ((cs.map fun c => (c.slot n).scaler).eraseDups.map fun g => maxNat (cs.filter fun c => (c.slot n).scaler == g) fun c => (c.slot n).scGran).sum

/-- Check 6: granules of a cluster (R241). -/
def check6 (cs : List Cfg) : Option Fail :=
  (clustersOf cs).findSome? fun k =>
    let slots := (slotNumbers cs).filter fun n => n / 32 == k
    let layers := (slots.map fun n => scalerDemand cs n + maxNat cs (fun c => (c.slot n).chGran)).sum
    let heads := ((List.range 8).map fun i => maxNat cs fun c => c.headGranules (8 * k + i)).sum
    if layers + heads ≤ 128 then none
    else some { status := .linebuf, check := 6, kind := 9, index := k, amount := ((layers + heads - 128 : Nat) : Int) }

/-- The cluster that a holder's granules lie in. -/
def GranUser.cluster : GranUser → Nat
  | .scaler n _ => n / 32
  | .chroma n => n / 32
  | .head h => h / 8

/-- What each holder needs over some configurations, in granules (R44, R240). -/
def granNeeds (cs : List Cfg) : List (GranUser × Nat) :=
  let slots := slotNumbers cs
  let scalers := slots.flatMap fun n => (cs.map fun c => (c.slot n).scaler).eraseDups.map fun g =>
    (GranUser.scaler n g, maxNat (cs.filter fun c => (c.slot n).scaler == g) fun c => (c.slot n).scGran)
  let heads := (cs.flatMap fun c => c.heads.map (·.1)).eraseDups.map fun h => (GranUser.head h, maxNat cs (Cfg.headGranules h))
  (scalers ++ (slots.map fun n => (GranUser.chroma n, maxNat cs fun c => (c.slot n).chGran)) ++ heads).filter fun e => e.2 != 0

/-- The granules assigned for some needs (R241): a holder keeps its lowest, and takes the lowest free ones of its cluster for the rest. -/
def assignGranules (needs : List (GranUser × Nat)) (old : List (GranUser × List Nat)) : List (GranUser × List Nat) :=
  let kept := needs.map fun e => (e.1, ((List.range 128).filter (((old.find? (·.1 == e.1)).map (·.2)).getD []).contains).take e.2)
  needs.foldl (fun (xs : List (GranUser × List Nat)) e =>
    let taken := (xs.filter fun x => x.1.cluster == e.1.cluster).flatMap (·.2)
    let free := (List.range 128).filter fun g => !taken.contains g
    xs.map fun x => if x.1 == e.1 then (x.1, x.2 ++ free.take (e.2 - x.2.length)) else x) kept

/-- CORE.M's assignment for the configuration that counts, which frees what no commit needs any more (R45, R241). -/
def Dev.assignGranules (v : Dev) : Dev :=
  let cs := v.cfgs ++ (cfgChain ((v.cfgs).getLastD v.cfg) (v.daond.prepared.map (·.commit))).drop 1
  { v with fabric := { v.fabric with granules := Machine.assignGranules (granNeeds cs) v.fabric.granules } }

/-- Check 7: budgets of a memory port (R391). -/
def check7 (cs : List Cfg) : Option Fail :=
  let sss := cs.map Cfg.streams
  (List.range 16).findSome? fun p =>
    let n := (budgetsAt sss p).sum
    if n ≤ 4096 then none else some { status := .budget, check := 7, kind := 10, index := p, amount := ((n - 4096 : Nat) : Int) }

/-- Checks 5 to 7 over every configuration that counts (R44). -/
def checkSums (cs : List Cfg) : Option Fail :=
  (check5Clusters cs).orElse fun _ => (check5Audio cs).orElse fun _ => (check6 cs).orElse fun _ => check7 cs

/-! ### The operation at fault -/

/-- Whether an operation bears on the object that a failure names. -/
def touchesObject (new : Cfg) (f : Fail) (o : StagedOp) : Bool :=
  let n := fieldU o.params 0 2
  let fam := o.code / 0x100
  match f.kind with
  | 3 =>
    (match fam with
    | 0x03 => if fieldU o.params 2 1 = 0 then (new.route f.index).source == .ingress n else n == f.index
    | 0x04 => n == f.index
    | 0x08 => (new.route f.index).source == .head n
    | 0x09 => o.code != 0x0903 && (n == f.index || (o.code == 0x0901 && n / 32 == f.index))
    | _ => false)
  | 7 => fam == 0x08 && n == f.index
  | 9 => (fam == 0x07 && n / 32 == f.index) || (fam == 0x08 && n / 8 == f.index)
  | 10 => fam == 0x05 || fam == 0x06 || fam == 0x07 || fam == 0x08 || fam == 0x03
  | _ => fam == 0x09

/-- The last operation of a transaction that bears on a failure of checks 3 to 7, else the last one (R421). -/
def faultIndex (os : List StagedOp) (new : Cfg) (f : Fail) : Nat :=
  ((os.zipIdx.filter fun o => touchesObject new f o.1).getLast?.map (·.2)).getD (os.length - 1)

/-! ### A request against every state (R44) -/

/-- Checks of some operations one by one, each against the configuration before it. -/
def opChecks (check : Cfg → StagedOp → Option Fail) : Nat → Cfg → List (StagedOp × List StagedOp) → Option (Nat × Fail)
  | _, _, [] => none
  | i, pre, (o, os) :: r =>
    match check pre o with
    | some f => some (i, f)
    | none => opChecks check (i + 1) (applyOps os pre) r

/-- The operations of a commit in place, each with what it stands for. -/
def grouped (os : List StagedOp) (us : List UnitOp) : List (StagedOp × List StagedOp) :=
  os.zipIdx.map fun o => (o.1, (us.filter fun (u : UnitOp) => u.at_ = o.2 && u.op.code != opGran).map (·.op))

/-- Checks 1 and 2 of a request, in their order; the index is that of the operation at fault. -/
def requestChecks (x : AdmCtx) (os : List StagedOp) (us : List UnitOp) : Option Fail :=
  let g := grouped os us
  let at_ (r : Option (Nat × Fail)) : Option Fail := r.map fun e => { e.2 with opIndex := e.1 }
  (at_ (opChecks (fun _ o => (stagedBad o).map fun off => badAt off 0 0) 0 x.old g)).orElse fun _ =>
    (at_ (opChecks x.check1 0 x.old g)).orElse fun _ =>
      (at_ (opChecks (fun pre o => ((x.dev.preparedOn o).map fun q => busyAt 0xFFFF 21 q).orElse fun _ => x.check2 pre o) 0 x.old g))

/-- Checks 1 and 2 of a commit admitted earlier, in its new place in the order (R44). -/
def laterChecks (x : AdmCtx) (k : Commit) : Option Fail :=
  let g := (k.ops.filter fun o => k.left.contains o.1 && o.2.code < 0x10000).map fun o => (o.2, [o.2])
  ((opChecks x.check1 0 x.old g).orElse fun _ => opChecks x.check2 0 x.old g).map (·.2)

/-- The failure with the lower check number; the first on a tie. -/
def worse (a b : Option Fail) : Option Fail :=
  match a, b with
  | some x, some y => if y.check < x.check then some y else some x
  | none, y => y
  | x, none => x

/-- The states that commits after a request lead to, and the lowest-numbered of their checks 1 to 4 that fails in the new order. -/
def laterStates (held : List Cfg) (v : Dev) : Cfg → List Commit → List Cfg × Option Fail
  | _, [] => ([], none)
  | c, k :: r =>
    let new := k.applyAll c
    let x : AdmCtx := { held := held, old := c, new := new, dev := v }
    let f := (laterChecks x k).orElse fun _ => v.check4 new
    let rest := laterStates (held ++ [c]) v new r
    (new :: rest.1, worse f rest.2)

/-- What prepared transactions lead to, after a configuration (R427). -/
def Dev.preparedStates (c : Cfg) (v : Dev) : List Cfg := (cfgChain c (v.daond.prepared.map (·.commit))).drop 1

/-- A place in the order of E: the commits that come before it, and those after. -/
def Dev.placed (e : Nat) (v : Dev) : List Commit × List Commit :=
  (v.daond.commits.filter fun k => decide (k.effective ≤ e), v.daond.commits.filter fun k => !decide (k.effective ≤ e))

/-- The configurations before a request with effective time `e`: those that count besides the last, and the last. -/
def Dev.beforeAt (e : Nat) (v : Dev) : List Cfg × Cfg :=
  let pre := (v.placed e).1
  let chain := cfgChain v.cfg pre
  let last := chain.getLastD v.cfg
  (v.daond.commits.filterMap (Commit.held v.cfg) ++ chain.dropLast ++ v.preparedStates last, last)

/-- The verdict of checks 1 to 7 on operations with effective time `e`: the lowest-numbered check that fails in any state (R43, R44). -/
def Dev.judge (e : Nat) (os : List StagedOp) (us : List UnitOp) (v : Dev) : Option Fail :=
  let b := v.beforeAt e
  let new := applyOps (us.map (·.op)) b.2
  let x : AdmCtx := { held := b.1, old := b.2, new := new, dev := v }
  let own := requestChecks x os us
  if own.any fun f => f.check ≤ 1 then own
  else
    let at_ (f : Fail) : Fail := { f with opIndex := faultIndex os new f }
    let direct := own.orElse fun _ =>
      ((v.check3 os new).orElse fun _ => (v.check4 new).orElse fun _ => checkSums (x.all ++ v.preparedStates new)).map at_
    let later := laterStates (x.held ++ [x.old]) v new (v.placed e).2
    let full := later.2.orElse fun _ => if later.1.isEmpty then none else checkSums (x.all ++ v.preparedStates new ++ later.1)
    worse direct (full.map fun f => { f with opIndex := 0xFFFE })

end Sys2Proof.Machine
end

