-- ==== Sys2Proof/Machine/FabricOps.lean ====
section
/-! DEFINITION. The budget windows of the memory ports (R384, R387) and the SYS.FABRIC operations (R395 to R397). -/
namespace Sys2Proof.Machine
open Sys2Proof

/-! ### Budget windows (R384, R387) -/

/-- The budgets that CORE.M programs at a port, by master: those of the configuration that counts (R387, R388). While CORE.M
restarts, the budget registers keep their values. -/
def Dev.budgetsOf (p : Nat) (v : Dev) : List Nat :=
  if v.coreUp .m then
    budgetsAt ((v.cfgs ++ v.preparedStates ((v.cfgs).getLastD v.cfg)).map Cfg.streams) p
  else (List.range 54).map fun m => (v.master m).budget.getD p 0

/-- The budgets that CORE.M programs, port by port. -/
def Dev.allBudgets (v : Dev) : List (List Nat) := (List.range 16).map fun p => v.budgetsOf p

/-- The budget registers written with what CORE.M programs. -/
def Dev.programBudgets (v : Dev) : Dev :=
  let bs := v.allBudgets
  { v with fabric := { v.fabric with
      masters := (List.range 54).map fun m => (m, { v.master m with budget := bs.map fun b => b.getD m 0 }) } }

/-- One master at a window boundary: its new permission, and its credits replenished and clipped to 16 budgets (R384, R395). -/
def MasterSt.window (x : MasterSt) : MasterSt :=
  { x with bestEffort := x.nextBestEffort.getD x.bestEffort, nextBestEffort := none
           credit := (List.range 16).map fun p =>
             let b : Int := ((x.budget.getD p 0 : Nat) : Int)
             min (x.credit.getD p 0 + b) (16 * b) }

/-- One target at a window boundary: the beats of the window join those of the last second (R396). -/
def TargetSt.window (w : Nat) (y : TargetSt) : TargetSt :=
  { y with windowBeats := 0
           peaks := (if y.windowBeats = 0 then y.peaks else (w, y.windowBeats) :: y.peaks).filter fun e => decide (w < 976563 + e.1) }

/-- BUDGET_WINDOW (R384): new budgets and permissions take effect, credits are replenished, waiting requests are judged again. -/
def Dev.budgetWindow (v : Dev) : Dev :=
  let v := v.programBudgets
  Dev.regrant { v with fabric := { v.fabric with
      window := v.fabric.window + 1
      masters := v.fabric.masters.map (fun e => (e.1, e.2.window))
      targets := v.fabric.targets.map (fun e => (e.1, e.2.window v.fabric.window)) } }

/-- 1,280 CORE cycles of 0.8 ns (R384), quarter ps. -/
def windowQ : Nat := 4096000

/-- BUDGET_WINDOW (R384): the next boundary of the windows counted from RESET_N. -/
def execBudgetWindow (t : Nat) (s : State) : Result :=
  .next (s.due (s.dev.clk.riseT + windowQ * (s.dev.fabric.window + 1)) t (State.onDev fun v => if v.mediaOn then v.budgetWindow else v))

/-! ### SYS.FABRIC (R395 to R397) -/

/-- The target record (R396). -/
def targetRecord (t : Nat) (v : Dev) : List Byte :=
  let y := v.target t
  toBE 1 t ++ toBE 1 y.parkMode ++ toBE 1 y.defaultMaster ++ toBE 1 (y.parkedOn.getD 0xFF) ++
  toBE 2 (if t < 16 then (v.budgetsOf t).sum else 0) ++
  toBE 2 (if t < 16 then ((y.peaks.map (·.2)).max?).getD 0 else 0) ++
  toBE 8 y.bestEffortBeats.toNat ++ toBE 4 y.heldBack.toNat ++ toBE 4 y.eccCorrected.toNat ++ toBE 4 y.eccUncorrected.toNat ++ toBE 4 y.late.toNat

/-- A clear of a target's counters. -/
def targetClear (t : Nat) (v : Dev) : Dev :=
  v.modTarget t fun y => { y with bestEffortBeats := 0, heldBack := 0, eccCorrected := 0, eccUncorrected := 0, late := 0 }

/-- The master record (R397). -/
def masterRecord (m : Nat) (v : Dev) : List Byte :=
  let x := v.master m
  toBE 1 m ++ toBE 1 (b01 (x.nextBestEffort.getD x.bestEffort)) ++ zeros 2 ++ toBE 4 x.resets.toNat ++
  v.allBudgets.flatMap (fun b => toBE 2 (b.getD m 0)) ++ toBE 4 x.creditWaits.toNat ++ zeros 4

/-- A clear of a master's counters. -/
def masterClear (m : Nat) (v : Dev) : Dev := v.modMaster m fun x => { x with resets := 0, creditWaits := 0 }

/-- Field rules of SYS.FABRIC for an op (R395). -/
def fabricBad (op : Nat) (p : List Byte) : Option Nat :=
  let i := fieldU p 1 1
  if i ≥ (if op < 3 then 20 else 54) then some 1
  else if op = 0 && fieldU p 2 1 > 1 || op != 0 && fieldU p 2 1 != 0 then some 2
  else if op = 0 && !(fieldU p 3 1 < 54 && reaches (fieldU p 3 1) i) || op != 0 && fieldU p 3 1 != 0 then some 3
  else if op = 3 && fieldU p 4 1 > 1 || op != 3 && fieldU p 4 1 != 0 then some 4
  else if fieldU p 5 3 != 0 then some 5 else none

/-- The row of SYS.FABRIC with an op (R395, R442). -/
def fabricRow (op : Nat) : OpRow :=
  { code := 0x0105, core := .m, fix := [(0, BitVec.ofNat 8 op)], codes := 6, lease := fun _ => op == 0 || op == 2 || op == 3 || op == 5,
    changes := fun _ => op == 0 || op == 2 || op == 3 || op == 5, lenOk := len8, repair := true }

/-- The work of SYS.FABRIC with an op: its field rules, then `f` on the unit named. -/
def fabricEff (op : Nat) (f : Nat → List Byte → Dev → Dev) (rec : Nat → Dev → List Byte) : Effect := fun d s =>
  match fabricBad op d.params with
  | some o => (s, .fail (badField o))
  | none =>
    let i := fieldU d.params 1 1
    (s.onDev (f i d.params), .ok (rec i s.dev))

/-- A target's parking settings; with DEFAULT it parks on its default master (R377, R395). -/
def setTarget (t : Nat) (p : List Byte) (v : Dev) : Dev :=
  v.modTarget t fun y =>
    { y with parkMode := fieldU p 2 1, defaultMaster := fieldU p 3 1
             parkedOn := if fieldU p 2 1 = 1 then some (fieldU p 3 1) else y.parkedOn }

/-- The work of set target. -/
def sysFabricSetTargetEff : Effect := fabricEff 0 setTarget (fun _ _ => [])
/-- SYS_FABRIC_SET_TARGET (R395). -/
def execSysFabricSetTarget (t : Nat) (d : Datagram) (s : State) : Result :=
  .next (serve (fabricRow 0) (.sysFabricSetTarget t d) t d sysFabricSetTargetEff s)
/-- The work of read target. -/
def sysFabricReadTargetEff : Effect := fabricEff 1 (fun _ _ v => v) targetRecord
/-- SYS_FABRIC_READ_TARGET (R396). -/
def execSysFabricReadTarget (t : Nat) (d : Datagram) (s : State) : Result :=
  .next (serve (fabricRow 1) (.sysFabricReadTarget t d) t d sysFabricReadTargetEff s)
/-- The work of read and clear target. -/
def sysFabricReadClearTargetEff : Effect := fabricEff 2 (fun i _ v => targetClear i v) targetRecord
/-- SYS_FABRIC_READ_CLEAR_TARGET (R396). -/
def execSysFabricReadClearTarget (t : Nat) (d : Datagram) (s : State) : Result :=
  .next (serve (fabricRow 2) (.sysFabricReadClearTarget t d) t d sysFabricReadClearTargetEff s)
/-- The work of set master: from the next window (R395). -/
def sysFabricSetMasterEff : Effect :=
  fabricEff 3 (fun i p v => v.modMaster i fun x => { x with nextBestEffort := some (fieldU p 4 1 == 1) }) (fun _ _ => [])
/-- SYS_FABRIC_SET_MASTER (R395). -/
def execSysFabricSetMaster (t : Nat) (d : Datagram) (s : State) : Result :=
  .next (serve (fabricRow 3) (.sysFabricSetMaster t d) t d sysFabricSetMasterEff s)
/-- The work of read master. -/
def sysFabricReadMasterEff : Effect := fabricEff 4 (fun _ _ v => v) masterRecord
/-- SYS_FABRIC_READ_MASTER (R397). -/
def execSysFabricReadMaster (t : Nat) (d : Datagram) (s : State) : Result :=
  .next (serve (fabricRow 4) (.sysFabricReadMaster t d) t d sysFabricReadMasterEff s)
/-- The work of read and clear master. -/
def sysFabricReadClearMasterEff : Effect := fabricEff 5 (fun i _ v => masterClear i v) masterRecord
/-- SYS_FABRIC_READ_CLEAR_MASTER (R397). -/
def execSysFabricReadClearMaster (t : Nat) (d : Datagram) (s : State) : Result :=
  .next (serve (fabricRow 5) (.sysFabricReadClearMaster t d) t d sysFabricReadClearMasterEff s)

end Sys2Proof.Machine
end

