-- ==== Sys2Proof/Machine/Bulk.lean ====
section
/-! DEFINITION. BULK.WRITE and BULK.READ (R432 to R434): frame store, firmware staging and the report space, through ETHDMA. -/
namespace Sys2Proof.Machine
open Sys2Proof

/-! ### Checks -/

/-- Bytes of a space of R432. -/
def spaceSize (k : Nat) : Nat := if k = 0 then memSize else if k = 1 then 0x800000 else 0x100000

/-- Field rules of a bulk header (R432, R433); REPORT is read only. -/
def bulkBad (write : Bool) (p : List Byte) : Option Nat :=
  let k := fieldU p 0 1
  let n := fieldU p 4 4
  let a := fieldU p 8 8
  if k > 2 || (write && k == 2) then some 0
  else if fieldU p 1 3 != 0 then some 1
  else if n < 64 || 8192 < n || n % 64 != 0 then some 4
  else if a % 64 != 0 || spaceSize k < a + n then some 8
  else none

/-- Whether a range overlaps another. -/
def meets (a n b m : Nat) : Bool := decide (a < b + m) && decide (b < a + n)

/-- The static surfaces whose seal is admitted and not yet live (R182). -/
def Dev.sealing (v : Dev) : List Nat :=
  (v.daond.commits ++ v.daond.prepared.map (·.commit)).flatMap fun k =>
    (k.ops.filter fun o => o.2.code == 0x0602 && k.left.contains o.1).map fun o => fieldU o.2.params 0 2

/-- The first memory port of an HBM domain that is off in a range (R508). -/
def Dev.offPort (a n : Nat) (v : Dev) : Option Nat :=
  ((List.range ((a + n - 1) / 4096 - a / 4096 + 1)).map fun i => portOf ((a / 4096 + i) * 4096)).find? fun p => v.pow.off.contains (4 + p / 4)

/-- What a write to a range of the frame store conflicts with (R179, R182, R374, R462, R508). -/
def Dev.writeBusy (a n : Nat) (v : Dev) : Option Fail :=
  if decide (region3 < a + n) then some (busyWith 17 48)
  else
    let hit (p : Nat × SurfaceSt → Bool) : Option (Nat × SurfaceSt) := v.cfg.statics.find? fun x => p x && meets a n x.2.base x.2.size
    match hit fun x => x.2.state == SurfState.sealed || v.sealing.contains x.1 with
    | some x => some (busyWith 5 x.1)
    | none =>
      match (v.cfg.caps.filterMap fun k => (smFind k.1 v.cfg.ingress).map fun i => (k.1, k.2.ringBase, k.2.ringLen * capSlot k.2 i.expected)).find?
          fun r => meets a n r.2.1 r.2.2 with
      | some r => some (busyWith 4 r.1)
      | none =>
        if v.freeze.state == 1 && (hit fun x => x.1 == v.freeze.cfg.surface).isSome then some (busyWith 17 49)
        else (v.offPort a n).map (busyWith 10)

/-! ### Data -/

/-- A reset of ETHDMA meets the command: ST_RESOURCE_BUSY naming ETHDMA (R383). -/
def ethdmaBusy : Fail := busyWith 17 50

/-- Old and new bytes mixed, beat by beat, as a reset of ETHDMA leaves a write (R382, R383): free values from draw `k` on. -/
def mixBeats : Nat → Nat → List Byte → List Byte → List Byte
  | 0, _, _, _ => []
  | n + 1, k, old, new => (if Config.freeNat k % 2 = 0 then old.take 64 else new.take 64) ++ mixBeats n (k + 1) (old.drop 64) (new.drop 64)

/-- Bytes of FW_STAGING. -/
def FwSt.stage (f : FwSt) (a : Nat) : Nat → List Byte
  | 0 => []
  | n + 1 => smGet 0 a f.staging :: f.stage (a + 1) n

/-- FW_STAGING with bytes written. -/
def stagePut (m : SMap Byte) (a : Nat) : List Byte → SMap Byte
  | [] => m
  | b :: r => stagePut (smPut a b m) (a + 1) r

/-- A write of bytes to a space. -/
def State.bulkPut (k a : Nat) (bs : List Byte) (s : State) : State :=
  if k = 0 then { s with mem := memWrite s.mem a bs, dev := (s.dev.access 50 a bs.length).healBeats a bs.length }
  else s.onDev fun v => { v with fw := { v.fw with staging := stagePut v.fw.staging a bs } }

/-- The bytes that a range holds now. The delay store of region 3 has a layout that the spec leaves to CORE.M, so its bytes read
as free values (R374). -/
def State.bulkGet (k a n : Nat) (s : State) : List Byte :=
  if k = 0 then
    if a + n ≤ region3 then memRead s.mem a n
    else memRead s.mem a (region3 - a) ++ (List.range (n - (region3 - a))).map fun i => Config.freeByte (s.dev.draws + i)
  else if k = 1 then s.dev.fw.stage a n
  else ((s.dev.fw.report.drop a).take n) ++ zeros (n - ((s.dev.fw.report.drop a).take n).length)

/-! ### The commands -/

/-- BULK.WRITE: param_len must be 16 + length (R433). -/
def bulkWriteRow : OpRow :=
  { code := 0x1301, core := .c, lenOk := fun p => decide (16 ≤ p.length) && p.length == 16 + fieldU p 4 4, repair := true }
/-- The work of BULK.WRITE. -/
def bulkWriteEff : Effect := fun d s =>
  let p := d.params
  let k := fieldU p 0 1
  let n := fieldU p 4 4
  let a := fieldU p 8 8
  let data := sliceB p 16 n
  match bulkBad true p with
  | some o => (s, .fail (badField o))
  | none =>
    match (if k = 0 then s.dev.writeBusy a n else none) with
    | some f => (s, .fail f)
    | none =>
      if (s.dev.master 50).draining then
        let mixed := mixBeats (n / 64) s.dev.draws (s.bulkGet k a n) data
        ((s.bulkPut k a mixed).onDev fun v => { v with draws := v.draws + n / 64 }, .fail ethdmaBusy)
      else (s.bulkPut k a data, .ok [])
/-- BULK_WRITE (R433). -/
def execBulkWrite (t : Nat) (d : Datagram) (s : State) : Result := .next (serve bulkWriteRow (.bulkWrite t d) t d bulkWriteEff s)

/-- BULK.READ: no lease is needed. -/
def bulkReadRow : OpRow :=
  { code := 0x1302, core := .c, lease := fun _ => false, changes := fun _ => false, lenOk := fun p => p.length == 16, repair := true }
/-- The work of BULK.READ: ST_MEM_ERROR names the first failing beat and gives no data (R392, R433). -/
def bulkReadEff : Effect := fun d s =>
  let p := d.params
  let k := fieldU p 0 1
  let n := fieldU p 4 4
  let a := fieldU p 8 8
  match bulkBad false p with
  | some o => (s, .fail (badField o))
  | none =>
    match (if k = 0 then s.dev.offPort a n else none) with
    | some q => (s, .fail (busyWith 10 q))
    | none =>
      if (s.dev.master 50).draining then (s, .fail ethdmaBusy)
      else
        let s' := if k = 0 then s.onDev (Dev.access 50 a n) else s
        match (if k = 0 then s.dev.badBeat a n else none) with
        | some b => (s'.onDev (Dev.eccError true b), .fail { status := .memError, kind := 19, index := b })
        | none => ((if k = 0 && decide (region3 < a + n) then s'.onDev fun v => { v with draws := v.draws + n } else s'), .ok (s.bulkGet k a n))
/-- BULK_READ (R433). -/
def execBulkRead (t : Nat) (d : Datagram) (s : State) : Result := .next (serve bulkReadRow (.bulkRead t d) t d bulkReadEff s)

end Sys2Proof.Machine
end

