-- ==== Sys2Proof/Machine/AutoSync.lean ====
section
/-! DEFINITION. Takes at admission: the search for a window (R149) and auto-sync, which builds a route through a capture path where no
window qualifies (R154, R155, R263, R286). -/
namespace Sys2Proof.Machine
open Sys2Proof

/-! ### The search at admission -/

/-- The settings of a head still to come: of commits before a request, of the request's own earlier operations, of commits after it. -/
def Dev.headEvents (x : Source) (e : Nat) (os : List StagedOp) (v : Dev) : List HeadEvent :=
  match x with
  | .head h =>
    let r := v.cfg.rasterHead h
    let of (k : Commit) : List HeadEvent := headEventsOf r k.effective ((k.ops.filter fun o => k.left.contains o.1).map (·.2)) v
    let p := v.placed e
    p.1.flatMap of ++ headEventsOf r e os v ++ p.2.flatMap of
  | _ => []

/-- The source that a take's parameters name. -/
def takeSource (p : List Byte) : Source :=
  if fieldU p 2 1 = 1 then .ingress (fieldU p 4 2) else if fieldU p 2 1 = 2 then .head (fieldU p 4 2) else .none

/-- Whether a take with effective time `eff` qualifies (R149): `pre` is the configuration before it, `before` the operations of its
transaction that stand earlier. -/
def Dev.searchTake (eff : Nat) (pre : Cfg) (before : List StagedOp) (p : List Byte) (v : Dev) : Bool :=
  let e := fieldU p 0 2
  let old := (pre.route e).source
  let new := takeSource p
  v.takeQualifies e (v.clk.instantOf (qOfU eff)) old new (v.headEvents old eff before) (v.headEvents new eff before)

/-! ### What auto-sync needs (R154) -/

/-- The held format of a take's old source. -/
def Dev.heldFormat (x : Source) (c : Cfg) (v : Dev) : Option Desc :=
  match x with
  | .none => none
  | .ingress s => (v.is s).held
  | .head h => (c.head h).timing.map fun t => headDesc t (c.head h).colour 0

/-- Whether auto-sync applies between an old source's format and the new source's expected descriptor (R154). -/
def syncApplies (old new : Desc) : Bool :=
  old.hTotal != 0 && old.vTotal != 0 && old.width == new.width && old.height == new.height && old.colourFormat == new.colourFormat
    && old.bitDepth == new.bitDepth && old.scan == new.scan

/-- The mean placement of the old source's FRAME_STARTs at the crosspoint, in ns (R263). -/
def Dev.followOffset (x : Source) (v : Dev) : Int :=
  match x with
  | .ingress s =>
    let ds := (v.is s).xDelays
    (ds.sum + 2000 * (max 1 ds.length : Nat)) / (4000 * max 1 ds.length : Nat)
  | _ => 0

/-- HEAD.TIMING as auto-sync fills it (R263); none where its fraction or its porch does not fit. -/
def Dev.syncTiming (h tc : Nat) (x : Source) (d : Desc) (v : Dev) : Option TimingCfg :=
  let set := (v.tc tc).cfg.setFreqHz
  let num := d.hTotal * d.vTotal * d.rateNum
  let den := d.rateDen * set
  let g := max 1 (Nat.gcd num den)
  let inter := d.scan != 0
  let extra := if inter then d.vTotal % 2 else 0
  let fp := if inter then (d.vTotal - extra) / 2 - d.height / 2 else d.vTotal - d.height
  let least := max 8 (ceilDiv (20 * num) (max 1 (1000000 * d.rateDen * d.hTotal)))
  let t : TimingCfg :=
    { head := h, enable := 1, mode := 2, tc := tc, scan := d.scan, hActive := d.width, hBp := d.hTotal - d.width, vActive := d.height, vFp := fp,
      vFpMin := max (fp - 4) least, vFpMax := fp + 4, interlaceExtra := extra, eventLine := 0xFFFF, dcoFreqHz := set, pclkNum := num / g,
      pclkDen := den / g, followKind := (match x with | .head _ => 1 | _ => 0), followSource := (match x with | .head k => k | .ingress s => s | .none => 0),
      followOffsetNs := v.followOffset x }
  if num / g < 2 ^ 32 && den / g < 2 ^ 32 && t.vFpMin ≤ fp && (rasterBad t).isNone then some t else none

/-- The lowest-numbered TC whose set frequency reaches the pixel rate (R154). -/
def Dev.syncTc (h : Nat) (x : Source) (d : Desc) (v : Dev) : Option TimingCfg := (List.range 8).findSome? fun tc => v.syncTiming h tc x d

/-- Whether nothing owns a head: it is OFF, in no pair, and no layer and no route names it. -/
def headFree (cs : List Cfg) (h : Nat) : Bool :=
  cs.all fun c => (c.head h).timing.isNone && (c.pairOf h).isNone && (c.fedBy (.head h)).isEmpty && (c.headSlots h).isEmpty && (c.syncOwner h).isNone

/-- Whether nothing owns a slot. -/
def slotFree (cs : List Cfg) (n : Nat) : Bool := cs.all fun c => (c.slot n).layer.isNone

/-- The black that FILL shows in a format: zero, with chroma at its middle in YCbCr. DESIGN CHOICE (log entry 29). -/
def blackOf (fmt : Nat) : Nat := if fmt = 0 then 0 else 2 ^ 19 * 2 ^ 20 + 2 ^ 19 * 2 ^ 40

/-- The lowest address of region 1 at which a ring of `len` bytes overlaps nothing. DESIGN CHOICE (log entry 29). -/
def freeRange (cs : List Cfg) (len : Nat) : Option Nat :=
  let rs := cs.flatMap Cfg.ranges
  let starts := 0 :: rs.map fun r => ceilDiv (r.2.2.1 + r.2.2.2) 4096 * 4096
  leastOf (starts.filter fun a => decide (a + len ≤ region2) && rs.all fun r => decide (a + len ≤ r.2.2.1) || decide (r.2.2.1 + r.2.2.2 ≤ a))

/-- The capture ring that auto-sync uses: the channel's own, or a new one; none where the channel's ring cannot serve. -/
def Dev.syncRing (cs : List Cfg) (c : Cfg) (s : Nat) (d : Desc) (v : Dev) : Option (List StagedOp) :=
  let pins := if d.scan = 0 then 1 else 2
  match smFind s c.caps with
  | some k => if k.enable = 1 then some [] else none
  | none =>
    let k : CapCfg := { channel := s, enable := 1, ringLen := 2 + pins }
    if v.hbmOff then none else (freeRange cs (k.ringLen * capSlotBytes k d)).map fun a => [{ code := 0x0501, params := writeCapCfg { k with ringBase := a, slotBytes := capSlotBytes k d } }]

/-- The channel count of an ingress stream's declared audio, up to 32 (R154). -/
def Dev.sourceChannels (s : Nat) (v : Dev) : Nat := (v.is s).groups.foldl (fun m g => max m (8 * g.1 + g.2.2 / 2)) 0

/-- What auto-sync claims on a head and slot of a cluster, as operations by unit (R154, R263, R286). -/
def syncOps (at_ e s h n chans : Nat) (t : TimingCfg) (old : Desc) (siting : Nat) (ring : List StagedOp) (p : List Byte) (c : Cfg) : List UnitOp :=
  let col : ColourCfg := { head := h, outFormat := old.colourFormat, outDepth := old.bitDepth, colorimetry := old.colorimetry, transfer := old.transfer,
                           range := old.range, siting := old.siting }
  let f : LayerCfg := { slot := n, head := h, enable := 1, alphaMode := 2, notReadyPolicy := 2, dstWidth := t.hActive, dstHeight := t.vActive,
                        srcWidth := t.hActive, srcHeight := t.vActive, layerAlpha := 65535, scaler := 255, chromaSiting := siting, seamSlot := 0xFFFF,
                        fillColour := blackOf old.colourFormat, sourceKind := 1, source := s }
  let op (u : UnitId) (code : Nat) (q : List Byte) : UnitOp := { at_ := at_, unit := u, op := { code := code, params := q } }
  let caps := ring.map fun o => ({ at_ := at_, unit := .capture s, op := o } : UnitOp)
  let heads := [op (.head h) 0x0801 (writeTimingCfg t), op (.head h) 0x0802 (writeColourCfg col), op (.head h) 0x0701 (writeLayerCfg f)]
  let c1 := applyOps ((caps ++ heads).map (·.op)) c
  caps ++ heads ++ [{ at_ := at_, unit := .head h, op := granOp n f none c1 }] ++
    ((List.range chans).map fun k => op (.audioChannel (32 * e + k)) 0x0901
      (writeAudioChCfg { channel := 32 * e + k, sourceKind := 3, source := k, refSlot := 0xFFFF, delayMaxMs := 250 })) ++
    [op (.take e) opSync (p ++ toBE 2 h ++ toBE 2 n ++ toBE 2 (if ring.isEmpty then 0xFFFF else s) ++ toBE 2 chans)]

/-- A failed claim or check of auto-sync: ST_NOT_SYNC with the check that failed (R154). -/
def syncFail (check e : Nat) : Fail := { status := .notSync, check := check, kind := 3, index := e }

/-- Auto-sync for one take (R154): `held` are the configurations that count besides `old`, `us` the operations so far. -/
def Dev.autoSync (held : List Cfg) (old : Cfg) (us : List UnitOp) (at_ : Nat) (p : List Byte) (v : Dev) : Except Fail (List UnitOp) :=
  let e := fieldU p 0 2
  let s := fieldU p 4 2
  let cur := applyOps (us.map (·.op)) old
  let src := (cur.route e).source
  match v.heldFormat src cur, smFind s cur.ingress with
  | some d, some i =>
    if fieldU p 2 1 != 1 || !syncApplies d i.expected then .error (syncFail 0 e)
    else
      let cs := held ++ [old, cur]
      let chans := min 32 (v.sourceChannels s)
      if (List.range chans).any fun k => cs.any fun c => match smFind (32 * e + k) c.audio with | some a => a.sourceKind != 3 | none => false then
        .error (syncFail 2 e)
      else if chans != 0 && (v.domainOff 28 || v.domainOff 7) then .error (syncFail 2 e)
      else match v.syncRing cs cur s i.expected with
        | none => .error (syncFail 2 e)
        | some ring =>
          let try_ (k : Nat) : Except Fail (List UnitOp) :=
            if v.domainOff (quadrantDomain k) then .error (syncFail 2 e)
            else match (List.range 8).map (fun i => 8 * k + i) |>.find? (headFree cs), (List.range 32).map (fun i => 32 * k + i) |>.find? (slotFree cs) with
            | some h, some n =>
              (match v.syncTc h src d with
              | none => .error (syncFail 3 e)
              | some t =>
                let ops := syncOps at_ e s h n chans t d i.expected.siting ring p cur
                let new := applyOps (ops.map (·.op)) cur
                let x : AdmCtx := { held := held, old := old, new := new, dev := v }
                (match (if x.ringOk s then none else some (syncFail 1 e)).orElse fun _ => (v.check4 new).orElse fun _ => checkSums x.all with
                | some f => .error (syncFail f.check e)
                | none => .ok ops))
            | _, _ => .error (syncFail 2 e)
          (List.range 32).foldl (fun (r : Except Fail (List UnitOp)) k => match r with | .ok x => .ok x | .error f => match try_ k with
            | .ok x => .ok x
            | .error g => .error (if k = 0 then g else f)) (.error (syncFail 2 e))
  | _, _ => .error (syncFail 0 e)

/-- The takes of a request, in order: each qualifies, or auto-sync replaces it (R149, R154); the index is that of the failing take. -/
def Dev.takes (eff : Nat) (held : List Cfg) (old : Cfg) (os : List StagedOp) (v : Dev) : List UnitOp → List UnitOp → Except Fail (List UnitOp)
  | done, [] => .ok done
  | done, u :: r =>
    if u.op.code != 0x0401 then v.takes eff held old os (done ++ [u]) r
    else
      let pre := applyOps (done.map (·.op)) old
      if v.searchTake eff pre (os.take u.at_) u.op.params then v.takes eff held old os (done ++ [u]) r
      else if fieldU u.op.params 3 1 = 1 then
        match v.autoSync held old done u.at_ u.op.params with
        | .ok xs => v.takes eff held old os (done ++ xs) r
        | .error f => .error { f with opIndex := u.at_ }
      else .error { status := .notSync, kind := 3, index := fieldU u.op.params 0 2, opIndex := u.at_ }

end Sys2Proof.Machine
end

