-- ==== Sys2Proof/Machine/Stage.lean ====
section
/-! DEFINITION. Staged transactions and commits (R423 to R431): admission as one operation, STAGE., GROUP.COMMIT, and the boundaries
that come at E itself. -/
namespace Sys2Proof.Machine
open Sys2Proof

/-! ### Measurement of a seal (R180) -/

/-- Whether a tile's metadata entry is valid for a number of raw sectors (R165). -/
def metaOk (raw : Nat) (b : Byte) : Bool :=
  let kind := b.toNat / 32
  let n := b.toNat % 32
  if kind = 0 then decide (1 ≤ n) && decide (n < raw) else if kind = 1 then n == 1 else kind == 2 && n == raw

/-- Sector counts of the tiles of a list of metadata entries. -/
def sectorCounts (bs : List Byte) : List Nat := bs.map fun b => b.toNat % 32

/-- Row sums of some counts, `w` to a row. -/
def rowSums (w : Nat) : Nat → List Nat → List Nat
  | 0, _ => []
  | h + 1, xs => (xs.take w).sum :: rowSums w h (xs.drop w)

/-- measured_bytes and max_row_sectors of a surface, or the first tile whose metadata is invalid (R180). -/
def measureSurface (m : List Host.Cell) (x : SurfaceSt) : Except Nat (Nat × Nat) :=
  if x.storage = 0 then .ok (x.size, 0)
  else
    let w := tilesX x.width
    let h := tilesY x.height
    let raw := rawSectors x.colourFormat x.bitDepth
    let bs := memRead m x.base (w * h)
    match bs.findIdx? fun b => !metaOk raw b with
    | some k => .error k
    | none =>
      let ns := sectorCounts bs
      .ok (metaBytes x.width x.height + 64 * ns.sum, ((rowSums w h ns).max?).getD 0)

/-- The parameters of SURF.SEAL with the measured figures. -/
def sealParams (p : List Byte) (r : Nat × Nat) : List Byte := p.take 8 ++ toBE 4 r.1 ++ toBE 2 r.2

/-- CORE.M measures the surfaces that a request seals (R180, R182): the request with the figures, or its failure. The metadata is read
through the fabric, and an uncorrectable error in it is counted and fails the request (R392, R443). -/
def sealAll (s : State) : Nat → Cfg → List StagedOp → State × Except Fail (List StagedOp)
  | _, _, [] => (s, .ok [])
  | i, pre, o :: r =>
    if o.code != 0x0602 then
      let rest := sealAll s (i + 1) (applyOp o pre) r
      (rest.1, rest.2.map (o :: ·))
    else
      let n := fieldU o.params 0 2
      match smFind n pre.statics with
      | none => (s, .error { badAt 0 5 n with opIndex := i })
      | some x =>
        let len := if x.storage = 1 then tilesX x.width * tilesY x.height else 0
        let s1 := if len = 0 then s else s.onDev (Dev.access 53 x.base len)
        match (if len = 0 then none else s.dev.badBeat x.base len) with
        | some b => (s1.onDev (Dev.eccError true b), .error { status := .memError, kind := 5, index := n, opIndex := i })
        | none =>
          match measureSurface s.mem x with
          | .error k => (s1, .error { badAt 0 20 k with opIndex := i })
          | .ok f =>
            let o' : StagedOp := { o with params := sealParams o.params f }
            let rest := sealAll s1 (i + 1) (applyOp o' pre) r
            (rest.1, rest.2.map (o' :: ·))

/-! ### Admission as one operation -/

/-- Check 1 of a request before its surfaces are measured. -/
def Dev.judgeNames (e : Nat) (os : List StagedOp) (us : List UnitOp) (v : Dev) : Option Fail :=
  let b := v.beforeAt e
  let x : AdmCtx := { held := b.1, old := b.2, new := applyOps (us.map (·.op)) b.2, dev := v }
  match requestChecks x os us with
  | some f => if f.check = 1 then some f else none
  | none => none

/-- What admission finds for a request with effective time `e` (R43, R44): the operations by unit, or the failure. -/
def admitOps (e : Nat) (search : Bool) (os : List StagedOp) (s : State) : State × Except Fail (List UnitOp) :=
  let b := s.dev.beforeAt e
  match firstFieldFail os with
  | some f => (s, .error f)
  | none =>
    match expandAll b.1 b.2 os with
    | .error (i, f) => (s, .error ((s.dev.judgeNames e os (expandFrom b.2 (applyOps os b.2) 0 b.2 os)).getD { f with opIndex := i }))
    | .ok us0 =>
      match s.dev.judgeNames e os us0 with
      | some f => (s, .error f)
      | none =>
        match sealAll s 0 b.2 os with
        | (s1, .error f) => (s1, .error f)
        | (s1, .ok os1) =>
          match expandAll b.1 b.2 os1 with
          | .error (i, f) => (s1, .error { f with opIndex := i })
          | .ok us =>
            match s1.dev.judge e os1 us with
            | some f => (s1, .error f)
            | none => if search then (s1, s1.dev.takes e b.1 b.2 os1 [] us) else (s1, .ok us)
where
  /-- The first operation whose fields break a rule. -/
  firstFieldFail (os : List StagedOp) : Option Fail :=
    os.zipIdx.findSome? fun o => (stagedBad o.1).map fun off => { badAt off 0 0 with opIndex := o.2 }

/-- The commit of some operations: the next generation, the next place in the order of admission (R37, R425). -/
def Dev.newCommit (e n : Nat) (us : List UnitOp) (v : Dev) : Commit :=
  { generation := v.daond.generation + 1, effective := e, order := v.daond.admitted, ops := us.map fun u => (u.unit, u.op), count := n,
    left := (us.map (·.unit)).eraseDups }

/-- An admission is counted. -/
def Dev.countAdmission (v : Dev) : Dev := { v with daond := { v.daond with generation := v.daond.generation + 1, admitted := v.daond.admitted + 1 } }

/-- A commit joins the queue, with the line-buffer granules that it needs (R241); one that no unit takes is done at once. -/
def Dev.enqueue (k : Commit) (v : Dev) : Dev :=
  if k.left.isEmpty then v
  else
    let v := v.assignGranules
    ({ v with daond := { v.daond with commits := queueCommit k v.daond.commits } } : Dev).assignGranules

/-- The commit record (R425). -/
def commitRecord (k : Commit) (e : Nat) : List Byte := toBE 4 k.generation.toNat ++ timeBytes e ++ toBE 2 k.count ++ zeros 2

/-- The settle margin of R34 and R35: 2 us. -/
def settleU : Nat := 2000 * nsU

/-- A request admitted with effective time `e` (R425, R426). -/
def admitAt (e : Nat) (st : Status) (os : List StagedOp) (s : State) : State × Answer :=
  match admitOps e true os s with
  | (s1, .error f) => (s1, .fail f)
  | (s1, .ok us) =>
    let k := s1.dev.newCommit e os.length us
    (s1.onDev fun v => v.countAdmission.enqueue k, .done st (commitRecord k e) false)

/-- An immediate commit: E is now plus the settle margin (R34). -/
def admitNow (os : List StagedOp) (s : State) : State × Answer := admitAt (settleU + s.dev.nowU) .ok os s

/-! ### Operations sent alone (R426) -/

/-- The row of a staged operation with a parameter length, and the bytes its row fixes with how many codes they have. -/
def stagedRow (code len : Nat) (fix : List (Nat × Byte)) (codes : Nat := 2) : OpRow := { code := code, fix := fix, codes := codes, lenOk := fun p => p.length == len }

/-- The work of a staged operation sent alone: a transaction of one operation with an IMMEDIATE commit. -/
def stagedEff (code : Nat) : Effect := fun d s => admitNow [{ code := code, params := d.params }] s

/-- STREAM.CONFIG of an ingress stream. -/
def streamConfigIngressRow : OpRow := stagedRow 0x0301 52 [(2, 0)]
/-- STREAM_CONFIG_INGRESS (R127), as a transaction of its own (R426). -/
def execStreamConfigIngress (t : Nat) (d : Datagram) (s : State) : Result := .next (serve streamConfigIngressRow (.streamConfigIngress t d) t d (stagedEff 0x0301) s)

/-- STREAM.CONFIG of an egress stream. -/
def streamConfigEgressRow : OpRow := stagedRow 0x0301 12 [(2, 1)]
/-- STREAM_CONFIG_EGRESS (R439), as a transaction of its own (R426). -/
def execStreamConfigEgress (t : Nat) (d : Datagram) (s : State) : Result := .next (serve streamConfigEgressRow (.streamConfigEgress t d) t d (stagedEff 0x0301) s)

/-- ROUTE.TAKE. -/
def routeTakeRow : OpRow := stagedRow 0x0401 8 []
/-- ROUTE_TAKE (R144), as a transaction of its own (R426). -/
def execRouteTake (t : Nat) (d : Datagram) (s : State) : Result := .next (serve routeTakeRow (.routeTake t d) t d (stagedEff 0x0401) s)

/-- CAP.CONFIG. -/
def capConfigRow : OpRow := stagedRow 0x0501 32 []
/-- CAP_CONFIG (R172), as a transaction of its own (R426). -/
def execCapConfig (t : Nat) (d : Datagram) (s : State) : Result := .next (serve capConfigRow (.capConfig t d) t d (stagedEff 0x0501) s)

/-- SURF.CREATE. -/
def surfCreateRow : OpRow := stagedRow 0x0601 64 []
/-- SURF_CREATE (R160), as a transaction of its own (R426). -/
def execSurfCreate (t : Nat) (d : Datagram) (s : State) : Result := .next (serve surfCreateRow (.surfCreate t d) t d (stagedEff 0x0601) s)

/-- SURF.SEAL. -/
def surfSealRow : OpRow := stagedRow 0x0602 8 []
/-- SURF_SEAL (R180), as a transaction of its own (R426). -/
def execSurfSeal (t : Nat) (d : Datagram) (s : State) : Result := .next (serve surfSealRow (.surfSeal t d) t d (stagedEff 0x0602) s)

/-- SURF.UNSEAL. -/
def surfUnsealRow : OpRow := stagedRow 0x0603 8 []
/-- SURF_UNSEAL (R181), as a transaction of its own (R426). -/
def execSurfUnseal (t : Nat) (d : Datagram) (s : State) : Result := .next (serve surfUnsealRow (.surfUnseal t d) t d (stagedEff 0x0603) s)

/-- SURF.DELETE. -/
def surfDeleteRow : OpRow := stagedRow 0x0604 8 []
/-- SURF_DELETE (R181), as a transaction of its own (R426). -/
def execSurfDelete (t : Nat) (d : Datagram) (s : State) : Result := .next (serve surfDeleteRow (.surfDelete t d) t d (stagedEff 0x0604) s)

/-- LAYER.CONFIG. -/
def layerConfigRow : OpRow := stagedRow 0x0701 64 []
/-- LAYER_CONFIG (R198), as a transaction of its own (R426). -/
def execLayerConfig (t : Nat) (d : Datagram) (s : State) : Result := .next (serve layerConfigRow (.layerConfig t d) t d (stagedEff 0x0701) s)

/-- LAYER.LUT, load form. -/
def layerLutLoadRow : OpRow := stagedRow 0x0702 4108 [(3, 0)]
/-- LAYER_LUT_LOAD (R209), as a transaction of its own (R426). -/
def execLayerLutLoad (t : Nat) (d : Datagram) (s : State) : Result := .next (serve layerLutLoadRow (.layerLutLoad t d) t d (stagedEff 0x0702) s)

/-- LAYER.MATRIX. -/
def layerMatrixRow : OpRow := stagedRow 0x0703 64 []
/-- LAYER_MATRIX (R212), as a transaction of its own (R426). -/
def execLayerMatrix (t : Nat) (d : Datagram) (s : State) : Result := .next (serve layerMatrixRow (.layerMatrix t d) t d (stagedEff 0x0703) s)

/-- LAYER.SYNTH. -/
def layerSynthRow : OpRow := stagedRow 0x0704 32 []
/-- LAYER_SYNTH (R215), as a transaction of its own (R426). -/
def execLayerSynth (t : Nat) (d : Datagram) (s : State) : Result := .next (serve layerSynthRow (.layerSynth t d) t d (stagedEff 0x0704) s)

/-- LAYER.SCALER, op 0. -/
def layerScalerSetRow : OpRow := stagedRow 0x0705 16 [(2, 0)] 3
/-- LAYER_SCALER_SET (R229), as a transaction of its own (R426). -/
def execLayerScalerSet (t : Nat) (d : Datagram) (s : State) : Result := .next (serve layerScalerSetRow (.layerScalerSet t d) t d (stagedEff 0x0705) s)

/-- LAYER.COEFF, load form. -/
def layerCoeffLoadRow : OpRow := stagedRow 0x0706 1032 [(3, 0)]
/-- LAYER_COEFF_LOAD (R232), as a transaction of its own (R426). -/
def execLayerCoeffLoad (t : Nat) (d : Datagram) (s : State) : Result := .next (serve layerCoeffLoadRow (.layerCoeffLoad t d) t d (stagedEff 0x0706) s)

/-- HEAD.TIMING. -/
def headTimingRow : OpRow := stagedRow 0x0801 80 []
/-- HEAD_TIMING (R247), as a transaction of its own (R426). -/
def execHeadTiming (t : Nat) (d : Datagram) (s : State) : Result := .next (serve headTimingRow (.headTiming t d) t d (stagedEff 0x0801) s)

/-- HEAD.COLOUR. -/
def headColourRow : OpRow := stagedRow 0x0802 84 []
/-- HEAD_COLOUR (R222), as a transaction of its own (R426). -/
def execHeadColour (t : Nat) (d : Datagram) (s : State) : Result := .next (serve headColourRow (.headColour t d) t d (stagedEff 0x0802) s)

/-- HEAD.SR, op 1. -/
def headSrEnterRow : OpRow := stagedRow 0x0803 8 [(2, 1)]
/-- HEAD_SR_ENTER (R270), as a transaction of its own (R426). -/
def execHeadSrEnter (t : Nat) (d : Datagram) (s : State) : Result := .next (serve headSrEnterRow (.headSrEnter t d) t d (stagedEff 0x0803) s)

/-- HEAD.SR, op 0. -/
def headSrExitRow : OpRow := stagedRow 0x0803 8 [(2, 0)]
/-- HEAD_SR_EXIT (R271), as a transaction of its own (R426). -/
def execHeadSrExit (t : Nat) (d : Datagram) (s : State) : Result := .next (serve headSrExitRow (.headSrExit t d) t d (stagedEff 0x0803) s)

/-- AUDIO.CHANNEL. -/
def audioChannelRow : OpRow := stagedRow 0x0901 24 []
/-- AUDIO_CHANNEL (R284), as a transaction of its own (R426). -/
def execAudioChannel (t : Nat) (d : Datagram) (s : State) : Result := .next (serve audioChannelRow (.audioChannel t d) t d (stagedEff 0x0901) s)

/-- AUDIO.STREAM. -/
def audioStreamRow : OpRow := stagedRow 0x0902 16 []
/-- AUDIO_STREAM (R288), as a transaction of its own (R426). -/
def execAudioStream (t : Nat) (d : Datagram) (s : State) : Result := .next (serve audioStreamRow (.audioStream t d) t d (stagedEff 0x0902) s)

/-- AUDIO.TONE. -/
def audioToneRow : OpRow := stagedRow 0x0903 16 []
/-- AUDIO_TONE (R301), as a transaction of its own (R426). -/
def execAudioTone (t : Nat) (d : Datagram) (s : State) : Result := .next (serve audioToneRow (.audioTone t d) t d (stagedEff 0x0903) s)
/-! ### STAGE. (R423 to R425, R428) -/

/-- A change to the Daond engine. -/
def State.onDaond (f : DaondSt → DaondSt) (s : State) : State := s.onDev fun v => { v with daond := f v.daond }

/-- STAGE.OPEN. -/
def stageOpenRow : OpRow := { code := 0x0F01, core := .c, lenOk := fun p => p.length == 0, asleep := true }
/-- The work of STAGE.OPEN. -/
def stageOpenEff : Effect := fun _ s =>
  match s.dev.daond.open_ with
  | some _ => (s, .fail { status := .badParam, check := 1 })
  | none => (s.onDaond fun q => { q with open_ := some {} }, .ok [])
/-- STAGE_OPEN (R423). -/
def execStageOpen (t : Nat) (d : Datagram) (s : State) : Result := .next (serve stageOpenRow (.stageOpen t d) t d stageOpenEff s)

/-- What parsing the records of STAGE.ADD finds. -/
inductive AddParse where
  /-- The operations. -/
  | ops (os : List StagedOp)
  /-- A record that discards the transaction. -/
  | bad (f : Fail)
  deriving DecidableEq, Repr

/-- The records of STAGE.ADD (R424): the first argument bounds their number, `i` is the place of the next in the transaction and `pos`
its place in the parameters, which a failure names (R421). -/
def parseAdd : Nat → Nat → Nat → List Byte → AddParse
  | 0, _, _, _ => .ops []
  | k + 1, i, pos, p =>
    let short : AddParse := .bad { status := .badLength, opIndex := i, field := pos + 2 }
    let wrong : AddParse := .bad { badField pos with opIndex := i }
    if p.isEmpty then .ops []
    else if p.length < 4 then short
    else
      let code := fieldU p 0 2
      let len := fieldU p 2 2
      let q := (p.drop 4).take len
      if stagedRead code q then wrong
      else match stagedLen code q with
        | none => wrong
        | some ls =>
          if !ls.contains len || q.length != len then short
          else match parseAdd k (i + 1) (pos + 4 + len) (p.drop (4 + len)) with
            | .ops os => .ops ({ code := code, params := q } :: os)
            | .bad f => .bad f

/-- Bytes of some operations in the staging store, record headers included. -/
def stageBytes (os : List StagedOp) : Nat := (os.map fun o => 4 + o.params.length).sum

/-- STAGE.ADD. -/
def stageAddRow : OpRow := { code := 0x0F02, core := .c, lenOk := fun _ => true, asleep := true }
/-- The work of STAGE.ADD (R41, R424). -/
def stageAddEff : Effect := fun d s =>
  match s.dev.daond.open_ with
  | none => (s, .fail (plainFail .noStage))
  | some tx =>
    match parseAdd (d.params.length + 1) tx.ops.length 0 d.params with
    | .bad f => (s.onDaond fun q => { q with open_ := none }, .fail f)
    | .ops os =>
      let all := tx.ops ++ os
      let store := stageBytes all + (s.dev.daond.prepared.map (·.bytes)).sum
      if all.length > 4096 || store > 8388608 then (s, .fail (plainFail .stageFull))
      else (s.onDaond fun q => { q with open_ := some { ops := all } }, .ok (toBE 2 all.length ++ zeros 2 ++ toBE 4 (stageBytes all)))
/-- STAGE_ADD (R424). -/
def execStageAdd (t : Nat) (d : Datagram) (s : State) : Result := .next (serve stageAddRow (.stageAdd t d) t d stageAddEff s)

/-- Fields of STAGE.COMMIT in a mode (R425). -/
def commitBad (mode : Nat) (p : List Byte) : Option Nat :=
  (firstBad [⟨0, 1, .unsigned, [(0, 2)]⟩, ⟨1, 1, .reserved, []⟩, if mode = 2 then ⟨2, 2, .unsigned, []⟩ else ⟨2, 2, .reserved, []⟩,
    if mode = 1 then ⟨4, 12, .time, []⟩ else ⟨4, 12, .reserved, []⟩,
    if mode = 2 then ⟨16, 2, .unsigned, [(1, 3600)]⟩ else ⟨16, 2, .reserved, []⟩, ⟨18, 2, .reserved, []⟩] p)

/-- Whether an execution time is less than 1 ms, or more than 86,400 s, after now (R36, R425). -/
def Dev.timeVerdict (e : Nat) (v : Dev) : Option Fail :=
  if e < 1000000 * nsU + v.nowU then some (plainFail .late)
  else if 86400 * secU + v.nowU < e then some (badField 4) else none

/-- STAGE.COMMIT in a mode. A command of the wrong length closes the transaction too, so its length is judged with its work (R425). -/
def stageCommitRow (mode : Byte) : OpRow :=
  { code := 0x0F03, fix := [(0, mode)], codes := 3, changes := fun p => p.length == 20, lenOk := fun _ => true }

/-- The transaction of a STAGE.COMMIT, closed whatever follows (R425). -/
def withStage (mode : Nat) (k : List StagedOp → Datagram → State → State × Answer) : Effect := fun d s =>
  if d.params.length != 20 then (s.onDaond fun q => { q with open_ := none }, .fail { status := .badLength, opIndex := 0xFFFF })
  else match s.dev.daond.open_ with
    | none => (s, .fail (plainFail .noStage))
    | some tx =>
      let s := s.onDaond fun q => { q with open_ := none }
      match commitBad mode d.params with
      | some o => (s, .fail (badField o))
      | none => if tx.ops.isEmpty then (s, .fail { status := .badParam, check := 1 }) else k tx.ops d s

/-- The work of an IMMEDIATE commit. -/
def stageCommitImmediateEff : Effect := withStage 0 fun os _ s => admitNow os s
/-- STAGE_COMMIT_IMMEDIATE (R425). -/
def execStageCommitImmediate (t : Nat) (d : Datagram) (s : State) : Result :=
  .next (serve (stageCommitRow 0) (.stageCommitImmediate t d) t d stageCommitImmediateEff s)

/-- The work of a TIMED commit. -/
def stageCommitTimedEff : Effect := withStage 1 fun os d s =>
  let e := fieldT d.params 4
  match s.dev.timeVerdict e with
  | some f => (s, .fail f)
  | none => admitAt e .accepted os s
/-- STAGE_COMMIT_TIMED (R425). -/
def execStageCommitTimed (t : Nat) (d : Datagram) (s : State) : Result :=
  .next (serve (stageCommitRow 1) (.stageCommitTimed t d) t d stageCommitTimedEff s)

/-- The end of the queue: after every commit admitted. -/
def Dev.queueEnd (v : Dev) : Nat := (v.daond.commits.map (·.effective)).foldl max v.nowU

/-- A take with auto_sync in a PREPARE transaction (R149). -/
def syncInPrepare (os : List StagedOp) : Option Fail :=
  (os.zipIdx.find? fun o => o.1.code == 0x0401 && fieldU o.1.params 3 1 == 1).map fun o => { badAt 3 0 0 with opIndex := o.2 }

/-- A transaction is prepared: it holds its place and its granules (R241, R427). -/
def Dev.prepare (q : Prepared) (v : Dev) : Dev :=
  let v := v.assignGranules
  ({ v with daond := { v.daond with prepared := v.daond.prepared ++ [q] } } : Dev).assignGranules

/-- The work of a PREPARE commit (R425, R427). -/
def stageCommitPrepareEff : Effect := withStage 2 fun os d s =>
  let g := fieldU d.params 2 2
  if s.dev.daond.prepared.length ≥ 16 || s.dev.daond.prepared.any fun q => q.groupId == g then (s, .fail (badField 2))
  else match syncInPrepare os with
    | some f => (s, .fail f)
    | none =>
      match admitOps s.dev.queueEnd false os s with
      | (s1, .error f) => (s1, .fail f)
      | (s1, .ok us) =>
        let k := s1.dev.newCommit 0 os.length us
        let q : Prepared := { groupId := g, holdS := fieldU d.params 16 2, since := s1.dev.clk.now, commit := k, bytes := stageBytes os }
        (s1.onDev fun v => v.countAdmission.prepare q,
          .done .accepted (commitRecord k 0) false)
/-- STAGE_COMMIT_PREPARE (R427). -/
def execStageCommitPrepare (t : Nat) (d : Datagram) (s : State) : Result :=
  .next (serve (stageCommitRow 2) (.stageCommitPrepare t d) t d stageCommitPrepareEff s)

/-- Fields of STAGE.ABORT (R428). -/
def abortBad (p : List Byte) : Option Nat := firstBad [⟨1, 1, .reserved, []⟩, ⟨4, 4, .reserved, []⟩] p

/-- STAGE.ABORT with a target. -/
def stageAbortRow (target : Byte) : OpRow := { code := 0x0F04, fix := [(0, target)], codes := 2, lenOk := len8 }
/-- The work of STAGE.ABORT of the open transaction. -/
def stageAbortOpenEff : Effect := fun d s =>
  match abortBad d.params with
  | some o => (s, .fail (badField o))
  | none => if s.dev.daond.open_.isSome then (s.onDaond fun q => { q with open_ := none }, .ok []) else (s, .fail (plainFail .noStage))
/-- STAGE_ABORT_OPEN (R428). -/
def execStageAbortOpen (t : Nat) (d : Datagram) (s : State) : Result :=
  .next (serve (stageAbortRow 0) (.stageAbortOpen t d) t d stageAbortOpenEff s)

/-- The prepared transaction of a group is prepared no more. -/
def Dev.dropPrepared (g : Nat) (v : Dev) : Dev :=
  { v with daond := { v.daond with prepared := v.daond.prepared.filter fun x => x.groupId != g } }

/-- The work of STAGE.ABORT of a prepared transaction. -/
def stageAbortPreparedEff : Effect := fun d s =>
  match abortBad d.params with
  | some o => (s, .fail (badField o))
  | none =>
    let g := fieldU d.params 2 2
    if s.dev.daond.prepared.any fun q => q.groupId == g then
      (s.onDev (Dev.dropPrepared g), .ok [])
    else (s, .fail (plainFail .noStage))
/-- STAGE_ABORT_PREPARED (R428). -/
def execStageAbortPrepared (t : Nat) (d : Datagram) (s : State) : Result :=
  .next (serve (stageAbortRow 1) (.stageAbortPrepared t d) t d stageAbortPreparedEff s)

/-- The record of STAGE.STATUS (R428). -/
def stageRecord (v : Dev) : List Byte :=
  let q := v.daond
  let os := match q.open_ with | some x => x.ops | none => []
  let one (x : Prepared) : List Byte := toBE 2 x.groupId ++ toBE 2 ((x.since + secQ * x.holdS - v.clk.now) / secQ)
  toBE 1 (b01 q.open_.isSome) ++ toBE 1 q.prepared.length ++ toBE 2 os.length ++ toBE 4 (stageBytes os) ++ toBE 2 (q.commits.length + q.prepared.length) ++ zeros 2 ++
  q.prepared.flatMap one ++ (List.replicate (16 - q.prepared.length) ([0xFF, 0xFF, 0, 0] : List Byte)).flatten ++ toBE 4 q.generation.toNat

/-- STAGE.STATUS. -/
def stageStatusRow : OpRow := { code := 0x0F05, core := .c, changes := fun _ => false, lenOk := fun p => p.length == 0, asleep := true }
/-- The work of STAGE.STATUS. -/
def stageStatusEff : Effect := fun _ s => (s, .ok (stageRecord s.dev))
/-- STAGE_STATUS (R428). -/
def execStageStatus (t : Nat) (d : Datagram) (s : State) : Result := .next (serve stageStatusRow (.stageStatus t d) t d stageStatusEff s)

/-- STAGE_EXPIRED (R427): a prepared transaction whose hold has passed is discarded, with a system event. -/
def execStageExpired (t : Nat) (group : Nat) (s : State) : Result :=
  .next (match s.dev.daond.prepared.find? fun x => x.groupId == group with
    | some x => s.due (x.since + secQ * x.holdS) t (State.onDev fun v => (v.dropPrepared group).raise evStageExpired group)
    | none => s.arrive t)

/-! ### GROUP.COMMIT (R429 to R431) -/

/-- Fields of GROUP.COMMIT. -/
def groupBad (p : List Byte) : Option Nat := firstBad [⟨2, 2, .reserved, []⟩, ⟨4, 12, .time, []⟩, ⟨16, 4, .reserved, []⟩] p

/-- The first take of a prepared transaction that finds no window for an E (R149, R430). -/
def Dev.groupTake (e : Nat) (k : Commit) (v : Dev) : Option Nat :=
  let old := (v.beforeAt e).2
  let os := k.ops.map (·.2)
  (os.zipIdx.find? fun o => o.1.code == 0x0401 && !v.searchTake e (applyOps (os.take o.2) old) (os.take o.2) o.1.params).map fun o => fieldU o.1.params 0 2

/-- The timed commit at E that a prepared transaction becomes (R430). -/
def Prepared.timed (e : Nat) (q : Prepared) : Commit := { q.commit with effective := e }

/-- GROUP.COMMIT: under the lease by its source alone (R430). -/
def groupCommitRow : OpRow := { code := 0x1001, lenOk := fun p => p.length == 148 }
/-- The work of GROUP.COMMIT on a member. -/
def groupCommitEff : Effect := fun d s =>
  match groupBad d.params with
  | some o => (s, .fail (badField o))
  | none =>
    let g := fieldU d.params 0 2
    match s.dev.daond.prepared.find? fun q => q.groupId == g with
    | none => (s, .fail { status := .noStage, kind := 21, index := g })
    | some q =>
      let e := fieldT d.params 4
      match s.dev.timeVerdict e with
      | some f => (s, .fail f)
      | none =>
        match s.dev.groupTake e q.commit with
        | some n => (s, .fail { status := .notSync, kind := 3, index := n })
        | none =>
          (s.onDev fun v => (v.dropPrepared g).enqueue (q.timed e), .done .accepted (commitRecord (q.timed e) e) false)
/-- GROUP_COMMIT (R430). -/
def execGroupCommit (t : Nat) (d : Datagram) (s : State) : Result := .next (serve groupCommitRow (.groupCommit t d) t d groupCommitEff s)

/-! ### COMMIT_EFFECTIVE_TIME (R34, R129, R148, R174, R182, R200, R256) -/

/-- Whether neither source of the takes due on an egress stream imposes a constraint (R148). -/
def Dev.takeFree (e : Nat) (v : Dev) : Bool :=
  match v.due (.take e) with
  | [] => false
  | k :: ks =>
    let now := v.clk.now
    (v.sourceGaps (v.cfg.route e).source [] now now).isNone && (v.sourceGaps (v.takeTo e (k :: ks)) [] now now).isNone

/-- The E of a commit comes: a unit whose boundary is a CORE cycle takes it; every other waits for its own boundary. -/
def Dev.unitAtE (u : UnitId) (v : Dev) : Dev :=
  match u with
  | .head h => v.offHeadLive h
  | .take e => if v.takeFree e then v.takeNow e else v
  | .ingress s => if (v.is s).state == .locked then v else v.ingressLive s
  | .egress e => if v.carries e then v else v.egressLive e
  | .capture c => if (v.is c).state == .locked then v else v.captureLive c 0
  | .surface n => v.surfaceLive n
  | .slot n => v.slotLive n
  | .audioChannel _ => v
  | .audioStream _ => v
  | .tone g => if v.cfg.audio.any fun a => a.2.sourceKind == 2 && a.2.source == g then v
      else (v.toneLive g 0).1

/-- The first CORE cycle at or after the E of the first commit that a unit waits for (R34, R37). -/
def Dev.firstE (u : UnitId) (v : Dev) : Option Nat :=
  (v.daond.commits.find? fun k => k.left.contains u).map fun k => Machine.coreUp (v.clk.instantOf (ceilDiv (1000 * k.effective - 500) 16384))

/-- COMMIT_EFFECTIVE_TIME. -/
def execCommitEffectiveTime (t : Nat) (u : UnitId) (s : State) : Result :=
  .next (match s.dev.firstE u with
    | some d => if s.dev.mediaOn then s.due d t (State.onDev (Dev.unitAtE u)) else s.arrive t
    | none => s.arrive t)

end Sys2Proof.Machine
end

