-- ==== Sys2Proof/Machine/Settings.lean ====
section
/-! DEFINITION. The settings store (R486 to R494): its sections, loading and writing of copies, SET.STATUS, SET.READ, SET.WRITE and
the presets. -/
namespace Sys2Proof.Machine
open Sys2Proof

/-! ### Sections as bytes (R486, R493) -/

/-- The NETWORK section (R486). -/
def Sections.networkBytes (x : Sections) : List Byte := writeNetCfg { x.network with op := 0 }
/-- A lane's record of the BOARD_PROFILE section (R83). -/
def Sections.lane (x : Sections) (n : Nat) : List Byte := (smFind n x.profile).getD defaultProfile
/-- The BOARD_PROFILE section: 512 records of 12 bytes. -/
def Sections.profileBytes (x : Sections) : List Byte := (List.range 512).flatMap x.lane
/-- The BOOT section (R493). -/
def Sections.bootBytes (x : Sections) : List Byte := toBE 2 x.bootPreset ++ toBE 1 (b01 x.hostConfirm) ++ zeros 13
/-- The TC_FREQ section (R493). -/
def Sections.freqBytes (x : Sections) : List Byte :=
  (List.range 8).flatMap fun k => match smFind k x.tcFreq with
    | some f => toBE 1 1 ++ zeros 3 ++ toBEs 4 f
    | none => zeros 8
/-- The operations of a preset. -/
def Sections.preset (x : Sections) (n : Nat) : List StagedOp := smGet [] n x.presets
/-- The PRESET_DIR section (R493). -/
def Sections.dirBytes (x : Sections) : List Byte :=
  (List.range 1024).flatMap fun n => toBE 2 (x.preset n).length ++ zeros 2 ++ toBE 4 (stageBytes (x.preset n))
/-- Bytes of the preset pool: 12 MiB (R486). -/
def presetPool : Nat := 12582912
/-- Bytes of the pool in use. -/
def Sections.poolUsed (x : Sections) : Nat := (x.presets.map fun e => stageBytes e.2).sum
/-- Bytes of a section (R486, R493). -/
def sectionSize (k : Nat) : Nat := if k = 0 then 72 else if k = 1 then 6144 else if k = 2 then 16 else if k = 3 then 64 else 8192
/-- A section's bytes. -/
def Sections.bytes (x : Sections) (k : Nat) : List Byte :=
  if k = 0 then x.networkBytes else if k = 1 then x.profileBytes else if k = 2 then x.bootBytes else if k = 3 then x.freqBytes else x.dirBytes

/-- Whether a board-profile record keeps R83: its reserved bits are zero. -/
def profileOk (r : List Byte) : Bool := fieldU r 0 2 % 8 == 0 && fieldU r 2 2 % 256 == 0
/-- Whether a BOOT section keeps R493. -/
def bootOkBytes (p : List Byte) : Bool :=
  (fieldU p 0 2 < 1024 || fieldU p 0 2 == 0xFFFF) && fieldU p 2 1 < 2 && fieldU p 3 13 == 0

/-! ### Copies (R487 to R489) -/

/-- schema_min and schema_max of the running CORE.C firmware (R469). -/
def Dev.schemas (v : Dev) : Nat × Nat := let c := smGet ({} : CompSt) 1 v.fw.comps; c.schema.getD c.active (0, 0)

/-- The header of a copy but for its digest (R487), and its contents in the layout of log entry 7. -/
def CopySt.bytes (c : CopySt) : List Byte :=
  let x := c.sections
  toBE 4 0x56455453 ++ toBE 2 c.schema ++ zeros 2 ++ toBE 8 c.sequence ++ zeros 16 ++ x.networkBytes ++ x.profileBytes ++ x.salt ++ x.hash ++
  toBE 8 x.reservedEnd ++ toBE 1 (b01 x.retired) ++ x.bootBytes ++ x.freqBytes ++ x.presets.flatMap fun e => toBE 2 e.1 ++ e.2.flatMap fun o => toBE 2 o.code ++ o.params

/-- The valid copy with the higher sequence (R488). -/
def SettingsSt.newest (q : SettingsSt) : Option (Nat × CopySt) :=
  (q.copies.zipIdx.filter fun c => c.1.valid).foldl
    (fun (b : Option (Nat × CopySt)) c => match b with
      | some x => if x.2.sequence < c.1.sequence then some (c.2, c.1) else b
      | none => some (c.2, c.1)) none

/-- What an unreadable copy gives: its stable area, with default BOOT, TC_FREQ and PRESETS sections (R488, R491). -/
def Sections.stable (x : Sections) : Sections :=
  { network := x.network, profile := x.profile, salt := x.salt, hash := x.hash, reservedEnd := x.reservedEnd, retired := x.retired }

/-- The settings load (R488): the newest valid copy, its stable area when its schema cannot be read, or the defaults, which retire
attestation (R503). -/
def Dev.loadSettings (v : Dev) : Dev :=
  let q := v.settings
  let put (q : SettingsSt) (v : Dev) : Dev := { v with settings := q, sec := { v.sec with nextIndex := q.live.reservedEnd } }
  match q.newest with
  | none =>
    (put { q with live := { retired := true }, loaded := 0xFF, provisional := false, pending := false, loadedSeq := 0, loadedDigest := zeros 32 } v).raise
      evSettings (2 ^ 32)
  | some (i, c) =>
    let ok := decide (v.schemas.1 ≤ c.schema) && decide (c.schema ≤ v.schemas.2)
    put { q with live := if ok then c.sections else c.sections.stable, loaded := i, provisional := !ok, pending := false, loadedSeq := c.sequence
                 loadedDigest := Config.shake256 c.bytes } v

/-- Whether the device may write the store now (R484, R491). In the provisional state the one write that is ever pending is the new copy
that its end asks for, which a trial does not hold back. -/
def Dev.storeOpen (v : Dev) : Bool := v.settings.provisional || !v.onTrial
/-- The first instant at which a write may start (R489). -/
def SettingsSt.writeFrom (q : SettingsSt) : Nat := match q.lastWriteT with | some w => 10 * secQ + w | none => 0

/-- A write of the contents in force starts: to the older copy, with the next sequence; the copy is not valid until it is complete. -/
def Dev.startWrite (v : Dev) : Dev :=
  let q := v.settings
  let i := match q.newest with | some x => 1 - x.1 | none => 0
  let seq := match q.newest with | some x => x.2.sequence + 1 | none => 1
  { v with settings := { q with pending := false, writing := some i, lastWriteT := some v.clk.now, lastWriteU := v.nowU
                                copies := q.copies.set i { valid := false, schema := v.schemas.2, sequence := seq, sections := q.live } } }

/-- Whether a write may start now. -/
def Dev.writeReady (v : Dev) : Bool := v.settings.writing.isNone && decide (v.settings.writeFrom ≤ v.clk.now)

/-- SETTINGS_WRITE_START (R489): at the first instant at least 10 s after the start of the previous write. -/
def execSettingsWriteStart (t : Nat) (s : State) : Result :=
  .next (s.due s.dev.settings.writeFrom t (State.onDev fun v =>
    if v.alive && v.coreUp .c && v.settings.pending && v.storeOpen && v.writeReady then v.startWrite else v))

/-- A new copy ends the provisional state (R491): written at once, or when R489 lets the next write start. -/
def Dev.renewStore (v : Dev) : Dev := if v.writeReady then v.startWrite else { v with settings := { v.settings with pending := true } }

/-- A copy write completes, with its event; in the provisional state it ends that state (R489, R491). -/
def Dev.writeDone (v : Dev) : Dev :=
  match v.settings.writing with
  | none => v
  | some i =>
    let q := v.settings
    let v := { v with settings := { q with writing := none, copies := q.copies.modify i fun c => { c with valid := true } } }.raise evSettings i
    let c := q.copies.getD i {}
    if v.settings.provisional && decide (v.schemas.1 ≤ c.schema) && decide (c.schema ≤ v.schemas.2) then (v.withState fun v => { v with settings := { v.settings with provisional := false } }).raise evSettings (2 * 2 ^ 32)
    else v

/-! ### SET.STATUS (R490) -/

/-- The record of SET.STATUS. -/
def setRecord (v : Dev) : List Byte :=
  let q := v.settings
  let c (i : Nat) : CopySt := q.copies.getD i {}
  toBE 1 q.loaded ++ toBE 1 (b01 q.provisional) ++ toBE 1 (b01 (c 0).valid + 2 * b01 (c 1).valid) ++ toBE 1 (b01 q.pending) ++
  toBE 2 v.schemas.1 ++ toBE 2 v.schemas.2 ++ toBE 8 (if (c 0).valid then (c 0).sequence else 0) ++ toBE 8 (if (c 1).valid then (c 1).sequence else 0) ++
  toBE 2 (c 0).schema ++ toBE 2 (c 1).schema ++ toBE 4 (if q.pending then (q.writeFrom - v.clk.now) / msQ else 0) ++
  toBE 4 (presetPool - q.live.poolUsed) ++ timeBytes q.lastWriteU

/-- SET.STATUS. -/
def setStatusRow : OpRow :=
  { code := 0x1501, core := .c, lease := fun _ => false, changes := fun _ => false, lenOk := fun p => p.length == 0, asleep := true, repair := true }
/-- The work of SET.STATUS. -/
def setStatusEff : Effect := fun _ s => (s, .ok (setRecord s.dev))
/-- SET_STATUS (R490). -/
def execSetStatus (t : Nat) (d : Datagram) (s : State) : Result := .next (serve setStatusRow (.setStatus t d) t d setStatusEff s)

/-! ### SET.READ and SET.WRITE (R492) -/

/-- Field rules of the header (R492). -/
def setBad (write : Bool) (p : List Byte) : Option Nat :=
  let k := fieldU p 0 1
  let n := fieldU p 8 4
  if k > 4 || (write && k != 1 && k != 2) then some 0
  else if fieldU p 1 3 != 0 then some 1
  else if fieldU p 4 4 ≥ sectionSize k then some 4
  else if n = 0 || n > 8192 || fieldU p 4 4 + n > sectionSize k then some 8
  else none

/-- SET.READ. -/
def setReadRow : OpRow :=
  { code := 0x1502, core := .c, lease := fun _ => false, changes := fun _ => false, lenOk := fun p => p.length == 12, asleep := true, repair := true }
/-- The work of SET.READ. -/
def setReadEff : Effect := fun d s =>
  match setBad false d.params with
  | some o => (s, .fail (badField o))
  | none => (s, .ok (sliceB (s.dev.settings.live.bytes (fieldU d.params 0 1)) (fieldU d.params 4 4) (fieldU d.params 8 4)))
/-- SET_READ (R492). -/
def execSetRead (t : Nat) (d : Datagram) (s : State) : Result := .next (serve setReadRow (.setRead t d) t d setReadEff s)

/-- A section with bytes from `o` on replaced. -/
def splice (old : List Byte) (o : Nat) (new : List Byte) : List Byte := old.take o ++ new ++ old.drop (o + new.length)

/-- The board profile after a write, record by record; the offset in the parameters of the first record that breaks its rules. -/
def profileWrite (x : Sections) (o : Nat) (new : List Byte) : Except Nat (SMap (List Byte)) :=
  let first := o / 12
  let count := (o + new.length - 1) / 12 - first + 1
  let old := (List.range count).flatMap fun i => x.lane (first + i)
  let out := splice old (o - 12 * first) new
  let recs := (List.range count).map fun i => (first + i, sliceB out (12 * i) 12)
  match recs.find? fun r => !profileOk r.2 with
  | some r => .error (12 + (12 * r.1 - o))
  | none => .ok (recs.foldl (fun m r => smPut r.1 r.2 m) x.profile)

/-- SET.WRITE. -/
def setWriteRow : OpRow :=
  { code := 0x1503, core := .c, lenOk := fun p => decide (12 ≤ p.length) && p.length == 12 + fieldU p 8 4, trial := true, stores := true }
/-- The work of SET.WRITE: the section changes and the store is pending; a board profile acts at the next cold bring-up (R82). -/
def setWriteEff : Effect := fun d s =>
  let p := d.params
  match setBad true p with
  | some o => (s, .fail (badField o))
  | none =>
    let x := s.dev.settings.live
    let data := p.drop 12
    if fieldU p 0 1 = 1 then
      match profileWrite x (fieldU p 4 4) data with
      | .error o => (s, .fail (badField o))
      | .ok m => (s.onDev (Dev.changeSettings fun x => { x with profile := m }), .ok [])
    else
      let b := splice x.bootBytes (fieldU p 4 4) data
      if bootOkBytes b then
        (s.onDev (Dev.changeSettings fun x => { x with bootPreset := fieldU b 0 2, hostConfirm := fieldU b 2 1 == 1 }), .ok [])
      else (s, .fail (badField 12))
/-- SET_WRITE (R492). -/
def execSetWrite (t : Nat) (d : Datagram) (s : State) : Result := .next (serve setWriteRow (.setWrite t d) t d setWriteEff s)

/-! ### Presets (R494) -/

/-- SET.PRESET_SAVE. -/
def setPresetSaveRow : OpRow := { code := 0x1504, core := .c, lenOk := len8, trial := true, stores := true }
/-- The work of SET.PRESET_SAVE: the operations of the open transaction, which stays open. -/
def setPresetSaveEff : Effect := fun d s =>
  match firstBad [⟨0, 2, .unsigned, [(0, 1023)]⟩, ⟨2, 6, .reserved, []⟩] d.params with
  | some o => (s, .fail (badField o))
  | none =>
    match s.dev.daond.open_ with
    | none => (s, .fail (plainFail .noStage))
    | some tx =>
      let n := fieldU d.params 0 2
      let m := if tx.ops.isEmpty then smErase n s.dev.settings.live.presets else smPut n tx.ops s.dev.settings.live.presets
      if ({ s.dev.settings.live with presets := m } : Sections).poolUsed > presetPool then (s, .fail { status := .badParam, check := 1 })
      else (s.onDev (Dev.changeSettings fun x => { x with presets := m }), .ok [])
/-- SET_PRESET_SAVE (R494). -/
def execSetPresetSave (t : Nat) (d : Datagram) (s : State) : Result :=
  .next (serve setPresetSaveRow (.setPresetSave t d) t d setPresetSaveEff s)

/-- Field rules of SET.PRESET_LOAD. -/
def presetLoadBad (p : List Byte) : Option Nat :=
  firstBad [⟨0, 2, .unsigned, [(0, 1023)]⟩, ⟨2, 1, .unsigned, [(0, 1)]⟩, ⟨3, 1, .reserved, []⟩,
    if fieldU p 2 1 = 1 then ⟨4, 12, .time, []⟩ else ⟨4, 12, .reserved, []⟩] p

/-- SET.PRESET_LOAD: CORE.C hands the operations to CORE.M as one transaction (R40), so the command waits for CORE.M where CORE.M
restarts. -/
def setPresetLoadRow : OpRow := { code := 0x1505, core := .m, lenOk := fun p => p.length == 16, stores := true }
/-- The work of SET.PRESET_LOAD: the preset's operations commit as one transaction under R425. -/
def setPresetLoadEff : Effect := fun d s =>
  match presetLoadBad d.params with
  | some o => (s, .fail (badField o))
  | none =>
    let os := s.dev.settings.live.preset (fieldU d.params 0 2)
    if os.isEmpty then (s, .fail (badField 0))
    else if fieldU d.params 2 1 = 0 then admitNow os s
    else
      let e := fieldT d.params 4
      match s.dev.timeVerdict e with
      | some f => (s, .fail f)
      | none => admitAt e .accepted os s
/-- SET_PRESET_LOAD (R494). -/
def execSetPresetLoad (t : Nat) (d : Datagram) (s : State) : Result :=
  .next (serve setPresetLoadRow (.setPresetLoad t d) t d setPresetLoadEff s)

end Sys2Proof.Machine
end

