-- ==== Sys2Proof/Machine/Firmware.lean ====
section
/-! DEFINITION. Firmware (R466 to R485): images and manifests, FW.INSTALL, activation one component at a time, trials, reversion,
the restarts of the cores (R42, R479) and boot verification (R475). -/
namespace Sys2Proof.Machine
open Sys2Proof

/-! ### Images and manifests (R466, R469 to R473) -/

/-- Largest image of a component (R466). -/
def largestImage (k : Nat) : Nat :=
  if k = 0 then 0x100000 else if k = 1 || k = 3 then 0x800000 else if k = 2 then 0x400000 else 0x200000

/-- Whether a public key is the root key of a slot, not revoked, of the one signature scheme (R470). -/
def FwSt.keyOk (f : FwSt) (slot : Nat) (key : List Byte) : Bool :=
  decide (slot < 2) && !f.revoked.testBit slot && fieldU key 0 4 == Config.xmssOid && Config.shake256 key == Config.rootHash slot

/-- Whether the header fields of an image of `n` bytes are valid (R469). -/
def imageHeaderOk (p : List Byte) (n : Nat) : Bool :=
  let k := fieldU p 5 1
  fieldU p 0 4 == 0x56484E31 && fieldU p 4 1 == 1 && decide (k < 6) && decide (fieldU p 6 1 < 2) && fieldU p 7 1 == 0 &&
  decide (fieldU p 12 2 < 64) && fieldU p 14 2 == 0 && n == 136 + fieldU p 16 4 + 2820 && decide (n ≤ largestImage k) && fieldU p 20 4 == 0 &&
  (k == 1 || fieldU p 56 4 == 0) && fieldU p 60 4 == 0 && fieldU p 132 4 == 0

/-- R470: whether an image verifies. -/
def FwSt.imageOk (f : FwSt) (p : List Byte) : Bool :=
  let body := sliceB p 136 (fieldU p 16 4)
  imageHeaderOk p p.length && Config.shake256 body == sliceB p 24 32 && f.keyOk (fieldU p 6 1) (sliceB p 64 68) &&
  decide (f.epoch ≤ fieldU p 12 2) && Config.xmssVerify (sliceB p 64 68) (p.take (136 + fieldU p 16 4)) (p.drop (136 + fieldU p 16 4))

/-- Entry i of a manifest (R472). -/
def manifestEntry (p : List Byte) (i : Nat) : ManEntry :=
  let q := sliceB p (24 + 48 * i) 48
  { component := fieldU q 0 1, version := fieldU q 4 4, imageLen := fieldU q 8 4, digest := sliceB q 16 32 }

/-- The manifest that 3,200 bytes carry (R472). -/
def readManifest (p : List Byte) : Manifest :=
  { keySlot := fieldU p 6 1, flags := fieldU p 7 1, bundleId := fieldU p 8 4, minEpoch := fieldU p 12 2, trialS := fieldU p 14 2,
    entries := (List.range (fieldU p 5 1)).map (manifestEntry p) }

/-- Whether a manifest's fields are valid (R472). -/
def manifestFieldsOk (p : List Byte) : Bool :=
  let n := fieldU p 5 1
  let ts := fieldU p 14 2
  p.length == 3200 && fieldU p 0 4 == 0x56484E4D && fieldU p 4 1 == 1 && decide (1 ≤ n) && decide (n ≤ 6) && decide (fieldU p 6 1 < 2) &&
  decide (fieldU p 7 1 < 8) && decide (fieldU p 12 2 < 64) && (ts == 0 || (decide (10 ≤ ts) && decide (ts ≤ 3600))) && fieldU p 16 8 == 0 &&
  (List.range 6).all (fun i => let q := sliceB p (24 + 48 * i) 48
    if i < n then fieldU q 0 1 < 6 && fieldU q 1 3 == 0 && fieldU q 12 4 == 0 else fieldU q 0 48 == 0)

/-- R473: whether a manifest verifies. -/
def FwSt.manifestOk (f : FwSt) (p : List Byte) : Bool :=
  let m := readManifest p
  let ks := m.entries.map (·.component)
  manifestFieldsOk p && f.keyOk m.keySlot (sliceB p 312 68) && Config.xmssVerify (sliceB p 312 68) (p.take 380) (sliceB p 380 2820) &&
  bit m.flags 2 && ks.eraseDups.length == ks.length && !(ks.dropLast.contains 0) && decide (f.epoch ≤ m.minEpoch)

/-! ### Components -/

/-- A firmware component. -/
def FwSt.comp (f : FwSt) (k : Nat) : CompSt := smGet {} k f.comps
/-- A firmware component mapped. -/
def FwSt.modComp (k : Nat) (g : CompSt → CompSt) (f : FwSt) : FwSt := { f with comps := smPut k (g (f.comp k)) f.comps }
/-- A change to the firmware state. -/
def Dev.onFw (g : FwSt → FwSt) (v : Dev) : Dev := { v with fw := g v.fw }
/-- Whether the image in a slot of a component verifies now: a raised epoch or a revoked key may have ended that (R470, R482). -/
def FwSt.slotVerifies (f : FwSt) (k i : Nat) : Bool :=
  let c := f.comp k
  c.slotOk.getD i false && decide (f.epoch ≤ c.imgEpoch.getD i 0) && !f.revoked.testBit (c.imgKey.getD i 0)
/-- A component goes over to its other slot with a slot state (R485). -/
def CompSt.swap (st : Nat) (c : CompSt) : CompSt := { c with active := 1 - c.active, state := st, selfConfirmed := false }

/-- EV.SYS.FW (R504). -/
def Dev.fwEvent (code cause comp : Nat) (v : Dev) : Dev := v.raise evFw (code * 2 ^ 32 + cause * 256 + comp)

/-! ### FW.STATUS (R485) -/

/-- Entry of the bundle in activation. -/
def FwSt.entry (f : FwSt) : Option ManEntry := f.current.bind fun m => m.entries[f.index]?
/-- The component on trial. -/
def FwSt.trialComp (f : FwSt) : Option Nat := if f.onTrial then f.entry.map (·.component) else none
/-- Length of a trial in seconds (R472). -/
def FwSt.trialLen (f : FwSt) : Nat := match f.current with | some m => if m.trialS = 0 then 120 else m.trialS | none => 120

/-- The record of one component. -/
def compRecord (f : FwSt) (k : Nat) : List Byte :=
  let c := f.comp k
  toBE 1 c.active ++ toBE 1 c.state ++ toBE 1 (b01 (f.slotVerifies k (1 - c.active))) ++ toBE 1 (b01 c.selfConfirmed) ++
  toBE 4 (c.version.getD c.active 0) ++ toBE 4 (c.version.getD (1 - c.active) 0) ++ zeros 4

/-- The record of FW.STATUS. -/
def fwRecord (v : Dev) : List Byte :=
  let f := v.fw
  toBE 1 f.bundle.code ++ toBE 1 f.failedComp ++ toBE 1 f.failCause ++ toBE 1 (b01 f.pending.isSome) ++ toBE 4 f.bundleId ++
  toBE 4 (if f.onTrial then (f.trialSince + secQ * f.trialLen - v.clk.now) / msQ else 0) ++ toBE 2 f.epoch ++ toBE 1 f.revoked ++ zeros 1 ++
  (List.range 6).flatMap (compRecord f)

/-- FW.STATUS. -/
def fwStatusRow : OpRow :=
  { code := 0x1401, core := .c, lease := fun _ => false, changes := fun _ => false, lenOk := fun p => p.length == 0, asleep := true, repair := true }
/-- The work of FW.STATUS. -/
def fwStatusEff : Effect := fun _ s => (s, .ok (fwRecord s.dev))
/-- FW_STATUS (R485). -/
def execFwStatus (t : Nat) (d : Datagram) (s : State) : Result := .next (serve fwStatusRow (.fwStatus t d) t d fwStatusEff s)

/-! ### FW.INSTALL (R477) -/

/-- The row of FW.INSTALL with a kind. -/
def fwInstallRow (kind : Byte) : OpRow := { code := 0x1402, core := .c, fix := [(0, kind)], codes := 2, lenOk := len8, repair := true, trial := true }
/-- Field rules of FW.INSTALL. -/
def fwInstallBad (p : List Byte) : Option Nat := firstBad [⟨1, 3, .reserved, []⟩, ⟨4, 4, .unsigned, [(64, 8388608)]⟩] p

/-- The work of FW.INSTALL MANIFEST: a manifest that verifies is the pending one, with none of its images installed. -/
def fwInstallManifestEff : Effect := fun d s =>
  match fwInstallBad d.params with
  | some o => (s, .fail (badField o))
  | none =>
    let p := s.dev.fw.stage 0 (fieldU d.params 4 4)
    if s.dev.fw.manifestOk p then (s.onDev (Dev.onFw fun f => { f with pending := some (readManifest p) }), .ok [])
    else (s, .fail (plainFail .badImage))
/-- FW_INSTALL_MANIFEST (R477). -/
def execFwInstallManifest (t : Nat) (d : Datagram) (s : State) : Result :=
  .next (serve (fwInstallRow 0) (.fwInstallManifest t d) t d fwInstallManifestEff s)

/-- Whether a pending manifest accepts an image (R477). -/
def FwSt.accepts (f : FwSt) (p : List Byte) : Bool :=
  match f.pending with
  | none => false
  | some m => m.entries.any fun e => e.component == fieldU p 5 1 && e.digest == Config.shake256 p && e.version == fieldU p 8 4

/-- An image in the inactive slot of its component; `good` says that it reads back as written. -/
def FwSt.writeImage (good : Bool) (p : List Byte) (f : FwSt) : FwSt :=
  let k := fieldU p 5 1
  let i := 1 - (f.comp k).active
  let f := f.modComp k fun c =>
    { c with slotOk := c.slotOk.set i good, version := c.version.set i (fieldU p 8 4), digest := c.digest.set i (Config.shake256 p)
             schema := c.schema.set i (fieldU p 56 2, fieldU p 58 2), imgEpoch := c.imgEpoch.set i (fieldU p 12 2), imgKey := c.imgKey.set i (fieldU p 6 1) }
  { f with pending := f.pending.map fun m =>
      { m with entries := m.entries.map fun e => if e.component = k then { e with installed := good } else e } }

/-- The work of FW.INSTALL IMAGE: an image that is accepted and verifies is written to the inactive slot and read back; a slot that
does not read back is left marked invalid. -/
def fwInstallImageEff : Effect := fun d s =>
  match fwInstallBad d.params with
  | some o => (s, .fail (badField o))
  | none =>
    let p := s.dev.fw.stage 0 (fieldU d.params 4 4)
    if !(s.dev.fw.accepts p && s.dev.fw.imageOk p) then (s, .fail (plainFail .badImage))
    else
      let good := Config.flashReadBack s.dev.draws
      let s := s.onDev fun v => { v.onFw (FwSt.writeImage good p) with draws := v.draws + 1 }
      (s, if good then .ok [] else .fail (plainFail .badImage))
/-- FW_INSTALL_IMAGE (R477). -/
def execFwInstallImage (t : Nat) (d : Datagram) (s : State) : Result :=
  .next (serve (fwInstallRow 1) (.fwInstallImage t d) t d fwInstallImageEff s)

/-! ### Core restarts (R42, R381, R479) -/

/-- Whether a commit is armed at a unit: it is the first that touches the unit, or its E has come (R37). -/
def Dev.armedAt (u : UnitId) (k : Commit) (v : Dev) : Bool :=
  decide (k.effective ≤ v.nowU) ||
  (match v.daond.commits.find? fun x => x.left.contains u with | some x => x.order == k.order | none => false)

/-- The units at which a commit is queued and not armed. -/
def Dev.unarmed (k : Commit) (v : Dev) : List UnitId := k.left.filter fun u => !v.armedAt u k

/-- Whether every queued commit is armed at every unit. -/
def Dev.allArmed (v : Dev) : Bool := v.daond.commits.all fun k => (v.unarmed k).isEmpty

/-- The commits without their unarmed parts, and those parts. -/
def Dev.splitQueue (v : Dev) : List Commit × List Commit :=
  (v.daond.commits.filterMap fun k =>
      let l := k.left.filter fun u => v.armedAt u k
      if l.isEmpty then none else some { k with left := l },
   v.daond.commits.filterMap fun k => let l := v.unarmed k; if l.isEmpty then none else some { k with left := l })

/-- A core stops: its master is reset; the lease timer pauses with CORE.C; the budget registers keep what CORE.M programmed (R42,
R381, R398, R417). -/
def Dev.stopCore (k : Nat) (v : Dev) : Dev :=
  if v.pow.coreDown.contains k then v
  else
    let v := if k = 2 then v.programBudgets else v
    let v := { v with pow := { v.pow with coreDown := k :: v.pow.coreDown, downT := smPut k v.clk.now v.pow.downT
                                          leasePause := if k = 0 then some v.clk.now else v.pow.leasePause } }
    if v.mediaOn then v.resetMaster (51 + k) 2 else v

/-- The parts of the queue that a watchdog reset of CORE.M discards, each commit reported once (R42, R451). -/
def Dev.discardUnarmed (v : Dev) : Dev :=
  let q := v.splitQueue
  q.2.foldl (fun v k => v.raise evDiscarded k.generation.toNat) { v with daond := { v.daond with commits := q.1 } }

/-- The queue saved over an activation of CORE.M (R479). -/
def Dev.saveQueue (v : Dev) : Dev :=
  let q := v.splitQueue
  { v with daond := { v.daond with commits := q.1, saved := q.2 } }

/-- The saved queue resumed: each part is armed again in its place (R479). -/
def Dev.resumeQueue (v : Dev) : Dev :=
  let join (cs : List Commit) (k : Commit) : List Commit :=
    if cs.any fun x => x.order == k.order then cs.map fun x => if x.order == k.order then { x with left := x.left ++ k.left } else x
    else queueCommit k cs
  { v with daond := { v.daond with commits := v.daond.saved.foldl join v.daond.commits, saved := [] } }

/-- Every LMC reloads: lanes keep their state, bring-ups in progress restart (R479). -/
def Dev.reloadLanes (v : Dev) : Dev :=
  (List.range 512).foldl (fun v n =>
    let l := v.lane n
    let v := if l.rx == .hunt || l.rx == .verify then v.setLane n l.rxHunt else v
    if l.tx == .train then v.txStart n else v) v

/-! ### Activation, confirmation and reversion (R478 to R483) -/

/-- CORE.M's restart: it waits for an empty queue first (R479). -/
def Dev.restartM (v : Dev) : Dev :=
  if v.allArmed then v.saveQueue.stopCore 2 else v.onFw fun f => { f with queueWait := some v.clk.now }

/-- What the health checks of a component compare with later: every channel's selection state, or the lanes that are locked (R480). -/
def Dev.healthBefore (k : Nat) (v : Dev) : List Nat :=
  if k = 2 then (List.range 8).map fun c => (v.tc c).state.code
  else if k = 4 then (List.range 512).filter fun n => (v.lane n).rxCode == 1
  else []

/-- The health checks of a component that has restarted (R480): settings are loaded, and budgets computed, as its core comes back. -/
def Dev.healthy (k : Nat) (v : Dev) : Bool :=
  match k with
  | 1 => v.coreUp .c
  | 2 => v.coreUp .t && v.healthBefore 2 == v.fw.before
  | 3 => v.coreUp .m
  | 4 => v.fw.before.all fun n => (v.lane n).rxCode == 1
  | 5 => v.daond.net.linkUp
  | _ => true

/-- A component restarts (R479); the answer is whether it runs again at once. The Ethernet link goes down with its microcode. -/
def Dev.restartComp (k : Nat) (v : Dev) : Dev × Bool :=
  let v := v.onFw fun f => { f with before := v.healthBefore k }
  if k = 1 then (v.stopCore 0, false)
  else if k = 2 then (v.stopCore 1, false)
  else if k = 3 then (v.restartM, false)
  else if k = 4 then (v.reloadLanes, true)
  else if k = 5 then (v.linkDown, true)
  else (v, true)

/-- The trial of the component in activation starts (R480). -/
def Dev.startTrial (v : Dev) : Dev :=
  v.withState fun v => v.onFw fun f => { f with bundle := .trial, onTrial := true, trialSince := v.clk.now, hostOk := false }

/-- The bundle completes: the fuses are blown, then EV.SYS.FW reports it (R483). -/
def Dev.completeBundle (v : Dev) : Dev :=
  match v.fw.current with
  | none => v
  | some m =>
    (v.withState fun v => v.onFw fun f =>
      { f with bundle := .completed, onTrial := false, epoch := max f.epoch m.minEpoch
               revoked := if bit m.flags 0 then f.revoked ||| 2 ^ (1 - m.keySlot) else f.revoked }).fwEvent 2 0 0xFF

/-- The entry at the bundle's index is activated (R479); past the last one, the bundle completes (R483). -/
def Dev.activateEntry (v : Dev) : Dev :=
  match v.fw.entry with
  | none => v.completeBundle
  | some e =>
    let v := v.onFw fun f => { (f.modComp e.component (CompSt.swap 1)) with onTrial := false, hostOk := false }
    if e.component = 0 then v.withState fun v => v.onFw fun f => { f with bundle := .pendingBoot }
    else
      let v := v.withState fun v => v.onFw fun f => { f with bundle := .activating }
      let r := v.restartComp e.component
      if r.2 then r.1.startTrial else r.1

/-- The component on trial is confirmed; the next entry follows. The CORE.C firmware that found the store unreadable writes a new
copy (R480, R491). -/
def Dev.confirmTrial (v : Dev) : Dev :=
  match v.fw.trialComp with
  | none => v
  | some k =>
    let v := (v.onFw fun f => { (f.modComp k fun c => { c with state := 0 }) with onTrial := false, index := f.index + 1 }).fwEvent 0 0 k
    let v := if k = 1 && v.settings.provisional then v.renewStore else v
    v.activateEntry

/-- The trial's confirmations: the image's own, and the host's where it is required (R480). -/
def Dev.checkTrial (v : Dev) : Dev :=
  match v.fw.trialComp with
  | some k => if (v.fw.comp k).selfConfirmed && (!v.fw.needHost || v.fw.hostOk) then v.confirmTrial else v
  | none => v

/-- The components of a reversion, one at a time, each back in its previous slot and restarted (R481); `fuel` bounds their number.
A restart that takes time leaves the rest for later. -/
def revertNext : Nat → Dev → Dev
  | 0, v => v
  | n + 1, v =>
    match v.fw.reverting with
    | [] => (v.withState fun v => v.onFw fun f => { f with bundle := .reverted, onTrial := false }).fwEvent 1 v.fw.failCause 0xFF
    | k :: _ =>
      let v := v.onFw fun f => f.modComp k (CompSt.swap 0)
      let r := v.restartComp k
      if r.2 then revertNext n (r.1.onFw fun f => { f with reverting := f.reverting.drop 1 }) else r.1

/-- The components that a reversion returns: the one being activated or on trial first, then those confirmed, in reverse order. -/
def FwSt.toRevert (f : FwSt) : List Nat :=
  match f.current with
  | none => []
  | some m => ((m.entries.take (f.index + 1)).map (·.component)).reverse

/-- The bundle reverts (R481). Cause: 1 watchdog, 2 timeout, 3 reset, 4 FW.REVERT. -/
def Dev.revertBundle (cause : Nat) (v : Dev) : Dev :=
  let ks := v.fw.toRevert
  let failed := if v.fw.bundle == .completed then 0xFF else (v.fw.entry.map (·.component)).getD 0xFF
  revertNext 8 (v.onFw fun f => { f with onTrial := false, failedComp := failed, failCause := cause, reverting := ks, queueWait := none })

/-- A core of the component being activated or reverted runs again: its trial starts, or the reversion goes on (R480, R481). -/
def Dev.afterRestart (k : Nat) (v : Dev) : Dev :=
  if v.fw.reverting.head? = some k then revertNext 8 (v.onFw fun f => { f with reverting := f.reverting.drop 1 })
  else if v.fw.bundle == .activating && (v.fw.entry.map (·.component)) == some k then v.startTrial
  else v

/-- FW.ACTIVATE. -/
def fwActivateRow : OpRow := { code := 0x1403, core := .c, lenOk := fun p => p.length == 4, repair := true, trial := true }
/-- The work of FW.ACTIVATE (R478). -/
def fwActivateEff : Effect := fun d s =>
  match firstBad [⟨0, 1, .unsigned, [(0, 1)]⟩, ⟨1, 3, .reserved, []⟩] d.params with
  | some o => (s, .fail (badField o))
  | none =>
    match s.dev.fw.pending with
    | none => (s, .fail { status := .badParam, check := 1 })
    | some m =>
      if m.entries.any fun e => !e.installed then (s, .fail { status := .badParam, check := 1 })
      else
        let host := bit m.flags 1 || fieldU d.params 0 1 == 1 || s.dev.settings.live.hostConfirm
        (s.onDev fun v => Dev.activateEntry (v.withState fun v => v.onFw fun f =>
          { f with bundle := .activating, pending := none, current := some m, bundleId := m.bundleId, needHost := host, index := 0 }), .ok [])
/-- FW_ACTIVATE (R478). -/
def execFwActivate (t : Nat) (d : Datagram) (s : State) : Result := .next (serve fwActivateRow (.fwActivate t d) t d fwActivateEff s)

/-- FW.CONFIRM. -/
def fwConfirmRow : OpRow := { code := 0x1404, core := .c, lenOk := fun p => p.length == 4, repair := true }
/-- The work of FW.CONFIRM (R480). -/
def fwConfirmEff : Effect := fun d s =>
  match firstBad [⟨0, 1, .unsigned, [(0, 5)]⟩, ⟨1, 3, .reserved, []⟩] d.params with
  | some o => (s, .fail (badField o))
  | none =>
    if s.dev.fw.trialComp = some (fieldU d.params 0 1) then (s.onDev fun v => (v.onFw fun f => { f with hostOk := true }).checkTrial, .ok [])
    else (s, .fail (badField 0))
/-- FW_CONFIRM (R480). -/
def execFwConfirm (t : Nat) (d : Datagram) (s : State) : Result := .next (serve fwConfirmRow (.fwConfirm t d) t d fwConfirmEff s)

/-- Whether FW.REVERT may revert the bundle (R482). -/
def FwSt.canRevert (f : FwSt) : Bool :=
  match f.bundle with
  | .activating | .trial | .pendingBoot => true
  | .completed => f.reverting.isEmpty && match f.current with
    | some m => m.entries.all fun e => f.slotVerifies e.component (1 - (f.comp e.component).active)
    | none => false
  | _ => false

/-- FW.REVERT. -/
def fwRevertRow : OpRow := { code := 0x1405, core := .c, lenOk := fun p => p.length == 0, repair := true }
/-- The work of FW.REVERT (R482). A reversion that runs already goes on. -/
def fwRevertEff : Effect := fun _ s =>
  if !s.dev.fw.canRevert then (s, .fail { status := .badParam, check := 1 })
  else if !s.dev.fw.reverting.isEmpty then (s, .ok [])
  else (s.onDev (Dev.revertBundle 4), .ok [])
/-- FW_REVERT (R482). -/
def execFwRevert (t : Nat) (d : Datagram) (s : State) : Result := .next (serve fwRevertRow (.fwRevert t d) t d fwRevertEff s)

/-! ### Happenings of a trial -/

/-- What CORE.C was doing for a command is lost at its watchdog reset (R443). -/
def Dev.loseDeferred (v : Dev) : Dev :=
  { v with daond := { v.daond with deferred := v.daond.deferred.map fun x => { x with kind := .lost } } }

/-- A watchdog reset of a core: what R42 and R446 say, and the end of its component's trial (R481). -/
def Dev.watchdog (core : Nat) (v : Dev) : Dev :=
  let v := (v.raise evWatchdog core).stopCore core
  let v := if core = 2 then v.discardUnarmed else if core = 0 then v.loseDeferred else v
  if v.fw.trialComp = some (core + 1) then v.revertBundle 1 else v

/-- WATCHDOG_RESET (R42). -/
def execWatchdogReset (t : Nat) (core : Fin 3) (s : State) : Result :=
  .next ((s.arrive t).onDev fun v => if v.alive && (v.mediaOn || core.val = 0) then v.watchdog core else v)

/-- TRIAL_TIMEOUT (R480, R481). -/
def execTrialTimeout (t : Nat) (s : State) : Result :=
  .next (if s.dev.alive && s.dev.fw.onTrial then s.due (s.dev.fw.trialSince + secQ * s.dev.fw.trialLen) t (State.onDev (Dev.revertBundle 2)) else s.arrive t)

/-- SELF_CONFIRMATION (R480): the health checks pass. -/
def execSelfConfirmation (t : Nat) (component : Fin 6) (s : State) : Result :=
  .next ((s.arrive t).onDev fun v =>
    if v.alive && v.fw.trialComp = some component.val && v.healthy component then
      (v.onFw fun f => f.modComp component fun c => { c with selfConfirmed := true }).checkTrial
    else v)

/-- The wait of CORE.M ends: what is still unarmed is saved, and CORE.M restarts (R479). -/
def Dev.waitEnds (v : Dev) : Dev := (v.onFw fun f => { f with queueWait := none }).saveQueue.stopCore 2

/-- QUEUE_WAIT_END (R479): no commit is queued unarmed, or 1 s has passed. -/
def execQueueWaitEnd (t : Nat) (s : State) : Result :=
  .next (match s.dev.fw.queueWait with
    | some w => s.within (secQ + w) t (State.onDev fun v => if v.alive && (v.allArmed || decide (secQ + w ≤ v.clk.now)) then v.waitEnds else v)
    | none => s.arrive t)

/-! ### Reset and boot (R474, R475, R479, R481) -/

/-- The slot changes of a reversion, all at once (R481): `ks` are the components that still stand in their new slot. -/
def FwSt.swapBack (ks : List Nat) (f : FwSt) : FwSt := ks.foldl (fun f k => f.modComp k (CompSt.swap 0)) f

/-- What a reset or power loss does to an activation, a trial or a reversion in progress (R481). -/
def FwSt.resetBundle (f : FwSt) : FwSt :=
  if !f.reverting.isEmpty then { f.swapBack (f.reverting.drop 1) with bundle := .reverted, revertNote := true }
  else if f.bundle == .activating || f.bundle == .trial then
    { f.swapBack f.toRevert with bundle := .reverted, failedComp := (f.entry.map (·.component)).getD 0xFF, failCause := 3, revertNote := true }
  else f

/-- What of the firmware state survives a reset: flash and fuses (R467, R471, R519). -/
def FwSt.kept (f : FwSt) : FwSt :=
  let f := f.resetBundle
  { comps := f.comps, bundle := f.bundle, failedComp := f.failedComp, failCause := f.failCause, pending := f.pending, current := f.current,
    bundleId := f.bundleId, needHost := f.needHost, index := f.index, epoch := f.epoch, revoked := f.revoked, revertNote := f.revertNote }

/-- The slot from which a component boots: its other slot when its own fails (R475). -/
def FwSt.bootComp (f : FwSt) (k : Nat) : FwSt :=
  let c := f.comp k
  if f.slotVerifies k c.active then f
  else if f.slotVerifies k (1 - c.active) then { f.modComp k (CompSt.swap 2) with fallback := f.fallback ++ [k] }
  else if k < 2 then { f with dead := true } else { f with bootOk := false }

/-- The boot ROM and STAGE2 verify every component; a STAGE2 on trial confirms itself, which completes its bundle, or the bundle
reverts (R474, R475, R479, R483). -/
def Dev.bootFirmware (v : Dev) : Dev :=
  let v := if v.fw.bundle == .pendingBoot then
      if v.fw.slotVerifies 0 (v.fw.comp 0).active then
        ((v.onFw fun f => f.modComp 0 fun c => { c with state := 0, selfConfirmed := true }).fwEvent 0 0 0).completeBundle
      else v.onFw fun f =>
        { f.swapBack f.toRevert with bundle := .reverted, failedComp := 0, failCause := 3, revertNote := true }
    else v
  v.onFw fun f => (List.range 6).foldl FwSt.bootComp f

/-- What READY reports of the boot: fallbacks, and a reversion at the reset (R475, R481). -/
def Dev.reportBoot (v : Dev) : Dev :=
  let v := v.fw.fallback.foldl (fun v k => v.fwEvent 3 0 k) v
  let v := if v.fw.revertNote then v.fwEvent 1 v.fw.failCause 0xFF else v
  v.onFw fun f => { f with fallback := [], revertNote := false }

end Sys2Proof.Machine
end

