-- ==== Sys2Proof/Machine/TimingCmds.lean ====
section
/-! DEFINITION. The REF., TC., CLK., FP. and TIME. families (R309 to R312, R319, R320, R335 to R337, R341 to R365). CORE.T
executes them on its own (R41). -/
namespace Sys2Proof.Machine
open Sys2Proof

/-- The first number below `n` with a property. -/
def firstIdx (n : Nat) (p : Nat → Bool) : Option Nat := (List.range n).find? p

/-! ### REF.CONFIG (R309 to R312) -/

/-- Whether a nominal frequency lies in its range (R308). -/
def nominalOk (r : Nat) (c : RefCfg) : Bool :=
  let n := c.nominalNum
  let q := c.nominalDen
  match c.type with
  | 0 => q != 0 && decide (1000 * q ≤ n) && decide (n ≤ (if r < 16 then 800000000 else 50000000) * q)
  | 1 => q != 0 && decide (q ≤ n) && decide (n ≤ 1000 * q)
  | 2 => n == 1 && q == 1
  | _ => n == 0 && q == 0

/-- R309, R310: offset of the first field that breaks a rule. -/
def refBad (v : Dev) (p : List Byte) : Option Nat :=
  match firstBad refCfgFields p with
  | some o => some o
  | none =>
    let c := readRefCfg p 0
    let r := c.ref
    let okType := if r < 32 then c.type ≤ 2 else if r = 32 then c.type = 3 else c.type = 4
    let lrcOk := match smFind c.lrcStream v.cfg.ingress with | some g => g.expected.hTotal != 0 | none => false
    if ¬okType then some 2
    else if r ≥ 32 && c.edge != 0 then some 3
    else if !nominalOk r c then some 4
    else if c.rejectPpb * 10 < c.acceptPpb * 11 then some 16
    else if (if c.type = 4 then !lrcOk else c.lrcStream != 0) then some 32
    else none

/-- Whether a REF.CONFIG changes what restarts qualification, the trace delay apart (R311, R312). -/
def RefCfg.sameSignal (a b : RefCfg) : Bool :=
  a.type == b.type && a.edge == b.edge && a.nominalNum == b.nominalNum && a.nominalDen == b.nominalDen && a.lrcStream == b.lrcStream

/-- R311, R353: the conflict that refuses a REF.CONFIG. -/
def refConflict (v : Dev) (c : RefCfg) : Option Fail :=
  let r := c.ref
  let old := (v.ref r).cfg
  let pin := v.tpin (r - 16)
  if 16 ≤ r && r < 32 && pin.cfg.role != 1 then
    match pin.cfg.role, pin.owner with
    | 2, some tag => some (busyWith 16 tag)
    | _, _ => some (busyWith 15 (r - 16))
  else
    let used := firstIdx 8 fun k => (v.tc k).active == some r || (v.tc k).target == some r
    match used with
    | some k => if c.enable = 0 || !old.sameSignal c then some (busyWith 11 k) else none
    | none =>
      if old.type = c.type then none
      else (firstIdx 32 fun n => (v.fpo n).cfg.mode == 2 && (v.fpo n).cfg.anchorRef == r).map (busyWith 14)

/-- A REF.CONFIG takes effect (R312, R315). -/
def Dev.setRefCfg (c : RefCfg) (v : Dev) : Dev :=
  let r := c.ref
  let x := v.ref r
  let was := x.state == .qualified
  let fresh := !x.cfg.sameSignal c || x.cfg.tracePs != c.tracePs
  let starts := c.enable != 0 && (x.state == .disabled || fresh)
  let v := v.setRef r (if starts then { x with cfg := c, lastT := v.clk.now, samples := [], gateT := v.clk.now, gateBase := none, gateLost := false,
                                                 fresh := true, candidate := none }
    else { x with cfg := c })
  let v := if c.enable = 0 then v.refState r .disabled
    else if starts then v.refState r .noActivity
    else v
  if was && (v.ref r).state != .qualified && v.clk.cfg.source = 2 && v.clk.cfg.ppsRef = r then v.timeHoldover else v

/-- REF.CONFIG (R309, R442). -/
def refConfigRow : OpRow := { code := 0x0A01, core := .t, lenOk := fun p => p.length == 40 }
/-- The work of REF.CONFIG. -/
def refConfigEff : Effect := fun d s =>
  match refBad s.dev d.params with
  | some o => (s, .fail (badField o))
  | none =>
    let c := readRefCfg d.params 0
    match refConflict s.dev c with
    | some f => (s, .fail f)
    | none => (s.onDev (Dev.setRefCfg c), .ok [])
/-- REF_CONFIG (R309). -/
def execRefConfig (t : Nat) (d : Datagram) (s : State) : Result := .next (serve refConfigRow (.refConfig t d) t d refConfigEff s)

/-! ### REF.SELECT (R320, R337) -/

/-- R320: offset of the first field that breaks a rule. -/
def selectBad (p : List Byte) : Option Nat :=
  match firstBad selectCfgFields p with
  | some o => some o
  | none =>
    let c := readSelectCfg p 0
    let l := c.list.map (·.toNat)
    let bad (i : Nat) : Bool :=
      let e := l.getD i 0xFF
      if i < c.listLen then decide (e > 40) || (l.take i).contains e else e != 0xFF
    if (c.mode == 1) == (c.manualRef == 255) then some 5 else (firstIdx 8 bad).map (· + 8)

/-- REF.SELECT set (R320, R442). -/
def refSelectSetRow : OpRow := { code := 0x0A02, core := .t, fix := [(1, 0)], codes := 2, lenOk := fun p => p.length == 32 }
/-- The work of a set: at once, or stored while a switch runs (R328). -/
def refSelectSetEff : Effect := fun d s =>
  match selectBad d.params with
  | some o => (s, .fail (badField o))
  | none =>
    let c := readSelectCfg d.params 0
    (s.onDev fun v =>
      let x := v.tc c.tc
      if x.state == .switching then v.putTc c.tc { x with stored := some c }
      else (v.putTc c.tc { x.rebase v.clk.now with sel := c }).decideTc c.tc, .ok [])
/-- REF_SELECT_SET (R320). -/
def execRefSelectSet (t : Nat) (d : Datagram) (s : State) : Result :=
  .next (serve refSelectSetRow (.refSelectSet t d) t d refSelectSetEff s)

/-- Milliseconds left of a span that began at `since`. -/
def msLeft (since len now : Nat) : Nat := (since + len - now) / msQ

/-- wtr_remaining_ms (R337): of the highest-ranked reference in wait-to-restore, for a revertive channel. -/
def Dev.wtrLeft (k : Nat) (v : Dev) : Nat :=
  let x := v.tc k
  if x.sel.revertive = 0 then 0
  else
    let r := (x.sel.list.map (·.toNat)).find? fun r => (smFind r x.wtr).isSome && !v.restored k r
    match r.bind (fun r => smFind r x.wtr) with
    | some w => msLeft w (secQ * x.sel.wtrS) v.clk.now
    | none => 0

/-- A reference number, or 0xFF for none. -/
def optRef (x : Option Nat) : List Byte := toBE 1 (x.getD 0xFF)

/-- The selection record and the status record of REF.SELECT op 1 (R320, R337). -/
def selectRecord (k : Nat) (v : Dev) : List Byte :=
  let x := v.tc k
  let inHold := x.state == .holdover || x.state == .jumpWait || (x.state == .switching && !x.bridging)
  writeSelectCfg { x.sel with tc := k, op := 1 } ++
  toBE 1 x.state.code ++ optRef x.active ++ optRef x.target ++ toBE 1 (b01 x.following) ++ toBEs 8 (x.outAt v.clk.now) ++
  toBEs 4 (if inHold then x.holdOffset else v.holdNow k) ++ toBE 2 (x.bins.filter (fun b => b.2.1)).length ++ optRef x.heldRef ++ zeros 1 ++
  timeBytes x.holdSinceU ++ timeBytes x.lastSwitchU ++ toBE 4 x.switches.toNat ++ toBE 4 x.holdEntries.toNat ++
  toBE 4 x.jumpsApplied.toNat ++ toBE 4 (v.wtrLeft k)

/-- REF.SELECT read (R320, R442). -/
def refSelectReadRow : OpRow :=
  { code := 0x0A02, core := .t, fix := [(1, 1)], codes := 2, lease := fun _ => false, changes := fun _ => false, lenOk := fun p => p.length == 32 }
/-- The work of a read: the channel and the reserved fields are checked. -/
def refSelectReadEff : Effect := fun d s =>
  match firstBad [⟨0, 1, .unsigned, [(0, 7)]⟩, ⟨22, 2, .reserved, []⟩, ⟨28, 4, .reserved, []⟩] d.params with
  | some o => (s, .fail (badField o))
  | none => (s, .ok (selectRecord (fieldU d.params 0 1) s.dev))
/-- REF_SELECT_READ (R337). -/
def execRefSelectRead (t : Nat) (d : Datagram) (s : State) : Result :=
  .next (serve refSelectReadRow (.refSelectRead t d) t d refSelectReadEff s)

/-! ### REF.ACCEPT, REF.REALIGN, REF.STATUS (R335, R336, R319) -/

/-- REF.ACCEPT takes effect at a channel and at the ANCHORED outputs that wait for it (R335, R356). -/
def Dev.accept (k action : Nat) (v : Dev) : Dev :=
  let v := { v with fpos := v.fpos.map fun e =>
    if e.2.cfg.mode == 2 && e.2.cfg.tc == k && e.2.everAnchored && !e.2.anchored then (e.1, { e.2 with acceptAct := some action }) else e }
  let x := v.tc k
  if x.state != .jumpWait then v
  else match x.heldRef with
    | some r =>
      if (v.ref r).state == .qualified then v.startSwitch k r (some action)
      else (v.putTc k { x with state := .holdover }).raise (srcTc k 2) SelState.holdover.code
    | none => v

/-- REF.ACCEPT (R335, R442). -/
def refAcceptRow : OpRow := { code := 0x0A03, core := .t, lenOk := fun p => p.length == 4 }
/-- The work of REF.ACCEPT: nothing on a channel that is not in JUMP_WAIT. -/
def refAcceptEff : Effect := fun d s =>
  match firstBad [⟨0, 1, .unsigned, [(0, 7)]⟩, ⟨1, 1, .unsigned, [(0, 1)]⟩, ⟨2, 2, .reserved, []⟩] d.params with
  | some o => (s, .fail (badField o))
  | none => (s.onDev (Dev.accept (fieldU d.params 0 1) (fieldU d.params 1 1)), .ok [])
/-- REF_ACCEPT (R335). -/
def execRefAccept (t : Nat) (d : Datagram) (s : State) : Result := .next (serve refAcceptRow (.refAccept t d) t d refAcceptEff s)

/-- REF.REALIGN (R336, R442). -/
def refRealignRow : OpRow := { code := 0x0A04, core := .t, lenOk := fun p => p.length == 4 }
/-- The work of REF.REALIGN: a TRACKING channel slews its build-out to 0. -/
def refRealignEff : Effect := fun d s =>
  match firstBad [⟨0, 1, .unsigned, [(0, 7)]⟩, ⟨1, 3, .reserved, []⟩] d.params with
  | some o => (s, .fail (badField o))
  | none =>
    let k := fieldU d.params 0 1
    let x := s.dev.tc k
    match x.state, x.active with
    | .tracking, some r =>
      (s.onDev fun v =>
        let x := x.rebase v.clk.now
        v.putTc k { ({ x with buildOut := v.reducedDelta r x.buildOut }.slew v.clk.now 0) with realign := true }, .ok [])
    | _, _ => (s, .fail (badField 0))
/-- REF_REALIGN (R336). -/
def execRefRealign (t : Nat) (d : Datagram) (s : State) : Result := .next (serve refRealignRow (.refRealign t d) t d refRealignEff s)

/-- REF.STATUS's record (R319). -/
def refRecord (r : Nat) (v : Dev) : List Byte :=
  let x := v.ref r
  let on := ((List.range 8).map fun k => if (v.tc k).active == some r then 2 ^ k else 0).sum
  let left := match x.state, x.qualSince with
    | .qualifying, some w => msLeft w (msQ * x.qualTime) v.clk.now
    | _, _ => 0
  toBE 1 r ++ toBE 1 x.state.code ++ toBE 1 on ++ zeros 1 ++ toBEs 4 x.gate ++ toBE 4 left ++ timeBytes x.changeU ++ timeBytes x.jumpU ++
  toBEs 8 x.jumpSize ++ toBE 4 x.activityLosses.toNat ++ toBE 4 x.rejects.toNat ++ toBE 4 x.jumps.toNat ++ toBE 4 x.spurious.toNat ++ zeros 4

/-- A clear of a reference's counters. -/
def refClear (r : Nat) (v : Dev) : Dev := v.modRef r fun x => { x with activityLosses := 0, rejects := 0, jumps := 0, spurious := 0 }

/-- REF.STATUS (R319, R435, R442). -/
def refStatusRow : OpRow := queryRow 0x0A05 true false
/-- The work of REF.STATUS. -/
def refStatusEff : Effect := query 41 64 false refRecord refClear
/-- REF_STATUS (R319). -/
def execRefStatus (t : Nat) (d : Datagram) (s : State) : Result := .next (serve refStatusRow (.refStatus t d) t d refStatusEff s)

/-! ### TC.CONFIG, TC.STATUS (R341 to R347) -/

/-- R342: the owner that keeps a channel at its set frequency. -/
def Dev.tcOwner (k : Nat) (v : Dev) : Option Fail :=
  let cs := v.cfgs
  let head := firstIdx 256 fun h => cs.any fun c => match (c.head h).timing with | some t => t.tc == k | none => false
  match head with
  | some h => some (busyWith 7 h)
  | none =>
    match firstIdx 64 (fun n => (v.cko n).owner.isSome && (v.cko n).cfg.tc == k) with
    | some n => some (busyWith 13 n)
    | none => (firstIdx 32 fun n => (v.fpo n).owner.isSome && (v.fpo n).cfg.tc == k).map (busyWith 14)

/-- TC.CONFIG set (R341, R442). -/
def tcConfigSetRow : OpRow := { code := 0x0B01, core := .t, fix := [(1, 0)], codes := 2, lenOk := fun p => p.length == 32 }
/-- The work of a set (R342): a new set frequency is refused while the channel is owned, and unlocks it. -/
def tcConfigSetEff : Effect := fun d s =>
  match firstBad tcCfgFields d.params with
  | some o => (s, .fail (badField o))
  | none =>
    let c := readTcCfg d.params 0
    let k := c.tc
    if c.setFreqHz = (s.dev.tc k).cfg.setFreqHz then (s.onDev fun v => v.putTc k { v.tc k with cfg := c }, .ok [])
    else match s.dev.tcOwner k with
      | some f => (s, .fail f)
      | none => (s.onDev fun v => (v.putTc k { (v.tc k).rebase v.clk.now with cfg := c, lockBase := none, lockLast := none }).setLocked k false, .ok [])
/-- TC_CONFIG_SET (R342). -/
def execTcConfigSet (t : Nat) (d : Datagram) (s : State) : Result := .next (serve tcConfigSetRow (.tcConfigSet t d) t d tcConfigSetEff s)

/-- A stored value, or the default that 0 selects. -/
def orDefault (x d : Nat) : Nat := if x = 0 then d else x

/-- The loop settings in force, defaults resolved (R341, R343). -/
def TcCfg.inForce (c : TcCfg) : TcCfg :=
  { c with bwClk := orDefault c.bwClk 10000, bwFp := orDefault c.bwFp 100, bwPps := orDefault c.bwPps 10, bwPtp := orDefault c.bwPtp 5,
           bwLrc := orDefault c.bwLrc 20000, lockLimitPpb := orDefault c.lockLimitPpb 10 }

/-- TC.CONFIG read (R341, R442). -/
def tcConfigReadRow : OpRow :=
  { code := 0x0B01, core := .t, fix := [(1, 1)], codes := 2, lease := fun _ => false, changes := fun _ => false, lenOk := fun p => p.length == 32 }
/-- The work of a read. -/
def tcConfigReadEff : Effect := fun d s =>
  match firstBad [⟨0, 1, .unsigned, [(0, 7)]⟩, ⟨2, 2, .reserved, []⟩, ⟨4, 4, .reserved, []⟩, ⟨8, 4, .reserved, []⟩, ⟨12, 4, .reserved, []⟩,
                  ⟨16, 4, .reserved, []⟩, ⟨20, 4, .reserved, []⟩, ⟨24, 4, .reserved, []⟩, ⟨28, 4, .reserved, []⟩] d.params with
  | some o => (s, .fail (badField o))
  | none =>
    let k := fieldU d.params 0 1
    (s, .ok (writeTcCfg { (s.dev.tc k).cfg.inForce with tc := k, op := 1 }))
/-- TC_CONFIG_READ (R341). -/
def execTcConfigRead (t : Nat) (d : Datagram) (s : State) : Result := .next (serve tcConfigReadRow (.tcConfigRead t d) t d tcConfigReadEff s)

/-- TC.STATUS's record (R347). -/
def tcRecord (k : Nat) (v : Dev) : List Byte :=
  let x := v.tc k
  toBE 1 k ++ toBE 1 (b01 x.locked) ++ toBE 1 x.state.code ++ zeros 1 ++ toBEs 4 (if x.gates then x.lockOffset else 0) ++ toBEs 4 x.dcoOffset ++
  toBE 8 (x.count v.clk.now) ++ timeBytes v.nowU ++ timeBytes x.lockChangeU ++ toBE 4 x.lockLosses.toNat

/-- TC.STATUS (R347, R435, R442). -/
def tcStatusRow : OpRow := queryRow 0x0B02 true false
/-- The work of TC.STATUS. -/
def tcStatusEff : Effect := query 8 48 false tcRecord (fun k v => v.modTc k fun x => { x with lockLosses := 0 })
/-- TC_STATUS (R347). -/
def execTcStatus (t : Nat) (d : Datagram) (s : State) : Result := .next (serve tcStatusRow (.tcStatus t d) t d tcStatusEff s)

/-! ### Ownership of outputs and pins (R349) -/

/-- The refusal of a set for an output or pin that another lease has claimed. -/
def claimFail (owner : Option Nat) (tag : Nat) : Option Fail :=
  match owner with
  | some o => if o = tag then none else some (busyWith 16 o)
  | none => none

/-! ### CLK.CONFIG (R348 to R351) -/

/-- R348: offset of the first field that breaks a rule. -/
def ckoBad (p : List Byte) : Option Nat :=
  match firstBad ckoCfgFields p with
  | some o => some o
  | none =>
    let c := readCkoCfg p 0
    if c.divider = 1 && c.drive != 2 then some 4 else if c.coarseHalf ≥ 2 * c.divider then some 8 else none

/-- Highest frequency of a drive, Hz (R541). -/
def driveMax (k : Nat) : Nat := [1600000000, 400000000, 3200000000].getD k 0
/-- Whether an output would run faster than its drive allows: set_freq_hz of its timing channel over its divider (R541). -/
def Dev.ckoTooFast (p : List Byte) (v : Dev) : Bool :=
  let c := readCkoCfg p 0
  decide (driveMax c.drive * c.divider < (v.tc c.tc).cfg.setFreqHz)

/-- CLK.CONFIG set (R348, R442). -/
def clkConfigSetRow : OpRow := { code := 0x0C01, core := .t, fix := [(1, 0)], codes := 3, lenOk := fun p => p.length == 24 }
/-- A clock output takes a record from its claimant, from the clock of its channel before (R349, R351). -/
def Dev.setCkoCfg (tag : Nat) (c : CkoCfg) (v : Dev) : Dev := v.modCko c.cko fun x => x.configure v.clk.now tag c (v.tc x.cfg.tc)
/-- A clock output is released (R349). -/
def Dev.releaseCko (n : Nat) (v : Dev) : Dev := v.modCko n fun x => x.stops v.clk.now (v.tc x.cfg.tc)
/-- The work of a set: it claims the output (R349). -/
def clkConfigSetEff : Effect := fun d s =>
  match ckoBad d.params with
  | some o => (s, .fail (badField o))
  | none =>
    let c := readCkoCfg d.params 0
    if s.dev.ckoTooFast d.params then (s, .fail (badField 4))
    else match claimFail (s.dev.cko c.cko).owner d.leaseTag with
    | some f => (s, .fail f)
    | none => (s.onDev (Dev.setCkoCfg d.leaseTag c), .ok [])
/-- CLK_CONFIG_SET (R348). -/
def execClkConfigSet (t : Nat) (d : Datagram) (s : State) : Result := .next (serve clkConfigSetRow (.clkConfigSet t d) t d clkConfigSetEff s)

/-- CLK.CONFIG read (R348, R442). -/
def clkConfigReadRow : OpRow :=
  { code := 0x0C01, core := .t, fix := [(1, 1)], codes := 3, lease := fun _ => false, changes := fun _ => false, lenOk := fun p => p.length == 24 }
/-- The work of a read. -/
def clkConfigReadEff : Effect := fun d s =>
  match firstBad [⟨0, 1, .unsigned, [(0, 63)]⟩, ⟨15, 1, .reserved, []⟩, ⟨20, 4, .reserved, []⟩] d.params with
  | some o => (s, .fail (badField o))
  | none =>
    let n := fieldU d.params 0 1
    (s, .ok (writeCkoCfg { (s.dev.cko n).cfg with cko := n, op := 1 }))
/-- CLK_CONFIG_READ (R348). -/
def execClkConfigRead (t : Nat) (d : Datagram) (s : State) : Result :=
  .next (serve clkConfigReadRow (.clkConfigRead t d) t d clkConfigReadEff s)

/-- CLK.CONFIG release (R349, R442). -/
def clkConfigReleaseRow : OpRow := { code := 0x0C01, core := .t, fix := [(1, 2)], codes := 3, lenOk := fun p => p.length == 24 }
/-- The work of a release: the output is free, and held low once its high phase is complete (R349, R351). -/
def clkConfigReleaseEff : Effect := fun d s =>
  match firstBad [⟨0, 1, .unsigned, [(0, 63)]⟩, ⟨15, 1, .reserved, []⟩, ⟨20, 4, .reserved, []⟩] d.params with
  | some o => (s, .fail (badField o))
  | none => (s.onDev (Dev.releaseCko (fieldU d.params 0 1)), .ok [])
/-- CLK_CONFIG_RELEASE (R349). -/
def execClkConfigRelease (t : Nat) (d : Datagram) (s : State) : Result :=
  .next (serve clkConfigReleaseRow (.clkConfigRelease t d) t d clkConfigReleaseEff s)

/-! ### CLK.TPIN, CLK.CALIBRATE (R352, R358) -/

/-- R358: offset of the first field that breaks a rule. -/
def tpinBad (p : List Byte) : Option Nat :=
  match firstBad tpinCfgFields p with
  | some o => some o
  | none =>
    let c := readTpinCfg p 0
    if (c.role == 2) == (c.copyFpo == 255) then some 3 else none

/-- R358: a reference input cannot change while its reference is enabled. -/
def tpinHeld (n : Nat) (v : Dev) : Option Fail :=
  if (v.tpin n).cfg.role = 1 && (v.ref (16 + n)).state != .disabled then some (busyWith 12 (16 + n)) else none

/-- CLK.TPIN set (R358, R442). -/
def clkTpinSetRow : OpRow := { code := 0x0C02, core := .t, fix := [(1, 0)], codes := 3, lenOk := len8 }
/-- The work of a set: it claims the pin. -/
def clkTpinSetEff : Effect := fun d s =>
  match tpinBad d.params with
  | some o => (s, .fail (badField o))
  | none =>
    let c := readTpinCfg d.params 0
    match claimFail (s.dev.tpin c.tpin).owner d.leaseTag, (if c.role = 1 then none else tpinHeld c.tpin s.dev) with
    | some f, _ => (s, .fail f)
    | none, some f => (s, .fail f)
    | none, none => (s.onDev fun v => v.setTpin c.tpin { owner := some d.leaseTag, cfg := c }, .ok [])
/-- CLK_TPIN_SET (R358). -/
def execClkTpinSet (t : Nat) (d : Datagram) (s : State) : Result := .next (serve clkTpinSetRow (.clkTpinSet t d) t d clkTpinSetEff s)

/-- CLK.TPIN read (R358, R442). -/
def clkTpinReadRow : OpRow :=
  { code := 0x0C02, core := .t, fix := [(1, 1)], codes := 3, lease := fun _ => false, changes := fun _ => false, lenOk := len8 }
/-- The work of a read. -/
def clkTpinReadEff : Effect := fun d s =>
  match firstBad [⟨0, 1, .unsigned, [(0, 15)]⟩, ⟨4, 4, .reserved, []⟩] d.params with
  | some o => (s, .fail (badField o))
  | none =>
    let n := fieldU d.params 0 1
    (s, .ok (writeTpinCfg { (s.dev.tpin n).cfg with tpin := n, op := 1 }))
/-- CLK_TPIN_READ (R358). -/
def execClkTpinRead (t : Nat) (d : Datagram) (s : State) : Result := .next (serve clkTpinReadRow (.clkTpinRead t d) t d clkTpinReadEff s)

/-- CLK.TPIN release (R358, R442). -/
def clkTpinReleaseRow : OpRow := { code := 0x0C02, core := .t, fix := [(1, 2)], codes := 3, lenOk := len8 }
/-- The work of a release. -/
def clkTpinReleaseEff : Effect := fun d s =>
  match firstBad [⟨0, 1, .unsigned, [(0, 15)]⟩, ⟨4, 4, .reserved, []⟩] d.params with
  | some o => (s, .fail (badField o))
  | none =>
    let n := fieldU d.params 0 1
    match tpinHeld n s.dev with
    | some f => (s, .fail f)
    | none => (s.onDev fun v => v.setTpin n {}, .ok [])
/-- CLK_TPIN_RELEASE (R358). -/
def execClkTpinRelease (t : Nat) (d : Datagram) (s : State) : Result :=
  .next (serve clkTpinReleaseRow (.clkTpinRelease t d) t d clkTpinReleaseEff s)

/-- The junction temperature: the highest of the die sensors, in quarter degrees (R522). -/
def Dev.junctionQ (v : Dev) : Int := v.pow.dieQ.foldl max (v.pow.dieQ.headD 0)

/-- A calibration of the output paths, which holds the temperature it was made at (R352). -/
def Dev.calibrateOutputs (v : Dev) : Dev :=
  { v with clk := v.clk.calibrateOutputs false, pow := { v.pow with calTemp := v.junctionQ } }

/-- CLK.CALIBRATE (R352, R442). -/
def clkCalibrateRow : OpRow := { code := 0x0C03, core := .t, lenOk := fun p => p.length == 4 }
/-- The work of CLK.CALIBRATE. -/
def clkCalibrateEff : Effect := fun d s =>
  match firstBad [⟨0, 4, .reserved, []⟩] d.params with
  | some o => (s, .fail (badField o))
  | none => (s.onDev fun v => v.calibrateOutputs.raise evCalibration 1, .ok [])
/-- CLK_CALIBRATE (R352). -/
def execClkCalibrate (t : Nat) (d : Datagram) (s : State) : Result := .next (serve clkCalibrateRow (.clkCalibrate t d) t d clkCalibrateEff s)

/-! ### FP.CONFIG (R353, R354, R356) -/

/-- R353: offset of the first field that breaks a rule. -/
def fpoBad (v : Dev) (p : List Byte) : Option Nat :=
  match firstBad fpoCfgFields p with
  | some o => some o
  | none =>
    let c := readFpoCfg p 0
    let anchorType := (v.ref c.anchorRef).cfg.type
    if c.mode = 2 && c.fpo > 3 then some 3
    else if c.rateDen = 0 || c.rateNum * 1000 < c.rateDen || c.rateNum > 1000000 * c.rateDen then some 4
    else if c.widthNs = 0 || c.widthNs * c.rateNum ≥ 1000000000 * c.rateDen then some 12
    else if c.mode != 2 && c.offsetQ != 0 then some 16
    else if (c.mode == 2) == (c.anchorRef == 255) then some 24
    else if c.mode = 2 && !(anchorType = 1 || anchorType = 2) then some 24
    else none

/-- New settings of a frame-pulse output (R354, R356): with a new rate the grid goes on from the last pulse, so its pulse 0 is that one. -/
def FpoSt.configure (tag : Nat) (k : TcSt) (c : FpoCfg) (x : FpoSt) : FpoSt :=
  let y : FpoSt := { x with owner := some tag, cfg := c }
  if x.cfg.mode != c.mode || x.cfg.tc != c.tc || c.mode = 0 then
    { y with gridP := none, nextK := 0, lastT := none, anchored := false, everAnchored := false, slewing := false, acceptAct := none,
             pendingU := if c.mode = 1 then x.pendingU else none }
  else if c.mode = 2 then { y with anchored := false, everAnchored := false, slewing := false, acceptAct := none }
  else if x.cfg.rateNum != c.rateNum || x.cfg.rateDen != c.rateDen then
    { y with gridP := x.gridP.map (· + k.pulseP x.cfg (x.nextK - 1)), nextK := min 1 x.nextK }
  else y

/-- FP.CONFIG set (R353, R442). -/
def fpConfigSetRow : OpRow := { code := 0x0D01, core := .t, fix := [(1, 0)], codes := 3, lenOk := fun p => p.length == 32 }
/-- A frame-pulse output takes a record from its claimant (R349, R353). -/
def Dev.setFpoCfg (tag : Nat) (c : FpoCfg) (v : Dev) : Dev := v.modFpo c.fpo (FpoSt.configure tag (v.tc (v.fpo c.fpo).cfg.tc) c)
/-- The work of a set: it claims the output. -/
def fpConfigSetEff : Effect := fun d s =>
  match fpoBad s.dev d.params with
  | some o => (s, .fail (badField o))
  | none =>
    let c := readFpoCfg d.params 0
    match claimFail (s.dev.fpo c.fpo).owner d.leaseTag with
    | some f => (s, .fail f)
    | none => (s.onDev (Dev.setFpoCfg d.leaseTag c), .ok [])
/-- FP_CONFIG_SET (R353). -/
def execFpConfigSet (t : Nat) (d : Datagram) (s : State) : Result := .next (serve fpConfigSetRow (.fpConfigSet t d) t d fpConfigSetEff s)

/-- FP.CONFIG read (R353, R442). -/
def fpConfigReadRow : OpRow :=
  { code := 0x0D01, core := .t, fix := [(1, 1)], codes := 3, lease := fun _ => false, changes := fun _ => false, lenOk := fun p => p.length == 32 }
/-- The work of a read. -/
def fpConfigReadEff : Effect := fun d s =>
  match firstBad [⟨0, 1, .unsigned, [(0, 31)]⟩, ⟨26, 2, .reserved, []⟩] d.params with
  | some o => (s, .fail (badField o))
  | none =>
    let n := fieldU d.params 0 1
    (s, .ok (writeFpoCfg { (s.dev.fpo n).cfg with fpo := n, op := 1 }))
/-- FP_CONFIG_READ (R353). -/
def execFpConfigRead (t : Nat) (d : Datagram) (s : State) : Result := .next (serve fpConfigReadRow (.fpConfigRead t d) t d fpConfigReadEff s)

/-- FP.CONFIG release (R349, R442). -/
def fpConfigReleaseRow : OpRow := { code := 0x0D01, core := .t, fix := [(1, 2)], codes := 3, lenOk := fun p => p.length == 32 }
/-- The work of a release: the output is free and inactive; its pulse count stays. -/
def fpConfigReleaseEff : Effect := fun d s =>
  match firstBad [⟨0, 1, .unsigned, [(0, 31)]⟩, ⟨26, 2, .reserved, []⟩] d.params with
  | some o => (s, .fail (badField o))
  | none => (s.onDev fun v => v.modFpo (fieldU d.params 0 1) fun x => { pulses := x.pulses, lastPulseU := x.lastPulseU }, .ok [])
/-- FP_CONFIG_RELEASE (R349). -/
def execFpConfigRelease (t : Nat) (d : Datagram) (s : State) : Result :=
  .next (serve fpConfigReleaseRow (.fpConfigRelease t d) t d fpConfigReleaseEff s)

/-! ### FP.REALIGN, FP.STATUS and the pulses (R354, R355, R357) -/

/-- Counts U in a millisecond. -/
def msU : Nat := 65536000000

/-- FP.REALIGN (R355, R442). -/
def fpRealignRow : OpRow := { code := 0x0D02, core := .t, lenOk := fun p => p.length == 20 }
/-- The work of FP.REALIGN: T is held for each named output; the reply names those whose pending time was replaced. -/
def fpRealignEff : Effect := fun d s =>
  let p := d.params
  let mask := fieldU p 0 4
  let named := (List.range 32).filter fun n => mask.testBit n
  let v := s.dev
  if named.any fun n => (v.fpo n).cfg.mode != 1 || (v.fpo n).owner != some d.leaseTag then (s, .fail (badField 0))
  else match firstBad [⟨4, 12, .time, []⟩, ⟨16, 4, .reserved, []⟩] p with
    | some o => (s, .fail (badField o))
    | none =>
      let u := fieldT p 4
      if u < msU + v.nowU then (s, .fail (plainFail .late))
      else
        let replaced := (named.map fun n => if (v.fpo n).pendingU.isSome then 2 ^ n else 0).sum
        (s.onDev fun v => named.foldl (fun v n => v.modFpo n fun x => { x with pendingU := some u }) v, .ok (toBE 4 replaced))
/-- FP_REALIGN (R355). -/
def execFpRealign (t : Nat) (d : Datagram) (s : State) : Result := .next (serve fpRealignRow (.fpRealign t d) t d fpRealignEff s)

/-- FP.STATUS's record (R357). -/
def fpRecord (n : Nat) (v : Dev) : List Byte :=
  let x := v.fpo n
  toBE 1 n ++ toBE 1 x.cfg.mode ++ toBE 1 (b01 x.anchored) ++ toBE 1 (b01 (x.slewLeft v.clk.now (v.tc x.cfg.tc) != 0)) ++
  timeBytes x.lastPulseU ++ timeBytes (x.pendingU.getD 0) ++ toBE 8 x.pulses.toNat

/-- FP.STATUS (R357, R435, R442). -/
def fpStatusRow : OpRow := queryRow 0x0D03 false false
/-- The work of FP.STATUS. -/
def fpStatusEff : Effect := query 32 36 false fpRecord (fun _ v => v)
/-- FP_STATUS (R357). -/
def execFpStatus (t : Nat) (d : Datagram) (s : State) : Result := .next (serve fpStatusRow (.fpStatus t d) t d fpStatusEff s)

/-- An output drives a pulse, with its copies on timing pins (R354, R358). -/
def Dev.pulse (n : Nat) (v : Dev) : Dev :=
  let pins := (List.range 16).filter fun k => (v.tpin k).cfg.role == 2 && (v.tpin k).cfg.copyFpo == n
  (v.modFpo n fun x => { x with pulses := x.pulses + 1, lastPulseU := v.nowU, lastT := some v.clk.now, nextK := x.nextK + 1 }).emit (.pulse n pins)

/-- The earliest pending realignment, quarter ps of device time (R355). -/
def Dev.realignQ (v : Dev) : Option Nat := ((v.fpos.filterMap fun e => e.2.pendingU).min?).map qOfU

/-- The realignments whose T has come (R355): each output places pulse 0 and starts its new grid; one event for each T. -/
def Dev.realign (v : Dev) : Dev :=
  if !v.mediaOn then v
  else
    let due := v.fpos.filterMap fun e => match e.2.pendingU with
      | some u => if qOfU u ≤ v.nowQ then some (u, e.1) else none
      | none => none
    let v := due.foldl (fun v e =>
      let k := (v.fpo e.2).cfg.tc
      (v.modFpo e.2 fun x => { x with pendingU := none, gridP := some ((v.tc k).phaseAt v.clk.now), nextK := 0 }).pulse e.2) v
    (due.map (·.1)).eraseDups.foldl (fun v u =>
      v.raise evFpRealign ((due.filter (fun e => e.1 == u)).map (fun e => 2 ^ e.2)).sum) v

/-- REALIGNMENT (R355). -/
def execRealignment (t : Nat) (s : State) : Result :=
  match s.dev.realignQ with
  | some q => .next (s.due (s.dev.clk.instantOf q) t (State.onDev Dev.realign))
  | none => .next (s.arrive t)

/-- The next position of an output's grid: a pulse, unless it is suppressed (R354 to R356). -/
def Dev.framePulse (n : Nat) (v : Dev) : Dev :=
  let x := v.fpo n
  if !v.mediaOn then v
  else if x.suppressed v.clk.now v.nowU then v.setFpo n { x with nextK := x.nextK + 1 }
  else v.pulse n

/-- FRAME_PULSE (R354): the next pulse of a running output. -/
def execFramePulse (t : Nat) (fpo : Fin 32) (s : State) : Result :=
  let x := s.dev.fpo fpo
  match x.pulseT (s.dev.tc x.cfg.tc) x.nextK with
  | some q => .next (s.due q t (State.onDev (Dev.framePulse fpo)))
  | none => .next (s.arrive t)

/-! ### TIME.CONFIG, TIME.SET, TIME.STATUS (R359 to R365) -/

/-- R359: offset of the first field that breaks a rule. -/
def timeBad (v : Dev) (p : List Byte) : Option Nat :=
  match firstBad timeCfgFields p with
  | some o => some o
  | none =>
    let c := readTimeCfg p 0
    if (c.source == 2) == (c.ppsRef == 255) then some 1
    else if c.source = 2 && (v.ref c.ppsRef).cfg.type != 2 then some 1
    else if c.ptpDelay = 1 && c.ptpProfile != 0 then some 5
    else none

/-- New settings of device time: a new source starts its servo, a new PTP port chooses its time transmitter afresh,
and so leaves the time-receiver state (R359, R360, R362). -/
def Dev.setTime (c : TimeCfg) (v : Dev) : Dev :=
  let o := v.clk.cfg
  let port := o.ptpProfile == c.ptpProfile && o.ptpTransport == c.ptpTransport && o.ptpDomain == c.ptpDomain
  let v := { v with clk := { v.clk with cfg := c } }
  let leaves := !port && v.clk.ptpReceiver && c.source == 1 && o.source == 1
  let v := if port then v else (v.setPtp 0 0).loseActivity 32
  let v := if leaves then v.timeHoldover else v
  if o.source = c.source && o.ppsRef = c.ppsRef then v
  else
    let v := { v with clk := { v.clk with goodRun := 0, badRun := 0, servoOut := [], nextPulse := none
                                          rateAdj := if c.source = 0 then 0 else v.clk.rateAdj } }
    v.setServo (if c.source = 0 then .free else .acquiring)

/-- TIME.CONFIG (R359, R442). -/
def timeConfigRow : OpRow := { code := 0x0E01, core := .t, lenOk := fun p => p.length == 28 }
/-- The work of TIME.CONFIG. -/
def timeConfigEff : Effect := fun d s =>
  match timeBad s.dev d.params with
  | some o => (s, .fail (badField o))
  | none => (s.onDev (Dev.setTime (readTimeCfg d.params 0)), .ok [])
/-- TIME_CONFIG (R359). -/
def execTimeConfig (t : Nat) (d : Datagram) (s : State) : Result := .next (serve timeConfigRow (.timeConfig t d) t d timeConfigEff s)

/-- TIME.SET NEXT_PULSE (R363, R442). -/
def timeSetNextPulseRow : OpRow := { code := 0x0E02, core := .t, fix := [(0, 0)], codes := 2, lenOk := fun p => p.length == 16 }
/-- The work of NEXT_PULSE: only under PPS, with whole seconds. -/
def timeSetNextPulseEff : Effect := fun d s =>
  match firstBad [⟨1, 1, .reserved, []⟩] d.params with
  | some o => (s, .fail (badField o))
  | none =>
    if s.dev.clk.cfg.source != 2 then (s, .fail (badField 0))
    else if fieldU d.params 10 6 != 0 then (s, .fail (badField 4))
    else
      (s.onDev fun v => { v with clk := { v.clk with utcOffset := fieldS d.params 2 2
                                                     nextPulse := some (10 * msQ + v.clk.now, fieldU d.params 4 6) } }, .ok [])
/-- TIME_SET_NEXT_PULSE (R363). -/
def execTimeSetNextPulse (t : Nat) (d : Datagram) (s : State) : Result :=
  .next (serve timeSetNextPulseRow (.timeSetNextPulse t d) t d timeSetNextPulseEff s)

/-- TIME.SET STEP (R363, R442). -/
def timeSetStepRow : OpRow := { code := 0x0E02, core := .t, fix := [(0, 1)], codes := 2, lenOk := fun p => p.length == 16 }
/-- The work of STEP: only under FREE, a step to the given value at the first epoch boundary at least 2 ms later. -/
def timeSetStepEff : Effect := fun d s =>
  match firstBad [⟨1, 1, .reserved, []⟩, ⟨4, 12, .time, []⟩] d.params with
  | some o => (s, .fail (badField o))
  | none =>
    if s.dev.clk.cfg.source != 0 then (s, .fail (badField 0))
    else
      (s.onDev fun v =>
        let b := v.stepBoundary
        { v with clk := { v.clk with utcOffset := fieldS d.params 2 2 } }.scheduleStep b ((qOfU (fieldT d.params 4) : Int) - b), .ok [])
/-- TIME_SET_STEP (R363). -/
def execTimeSetStep (t : Nat) (d : Datagram) (s : State) : Result := .next (serve timeSetStepRow (.timeSetStep t d) t d timeSetStepEff s)

/-- TIME.STATUS's record (R365). -/
def timeRecord (v : Dev) : List Byte :=
  let c := v.clk
  toBE 1 c.cfg.source ++ toBE 1 c.servo.code ++ toBEs 2 (if c.cfg.source = 1 then c.utcPtp else c.utcOffset) ++ timeBytes v.nowU ++
  toBEs 8 c.lastOffset ++ toBEs 4 c.rateAdj ++ toBE 8 c.txClockId ++ toBE 4 c.steps.toNat ++ zeros 4

/-- TIME.STATUS (R365, R435, R442). -/
def timeStatusRow : OpRow := queryRow 0x0E03 false false
/-- The work of TIME.STATUS. -/
def timeStatusEff : Effect := query 1 44 false (fun _ v => timeRecord v) (fun _ v => v)
/-- TIME_STATUS (R365). -/
def execTimeStatus (t : Nat) (d : Datagram) (s : State) : Result := .next (serve timeStatusRow (.timeStatus t d) t d timeStatusEff s)

end Sys2Proof.Machine
end

