-- ==== Sys2Proof/Machine/Power.lean ====
section
/-! DEFINITION. Power (R506 to R515, R522 to R525): POWER.STATUS, POWER.DOMAIN, sleep entry and wake, SYS.WAKE, thermal limits. -/
namespace Sys2Proof.Machine
open Sys2Proof

/-- A change to the power state. -/
def Dev.onPow (f : PowerSt → PowerSt) (v : Dev) : Dev := { v with pow := f v.pow }
/-- EV.SYS.POWER (R524): 0 DOMAIN_ON, 1 DOMAIN_OFF, 2 SLEEP_ENTERED, 3 AWAKE. -/
def Dev.powerEvent (code domain : Nat) (v : Dev) : Dev := v.raise evPower (code * 2 ^ 32 + domain)

/-! ### POWER.STATUS (R523) -/

/-- The first of the highest readings, with its number. -/
def hottest (xs : List Int) : Nat × Int :=
  xs.zipIdx.foldl (fun (b : Nat × Int) (e : Int × Nat) => if b.2 < e.1 then (e.2, e.1) else b) (0, xs.headD 0)

/-- power_state (R523). -/
def PowerSt.stateCode (p : PowerSt) : Nat :=
  match p.phase with
  | .entering => 1
  | .asleep => if p.hold then 4 else 2
  | .waking => 3
  | .reset | .booting | .running => 0

/-- domains_on (R506, R523): in sleep PD00 and PD01. -/
def PowerSt.domainsOn (p : PowerSt) : Nat :=
  if p.phase == .asleep then 3 else ((List.range 30).filter fun n => !p.off.contains n).foldl (fun m n => m + 2 ^ n) 0

/-- The record of POWER.STATUS. -/
def powerRecord (v : Dev) : List Byte :=
  let p := v.pow
  toBE 1 p.stateCode ++ toBE 1 p.cause ++ zeros 2 ++ toBE 4 p.domainsOn ++ toBE 4 (p.off.foldl (fun m n => m + 2 ^ n) 0) ++
  toBEs 2 v.junctionQ ++ (List.range 4).flatMap (fun k => toBEs 2 (p.hbmQ.getD k 0)) ++ toBE 1 (hottest (p.dieQ ++ p.hbmQ)).1 ++ zeros 1 ++
  timeBytes p.sleepSinceU ++ toBE 4 p.lastWakeMs.toNat ++ toBE 4 p.sleeps.toNat ++ toBE 4 p.warnings.toNat ++ zeros 4

/-- POWER.STATUS. -/
def powerStatusRow : OpRow :=
  { code := 0x1701, core := .c, lease := fun _ => false, changes := fun _ => false, lenOk := fun p => p.length == 0, asleep := true }
/-- The work of POWER.STATUS. -/
def powerStatusEff : Effect := fun _ s => (s, .ok (powerRecord s.dev))
/-- POWER_STATUS (R523). -/
def execPowerStatus (t : Nat) (d : Datagram) (s : State) : Result := .next (serve powerStatusRow (.powerStatus t d) t d powerStatusEff s)

/-! ### POWER.DOMAIN (R507 to R510) -/

/-- The row of POWER.DOMAIN with an op. -/
def powerDomainRow (op : Byte) : OpRow :=
  { code := 0x1703, core := .c, fix := [(1, op)], codes := 3, changes := fun _ => op != 2, lenOk := len8, asleep := true }
/-- Field rules of POWER.DOMAIN. -/
def powerDomainBad (p : List Byte) : Option Nat := firstBad [⟨0, 1, .unsigned, [(4, 29)]⟩, ⟨2, 6, .reserved, []⟩] p

/-- The unit that keeps a domain on: kind and index of the first object found in some configurations (R508). -/
def domainUser (n : Nat) (cs : List Cfg) (v : Dev) : Option (Nat × Nat) :=
  let first (k : Nat) (xs : List Nat) : Option (Nat × Nat) := (leastOf xs).map fun i => (k, i)
  if n < 8 then
    (first 5 (cs.flatMap fun c => c.statics.map (·.1))).orElse fun _ =>
    (first 4 (cs.flatMap fun c => c.caps.map (·.1))).orElse fun _ =>
    if n = 7 then first 18 (cs.flatMap fun c => (c.audio.filter fun e => e.2.sourceKind != 2).map (·.1)) else none
  else if n < 24 then (cs.filterMap fun c => c.streamOn (n - 8)).head?
  else if n < 28 then
    (first 7 (cs.flatMap fun c => (c.heads.filter fun e => e.1 / 64 + 24 == n && e.2.timing.isSome).map (·.1))).orElse fun _ =>
    first 6 (cs.flatMap fun c => (c.slots.filter fun e => e.1 / 256 + 24 == n && e.2.layer.isSome).map (·.1))
  else if n = 28 then first 18 (cs.flatMap fun c => c.audio.map (·.1))
  else if v.freeze.state = 1 then some (17, 49) else none

/-- The unit that keeps a domain on, judged on every configuration that counts (R508). -/
def Dev.domainServes (n : Nat) (v : Dev) : Option (Nat × Nat) :=
  domainUser n (v.cfgs ++ v.preparedStates ((v.cfgs).getLastD v.cfg)) v

/-- A lane block loses or regains its supply: every direction is down, without an event and without IDLE_ENTER (R509). -/
def Dev.blockSilent (b : Nat) (v : Dev) : Dev :=
  (List.range 32).foldl (fun v i =>
    let n := 32 * b + i
    let l := v.lane n
    (if v.sends n then v.emit (.driver n false) else v).setLane n l.stopped) (v.modBlock b fun x => { x with pll := false })

/-- A cold bring-up of a block that comes on (R82, R509): its board profile is in force, its TX directions wait for the PLL. -/
def Dev.blockStarts (b : Nat) (v : Dev) : Dev :=
  (List.range 32).foldl (fun v i => v.modLane (32 * b + i) fun l => { l with profile := v.settings.live.lane (32 * b + i) }) (v.blockSilent b)

/-- The fabric masters of a domain (R375, R381, R509). -/
def domainMasters (n : Nat) : List Nat :=
  if 24 ≤ n && n < 28 then (List.range 8).map (· + (16 + 8 * (n - 24))) else if n = 28 then [48] else if n = 29 then [49] else []

/-- What switching a domain off does to its units (R509). -/
def Dev.domainDies (n : Nat) (v : Dev) : Dev :=
  let v := if 8 ≤ n && n < 24 then v.blockSilent (n - 8) else v
  let v := (domainMasters n).foldl (fun v m => v.resetMaster m 3) v
  if n = 29 then { v with probes := smMap (fun x : ProbeSt => { x with run := none }) v.probes } else v

/-- A stack's content is undefined until written (R509): it reads as memory that nothing has written (log entry 2). -/
def State.forgetStack (k : Nat) (s : State) : State :=
  { s with mem := s.mem.filter fun c => portOf c.1 / 4 != k
           dev := { s.dev with fabric := { s.dev.fabric with bad := s.dev.fabric.bad.filter fun a => portOf a / 4 != k } } }

/-- A domain takes a state, with its event and what that does to its units (R507, R509, R510). -/
def State.switchDomain (n : Nat) (on : Bool) (s : State) : State :=
  let awake := s.dev.mediaOn
  let s := s.onDev fun v =>
    (v.onPow fun p => { p with off := if on then p.off.filter (· != n) else (p.off ++ [n]).mergeSort }).powerEvent (b01 !on) n
  let s := if on && n < 8 then s.forgetStack (n - 4) else s
  if !awake then s
  else s.onDev fun v => if !on then v.domainDies n else if 8 ≤ n && n < 24 then v.blockStarts (n - 8) else v

/-- The work of POWER.DOMAIN on or off: nothing in the state it has; refused while it serves a unit; in sleep the result is kept for
the wake, else the reply follows the switch. -/
def powerDomainEff (on : Bool) : Effect := fun d s =>
  match powerDomainBad d.params with
  | some o => (s, .fail (badField o))
  | none =>
    let n := fieldU d.params 0 1
    if s.dev.domainOff n != on then (s, .ok [])
    else
      match if on then none else s.dev.domainServes n with
      | some (k, i) => (s, .fail (busyWith k i))
      | none => if s.dev.mediaOn then (s, .later (.domain n)) else (s.switchDomain n on, .ok [])

/-- POWER_DOMAIN_ON (R507). -/
def execPowerDomainOn (t : Nat) (d : Datagram) (s : State) : Result :=
  .next (serve (powerDomainRow 0) (.powerDomainOn t d) t d (powerDomainEff true) s)
/-- POWER_DOMAIN_OFF (R508). -/
def execPowerDomainOff (t : Nat) (d : Datagram) (s : State) : Result :=
  .next (serve (powerDomainRow 1) (.powerDomainOff t d) t d (powerDomainEff false) s)

/-- The work of POWER.DOMAIN read. -/
def powerDomainReadEff : Effect := fun d s =>
  match powerDomainBad d.params with
  | some o => (s, .fail (badField o))
  | none =>
    let n := fieldU d.params 0 1
    (s, .ok (toBE 1 n ++ toBE 1 (b01 !(s.dev.domainOff n)) ++ zeros 6))
/-- POWER_DOMAIN_READ (R507). -/
def execPowerDomainRead (t : Nat) (d : Datagram) (s : State) : Result :=
  .next (serve (powerDomainRow 2) (.powerDomainRead t d) t d powerDomainReadEff s)

/-- The longest time that switching a domain takes (R507). -/
def switchTime (n : Nat) (on : Bool) : Nat := if !on then 5 * msQ else if n < 8 then 500 * msQ else 20 * msQ

/-- The switch of a domain is done: it has its new state, and the command is answered (R507). -/
def State.domainDone (n : Nat) (s : State) : State :=
  match s.dev.daond.deferred.find? fun x => x.kind == DeferKind.domain n with
  | some x => (s.switchDomain n (fieldU x.dgram.params 1 1 == 0)).onDev (Dev.complete (· == DeferKind.domain n) (.ok []))
  | none => s

/-! ### Sleep entry (R511, R512) -/

/-- How POWER.SLEEP names a unit at which a commit is not live (R421, R511). -/
def sleepUnit : UnitId → Nat × Nat
  | .head n => (7, n)
  | .take n => (3, n)
  | .ingress n => (2, n)
  | .egress n => (3, n)
  | .capture n => (4, n)
  | .surface n => (5, n)
  | .slot n => (6, n)
  | .audioChannel n => (18, n)
  | .audioStream n => (3, n)
  | .tone n => (0, n)

/-- An egress stream stops at its next packet boundary; a frame in progress ends without FRAME_END (R512). -/
def Dev.egressSleeps (e : Nat) (v : Dev) : Dev :=
  let x := v.es e
  let v := if x.forwarding then v.probeEnd 1 e false none else v
  match (v.cfg.route e).source with
  | .head _ => v.modEs e fun x => { x with forwarding := false }
  | _ => v.modEs e fun x => { x with forwarding := false, srFrom := false, inSr := false }

/-- A timing channel ends its slew or its switch (R340, R512). -/
def Dev.tcSleeps (k : Nat) (v : Dev) : Dev :=
  let v := v.stopSlew k
  let x := v.tc k
  if x.state == .switching then (v.putTc k { x with target := none, bridging := false, active := none }).switchEvent k 2 x.target x.from_ else v

/-- An output is low in sleep: its grid is gone, a pending realignment waits to be reported (R366, R512). -/
def FpoSt.sleeps (x : FpoSt) : FpoSt :=
  { x with gridP := none, nextK := 0, lastT := none, anchored := false, slewing := false, everAnchored := false, acceptAct := none }

/-- Sleep entry starts (R512): streams stop and lanes enter Dusk, a freeze fails, timing stops, every master is reset. What the table
does within 10 ms is done at once (log entry 30). -/
def Dev.startSleep (v : Dev) : Dev :=
  let v := v.onPow fun p => { p with phase := .entering, sleepReqT := v.clk.now }
  let v := v.cfg.egress.foldl (fun v e => v.egressSleeps e.1) v
  let v := { v with heads := smMap (fun x : HeadSt => { x with sending := false, endDue := false }) v.heads }
  let v := (List.range 512).foldl (fun v n => v.duskEnter n 1) v
  let v := v.freezeFail
  let v := (List.range 8).foldl (fun v k => v.tcSleeps k) v
  let v := v.storeFreqs
  let v := { v with ckos := smMap (fun x : CkoSt => { x with running := false, tail := 0 }) v.ckos, fpos := smMap FpoSt.sleeps v.fpos }
  (List.range 54).foldl (fun v m => v.resetMaster m 3) v

/-- POWER.SLEEP. -/
def powerSleepRow : OpRow := { code := 0x1702, core := .c, lenOk := len8, asleep := true, trial := true }
/-- The work of POWER.SLEEP (R511). -/
def powerSleepEff : Effect := fun d s =>
  match firstBad [⟨0, 8, .reserved, []⟩] d.params with
  | some o => (s, .fail (badField o))
  | none =>
    if s.dev.pow.phase == .asleep then (s, .ok [])
    else
      match (s.dev.daond.commits.flatMap (·.left)).head?, s.dev.daond.prepared.head? with
      | some u, _ => (s, .fail (busyWith (sleepUnit u).1 (sleepUnit u).2))
      | none, some g => (s, .fail (busyWith 21 g.groupId))
      | none, none =>
        if s.dev.pow.phase == .running then (s.onDev Dev.startSleep, .later .sleep) else (s, .fail (plainFail .notReady))
/-- POWER_SLEEP (R511). -/
def execPowerSleep (t : Nat) (d : Datagram) (s : State) : Result := .next (serve powerSleepRow (.powerSleep t d) t d powerSleepEff s)

/-- An ingress stream as it stands once its lanes are off: DOWN, with nothing held of its source (R512, R515). -/
def IngressSt.sleeps (x : IngressSt) : IngressSt :=
  if x.state == .off then x
  else
    { x.searching with state := .down, mismatch := 0, bondError := 0, bonded := false, realign := false, epoch := none, sinceEpoch := 0,
                       held := none, accepted := false, fresh := false, frame := none, rows := [], runOpen := false, hunting := false, endX := none,
                       pixelCount := none, clockSeenT := none, groups := [] }

/-- PD02 to PD29 are off (R512): lanes and streams are down, the delay store is discarded, the sleep counter carries device time. -/
def Dev.sleeps (v : Dev) : Dev :=
  let v : Dev := (List.range 16).foldl (fun v b => v.blockSilent b) v
  let v := { v with ingress := smMap IngressSt.sleeps v.ingress
                    xchans := smMap (fun x : Xc => { x with absent := true, store := [], lost := [] }) v.xchans
                    probes := smMap (fun x : ProbeSt => { x with run := none }) v.probes }
  let u := v.nowU
  let v := v.withState fun v =>
    { v with clk := { v.clk with sleepQ := v.nowQ / 4000, sleepHeld := !v.pow.ethRef, baseQ := v.nowQ / 4000 * 4000, baseF := 0, baseT := v.clk.now, rate := 0 }
             pow := { v.pow with phase := .asleep, sleepSinceU := u, sleeps := v.pow.sleeps + 1, forced := false } }
  v.powerEvent 2 0xFF

/-! ### Wake (R333, R514 to R516) -/

/-- A timing channel starts (R333, R366): in HOLDOVER at its stored frequency with no held reference, else in FREERUN, with C = 0. -/
def Dev.startTc (k : Nat) (v : Dev) : Dev :=
  let x := v.tc k
  let f := smFind k v.settings.live.tcFreq
  let v := v.setTc k
    { x with sel := x.stored.getD x.sel, stored := none, state := if f.isSome then .holdover else .freerun, active := none, target := none,
             from_ := none, bridging := false, start := true, following := false, slewTo := 0, slewT := v.clk.now, buildOut := 0, heldRef := none,
             heldOut := 0, accept := none, holdOffset := f.getD 0, dcoOffset := f.getD 0, binOk := false, wtr := [], locked := false, lockGood := 0,
             lockBad := 0, phase := 0, phaseT := v.clk.now, lockBase := none, lockLast := none, closeT := none, realign := false,
             binQ := v.nowQ, binT := v.clk.now, binPhase := 0 }
  v.decideTc k

/-- A reference starts from NO_ACTIVITY (R514). -/
def RefSt.starts (t : Nat) (x : RefSt) : RefSt :=
  if x.state == .disabled then x
  else { x with state := .noActivity, fresh := true, candidate := none, qualSince := none, lastT := t, samples := [], gateT := t, gateBase := none,
                gateLost := false }

/-- The timing units come up: references, device time under PPS (R362), the channels, the clock outputs. -/
def Dev.startTiming (v : Dev) : Dev :=
  let v : Dev := { v with clk := { v.clk with freqT := v.clk.now } }
  let c := v.clk.cfg
  let lost := c.source == 2 && (v.ref c.ppsRef).state == .qualified
  let v := { v with refs := smMap (RefSt.starts v.clk.now) v.refs }
  let v := if lost then v.timeHoldover else v
  let v := (List.range 8).foldl (fun v k => v.startTc k) v
  { v with ckos := smMap (fun x : CkoSt => { x with running := x.cfg.enable == 1, from_ := v.clk.now + 400000, fineFrom := x.cfg.fineQ }) v.ckos }

/-- The masters are free again with full credit, and every budget is programmed before a unit runs (R398, R514). -/
def Dev.startFabric (v : Dev) : Dev :=
  let v := ((List.range 54).foldl (fun v m => v.drained m) v).programBudgets
  { v with fabric := { v.fabric with masters := smMap (fun x : MasterSt => { x with credit := x.budget.map Int.ofNat }) v.fabric.masters } }

/-- A head of the sleep record starts (R515): one in self-refresh stays in it. -/
def Dev.wakeHead (h : Nat) (v : Dev) : Dev :=
  if v.cfg.pairOdd h || (v.cfg.head h).timing.isNone then v
  else
    let old := v.head h
    (v.startHead h v.nowQ).modHead h fun x => { x with inSr := old.inSr, srSent := old.srSent || old.srDue, srDusk := old.srDusk }

/-- A layer keeps its pins and selects afresh (R515). -/
def LayerSt.wakes (l : LayerSt) : LayerSt :=
  { l with shown := [], selected := false, ready := false, cur := none, idx := 0, rem := 0, blendB := none, bound := none, fallback := none,
           lastBegun := none, policyActs := false, lineActs := false, prev := [], short := false }

/-- An embedded channel waits under R293 with four fresh values (R515). -/
def Dev.wakeChannel (ch : Nat) (a : AudioChCfg) (v : Dev) : Dev :=
  (v.startCh ch).modEc ch fun c =>
    if a.sourceKind != 2 && a.delayMode = 0 then { c with dAuto := none, delay := none, fresh := true, trans := none } else { c with trans := none }

/-- The media units of the sleep record start (R514, R515). -/
def Dev.startMedia (v : Dev) : Dev :=
  let v := (List.range 16).foldl (fun v b => if v.domainOff (8 + b) then v else v.blockStarts b) v
  let v := { v with egress := smMap (fun x : EgressSt => { x with hostDusk := false, audioOn := false, clocks := [] }) v.egress, layers := smMap LayerSt.wakes v.layers }
  let v := v.cfg.heads.foldl (fun v e => v.wakeHead e.1) v
  v.cfg.audio.foldl (fun v e => v.wakeChannel e.1 e.2) v

/-- Device time is loaded from the sleep counter (R366). A counter that was held makes the next measurement count as the first (R548). -/
def Dev.loadTime (v : Dev) : Dev :=
  { v with clk := { v.clk with baseQ := v.clk.sleepNs * 4000, baseF := 0, baseT := v.clk.now, rate := v.clk.rateAdj, sleepHeld := false
                               firstDone := v.clk.firstDone && !v.clk.sleepHeld } }

/-- The wake sequence starts (R514): device time, the images of components 2 to 5 (R516), timing, fabric, media. -/
def Dev.startWake (v : Dev) : Dev :=
  let v := v.loadTime.onPow fun p => { p with phase := .waking, wakeReqT := v.clk.now, coreDown := p.coreDown.filter (· == 0) }
  let v := v.onFw fun f => [2, 3, 4, 5].foldl FwSt.bootComp f
  ((v.missRealigns fun _ => true).startTiming.startFabric).startMedia

/-- SYS.WAKE. -/
def sysWakeRow : OpRow := { code := 0x0106, core := .c, lenOk := fun p => p.length == 0, asleep := true, repair := true }
/-- The work of SYS.WAKE (R514, R522, R525). -/
def sysWakeEff : Effect := fun _ s =>
  match s.dev.pow.phase with
  | .asleep => if s.dev.pow.hold then (s, .fail (busyWith 0 0)) else (s.onDev Dev.startWake, .later .wake)
  | .entering | .waking => (s, .later .wake)
  | _ => (s, .ok [])
/-- SYS_WAKE (R514). -/
def execSysWake (t : Nat) (d : Datagram) (s : State) : Result := .next (serve sysWakeRow (.sysWake t d) t d sysWakeEff s)

/-- Sleep entry is complete (R512): the reply leaves; a SYS.WAKE that came meanwhile is served (R525). -/
def Dev.sleepDone (v : Dev) : Dev :=
  let v := (v.sleeps).complete (· == DeferKind.sleep) (.ok [])
  if v.daond.deferred.any fun x => x.kind == DeferKind.wake then
    if v.pow.hold then v.complete (· == DeferKind.wake) (.fail (busyWith 0 0)) else v.startWake
  else v

/-- The wake is complete (R514, R516): dev_state READY, or BOOTING where a component verifies in neither slot. -/
def Dev.wakeDone (v : Dev) : Dev :=
  let ok := v.fw.bootOk
  let ms := (v.clk.now - v.pow.wakeReqT) / msQ
  let v := v.withState fun v => v.onPow fun p => { p with phase := if ok then .running else .booting, lastWakeMs := BitVec.ofNat 32 ms }
  let v := (v.powerEvent 3 0xFF).reportBoot
  v.complete (· == DeferKind.wake) (if ok then .ok [] else .fail (plainFail .notReady))

/-! ### Thermal limits (R522) -/

/-- EV.SYS.THERMAL (R524): 0 WARNING_ON, 1 WARNING_OFF, 2 CRITICAL, 3 HOLD_ENDED, with the hottest die sensor. -/
def Dev.thermalEvent (code : Nat) (v : Dev) : Dev :=
  let h := hottest v.pow.dieQ
  v.raise evThermal (code * 2 ^ 32 + sBits 16 h.2 * 65536 + h.1)

/-- Exactly `n` readings: cut, or filled with 0. -/
def readings (n : Nat) (xs : List Int) : List Int := xs.take n ++ List.replicate (n - xs.length) 0

/-- The warning limit: 95 °C rising, 92 °C falling. -/
def Dev.thermalWarn (v : Dev) : Dev :=
  let j := v.junctionQ
  if !v.pow.warned && 380 < j then (v.onPow fun p => { p with warned := true, warnings := satInc p.warnings }).thermalEvent 0
  else if v.pow.warned && j < 368 then (v.onPow fun p => { p with warned := false }).thermalEvent 1 else v

/-- Doubled refresh of a stack above 85 °C, with EV.MEM.REFRESH at a change (R393). -/
def Dev.thermalRefresh (k : Nat) (v : Dev) : Dev :=
  let hot : Bool := decide (340 < v.pow.hbmQ.getD k 0)
  let v' := { v with fabric := { v.fabric with refresh := smPut k hot v.fabric.refresh } }
  if smGet false k v.fabric.refresh == hot then v else v'.raise (4786 + k) (if hot then 2 else 1)

/-- Recalibration of the CKO and FPO paths: 3 °C since the last calibration (R352). -/
def Dev.thermalCalibrate (v : Dev) : Dev :=
  if v.mediaOn && v.coreUp .t && decide (12 ≤ (v.junctionQ - v.pow.calTemp).natAbs) then
    v.calibrateOutputs.raise evCalibration 0
  else v

/-- A thermal hold ends below 90 °C. -/
def Dev.thermalHold (v : Dev) : Dev :=
  if v.pow.hold && v.junctionQ < 360 then (v.onPow fun p => { p with hold := false }).thermalEvent 3 else v

/-- A sample of the sensors while the device runs or sleeps. -/
def Dev.thermalSample (v : Dev) : Dev :=
  let v := v.onPow fun p => { p with hotSince := if 440 < v.junctionQ then (match p.hotSince with | some w => some w | none => some v.clk.now) else none }
  let v := v.thermalWarn
  let v := if v.mediaOn then (List.range 4).foldl (fun v k => v.thermalRefresh k) v else v
  v.thermalHold.thermalCalibrate

/-- Pending commits and prepared transactions are discarded, each reported (R522). -/
def Dev.discardAll (v : Dev) : Dev :=
  let ks := v.daond.commits ++ v.daond.saved ++ v.daond.prepared.map (·.commit)
  ks.foldl (fun v k => v.raise evDiscarded k.generation.toNat) { v with daond := { v.daond with commits := [], saved := [], prepared := [] } }

/-- Sleep entry under a thermal hold: whatever is pending is discarded, and a wake stops (R522, R525). -/
def Dev.forceSleep (v : Dev) : Dev :=
  ((v.complete (· == DeferKind.wake) (.fail (busyWith 0 0))).discardAll.onPow fun p => { p with forced := true }).startSleep

/-- Critical temperature (R522, R525): the hold applies, and the device goes to sleep; a boot first runs to its end. -/
def Dev.critical (v : Dev) : Dev :=
  let v := (v.onPow fun p => { p with hold := true }).thermalEvent 2
  match v.pow.phase with
  | .running | .waking => v.forceSleep
  | _ => v

/-- THERMAL_CRITICAL (R522): Tj has been above 110 °C for 10 ms. -/
def execThermalCritical (t : Nat) (s : State) : Result :=
  .next (match s.dev.pow.hotSince with
    | some w => if s.dev.alive && !s.dev.pow.hold then s.due (10 * msQ + w) t (State.onDev Dev.critical) else s.arrive t
    | none => s.arrive t)

end Sys2Proof.Machine
end

