-- ==== Sys2Proof/Machine/Security.lean ====
section
/-! DEFINITION. Access control (R495 to R500): the service plane, password, challenge and back-off, the SVC. operations, the JTAG TAP;
and attestation (R501 to R503). -/
namespace Sys2Proof.Machine
open Sys2Proof

/-! ### SEC.STATUS (R499) -/

/-- Exactly `n` bytes of a value: cut, or filled with zeros. -/
def fitBytes (n : Nat) (p : List Byte) : List Byte := p.take n ++ zeros (n - p.length)
/-- A change to the security state. -/
def Dev.onSec (g : SecSt → SecSt) (v : Dev) : Dev := { v with sec := g v.sec }
/-- identity_hash: the digest of the identity public key (R497). -/
def identityHash : List Byte := fitBytes 32 (Config.shake256 Config.identityKey)
/-- Whether a password is set. -/
def Dev.hasPassword (v : Dev) : Bool := !v.settings.live.hash.isEmpty
/-- EV.SYS.SECURITY (R504). -/
def Dev.secEvent (code scope : Nat) (v : Dev) : Dev := v.raise evSecurity (code * 2 ^ 32 + scope)

/-- The record of SEC.STATUS. -/
def secRecord (v : Dev) : List Byte :=
  let q := v.sec
  toBE 1 (b01 (q.scope == 0)) ++ toBE 1 q.scope ++ toBE 1 (b01 v.hasPassword) ++ toBE 1 q.failures ++
  toBE 4 (if q.scope = 0 then 0 else (q.openUntil - v.clk.now) / secQ) ++
  toBE 4 (match q.backoff with | some e => (e - v.clk.now) / msQ | none => 0) ++ toBE 2 v.fw.epoch ++ toBE 1 v.fw.revoked ++
  toBE 1 (b01 v.settings.live.retired) ++ toBE 8 q.nextIndex ++ toBE 8 v.settings.live.reservedEnd ++ identityHash

/-- SEC.STATUS. -/
def secStatusRow : OpRow :=
  { code := 0x1601, core := .c, lease := fun _ => false, changes := fun _ => false, lenOk := fun p => p.length == 0, asleep := true, repair := true }
/-- The work of SEC.STATUS. -/
def secStatusEff : Effect := fun _ s => (s, .ok (secRecord s.dev))
/-- SEC_STATUS (R499). -/
def execSecStatus (t : Nat) (d : Datagram) (s : State) : Result := .next (serve secStatusRow (.secStatus t d) t d secStatusEff s)

/-! ### SEC.UNLOCK and SEC.SEAL (R495, R497, R498) -/

/-- The row of SEC.UNLOCK with a method. -/
def secUnlockRow (method : Byte) (len : Nat) : OpRow :=
  { code := 0x1602, core := .c, fix := [(0, method)], codes := 2, lenOk := fun p => p.length == len, asleep := true, repair := true }

/-- The plane opens with the scopes asked for (R497). -/
def Dev.openPlane (scope secs : Nat) (v : Dev) : Dev :=
  (v.onSec fun q => { q with scope := scope, openUntil := v.clk.now + secQ * secs }).secEvent 0 scope
/-- The plane seals, with its event when it was open (R495). -/
def Dev.sealPlane (v : Dev) : Dev := if v.sec.scope = 0 then v else (v.onSec fun q => { q with scope := 0, openUntil := 0 }).secEvent 1 v.sec.scope

/-- Whether the password back-off runs. -/
def Dev.backingOff (v : Dev) : Bool := match v.sec.backoff with | some e => decide (v.clk.now < e) | none => false

/-- A wrong password: counted, and from the fifth in a row on it starts a back-off, which doubles up to 3,600 s (R498). -/
def Dev.wrongPassword (scope : Nat) (v : Dev) : Dev :=
  let n := v.sec.failures + 1
  let v := (v.onSec fun q => { q with failures := min n 255 }).secEvent 2 scope
  if n < 5 then v
  else
    let len := if n = 5 then 60 else min 3600 (2 * max 60 v.sec.backoffLen)
    (v.onSec fun q => { q with backoff := some (v.clk.now + secQ * len), backoffLen := len }).secEvent 3 scope

/-- Field rules of SEC.UNLOCK PASSWORD. -/
def unlockPasswordBad (p : List Byte) : Option Nat :=
  (firstBad [⟨1, 1, .unsigned, [(0, 3)]⟩, ⟨2, 1, .unsigned, [(8, 64)]⟩, ⟨3, 1, .reserved, []⟩, ⟨4, 4, .unsigned, [(60, 86400)]⟩] p).orElse fun _ =>
    if (p.drop (8 + fieldU p 2 1)).all (· == 0) then none else some 8

/-- The work of SEC.UNLOCK PASSWORD. -/
def secUnlockPasswordEff : Effect := fun d s =>
  let p := d.params
  match unlockPasswordBad p with
  | some o => (s, .fail (badField o))
  | none =>
    if !s.dev.hasPassword then (s, .fail (badField 0))
    else if s.dev.backingOff then (s, .fail (plainFail .backoff))
    else
      let x := s.dev.settings.live
      if fitBytes 32 (Config.shake256 (x.salt ++ sliceB p 8 (fieldU p 2 1))) == x.hash then
        (s.onDev fun v => (v.onSec fun q => { q with failures := 0, backoffLen := 0 }).openPlane (fieldU p 1 1) (fieldU p 4 4), .ok [])
      else (s.onDev (Dev.wrongPassword (fieldU p 1 1)), .fail (plainFail .authFailed))
/-- SEC_UNLOCK_PASSWORD (R497). -/
def execSecUnlockPassword (t : Nat) (d : Datagram) (s : State) : Result :=
  .next (serve (secUnlockRow 0 72) (.secUnlockPassword t d) t d secUnlockPasswordEff s)

/-- Field rules of SEC.UNLOCK RESPONSE. -/
def unlockResponseBad (p : List Byte) : Option Nat :=
  firstBad [⟨1, 1, .unsigned, [(0, 7)]⟩, ⟨2, 1, .reserved, []⟩, ⟨3, 1, .unsigned, [(0, 1)]⟩, ⟨4, 4, .unsigned, [(60, 86400)]⟩, ⟨8, 64, .reserved, []⟩] p

/-- The 88-byte message that a response signs (R497). -/
def responseMessage (nonce p : List Byte) : List Byte :=
  nonce ++ fitBytes 16 serialBytes ++ identityHash ++ sliceB p 1 1 ++ zeros 3 ++ sliceB p 4 4

/-- Whether a response verifies against the current challenge (R470, R497). -/
def Dev.responseOk (p : List Byte) (v : Dev) : Bool :=
  match v.sec.challenge with
  | some (nonce, issued) =>
    decide (v.clk.now < 300 * secQ + issued) && v.fw.keyOk (fieldU p 3 1) (sliceB p 72 68) &&
      Config.xmssVerify (sliceB p 72 68) (responseMessage nonce p) (sliceB p 140 2820)
  | none => false

/-- The work of SEC.UNLOCK RESPONSE: the challenge is consumed whatever the outcome, a parameter that breaks its rule included; the
password method uses no challenge and consumes none (R497; DEDUCED, log entry 52). -/
def secUnlockResponseEff : Effect := fun d s =>
  let p := d.params
  let used := s.onDev (Dev.onSec fun q => { q with challenge := none })
  match unlockResponseBad p with
  | some o => (used, .fail (badField o))
  | none =>
    if s.dev.responseOk p then (used.onDev (Dev.openPlane (fieldU p 1 1) (fieldU p 4 4)), .ok [])
    else (used.onDev (Dev.secEvent 2 (fieldU p 1 1)), .fail (plainFail .authFailed))
/-- SEC_UNLOCK_RESPONSE (R497). -/
def execSecUnlockResponse (t : Nat) (d : Datagram) (s : State) : Result :=
  .next (serve (secUnlockRow 1 2960) (.secUnlockResponse t d) t d secUnlockResponseEff s)

/-- SEC.SEAL. -/
def secSealRow : OpRow := { code := 0x1603, core := .c, lenOk := fun p => p.length == 0, asleep := true, repair := true }
/-- The work of SEC.SEAL. -/
def secSealEff : Effect := fun _ s => (s.onDev Dev.sealPlane, .ok [])
/-- SEC_SEAL (R495). -/
def execSecSeal (t : Nat) (d : Datagram) (s : State) : Result := .next (serve secSealRow (.secSeal t d) t d secSealEff s)

/-! ### SEC.PASSWORD and SEC.CHALLENGE (R496, R497) -/

/-- The row of SEC.PASSWORD with an op. -/
def secPasswordRow (op : Byte) : OpRow :=
  { code := 0x1604, core := .c, fix := [(0, op)], codes := 2, lenOk := fun p => p.length == 68, asleep := true, repair := true, trial := true, stores := true }
/-- Field rules of SEC.PASSWORD: the length allowed, and zeros beyond it. -/
def passwordBad (set : Bool) (p : List Byte) : Option Nat :=
  (firstBad [if set then ⟨1, 1, .unsigned, [(8, 64)]⟩ else ⟨1, 1, .reserved, []⟩, ⟨2, 2, .reserved, []⟩] p).orElse fun _ =>
    if (p.drop (4 + fieldU p 1 1)).all (· == 0) then none else some 4
/-- Whether the password may change: none is set, or REGISTERS is open (R496). -/
def Dev.passwordFree (v : Dev) : Bool := !v.hasPassword || v.sec.scope.testBit 0

/-- The work of a set: a fresh salt, and the hash of salt and password (R496). -/
def secPasswordSetEff : Effect := fun d s =>
  let p := d.params
  match passwordBad true p with
  | some o => (s, .fail (badField o))
  | none =>
    if !s.dev.passwordFree then (s, .fail (plainFail .locked))
    else
      let salt := fitBytes 16 (Config.random s.dev.sec.draws)
      let hash := fitBytes 32 (Config.shake256 (salt ++ sliceB p 4 (fieldU p 1 1)))
      (s.onDev fun v => ((v.onSec fun q => { q with draws := q.draws + 1 }).changeSettings fun x => { x with salt := salt, hash := hash }).secEvent 4 v.sec.scope,
        .ok [])
/-- SEC_PASSWORD_SET (R496). -/
def execSecPasswordSet (t : Nat) (d : Datagram) (s : State) : Result :=
  .next (serve (secPasswordRow 0) (.secPasswordSet t d) t d secPasswordSetEff s)

/-- The work of a clear. -/
def secPasswordClearEff : Effect := fun d s =>
  match passwordBad false d.params with
  | some o => (s, .fail (badField o))
  | none =>
    if !s.dev.passwordFree then (s, .fail (plainFail .locked))
    else (s.onDev fun v => (v.changeSettings fun x => { x with salt := [], hash := [] }).secEvent 5 v.sec.scope, .ok [])
/-- SEC_PASSWORD_CLEAR (R496). -/
def execSecPasswordClear (t : Nat) (d : Datagram) (s : State) : Result :=
  .next (serve (secPasswordRow 1) (.secPasswordClear t d) t d secPasswordClearEff s)

/-- SEC.CHALLENGE. -/
def secChallengeRow : OpRow := { code := 0x1605, core := .c, lenOk := fun p => p.length == 0, asleep := true, repair := true }
/-- The work of SEC.CHALLENGE: a new nonce replaces the current one (R497). -/
def secChallengeEff : Effect := fun _ s =>
  let nonce := fitBytes 32 (Config.random s.dev.sec.draws)
  (s.onDev fun v => v.onSec fun q => { q with draws := q.draws + 1, challenge := some (nonce, v.clk.now) }, .ok (nonce ++ fitBytes 16 serialBytes ++ identityHash))
/-- SEC_CHALLENGE (R497). -/
def execSecChallenge (t : Nat) (d : Datagram) (s : State) : Result := .next (serve secChallengeRow (.secChallenge t d) t d secChallengeEff s)

/-! ### SEC.ATTEST (R501 to R503) -/

/-- Bytes 0 to 423 of the report (R502). -/
def attestHead (nonce : List Byte) (v : Dev) : List Byte :=
  let q := v.settings
  let comp (k : Nat) : List Byte :=
    let c := v.fw.comp k
    toBE 4 (c.version.getD c.active 0) ++ toBE 1 c.active ++ toBE 1 c.state ++ zeros 2 ++ fitBytes 32 (c.digest.getD c.active [])
  toBE 4 0x56484E52 ++ toBE 1 1 ++ toBE 1 (b01 (v.sec.scope == 0)) ++ toBE 1 v.sec.scope ++ toBE 1 v.devState ++ fitBytes 16 serialBytes ++ nonce ++
  timeBytes v.nowU ++ toBE 8 q.loadedSeq ++ fitBytes 32 q.loadedDigest ++ toBE 2 v.fw.epoch ++ toBE 1 v.fw.revoked ++ zeros 1 ++
  (List.range 6).flatMap comp ++ fitBytes 68 Config.identityKey ++ zeros 4

/-- The report signed with the next index and written to REPORT (R501, R502). -/
def Dev.signReport (nonce : List Byte) (v : Dev) : Dev :=
  let h := attestHead nonce v
  { v.onSec (fun q => { q with nextIndex := q.nextIndex + 1 }) with
    fw := { v.fw with report := h ++ fitBytes 9893 (Config.xmssSign v.sec.nextIndex h) } }

/-- The reply of SEC.ATTEST: report_len. -/
def attestReply : Answer := .ok (toBE 4 10317)

/-- SEC.ATTEST. -/
def secAttestRow : OpRow :=
  { code := 0x1606, core := .c, lenOk := fun p => p.length == 36, asleep := true, repair := true, trial := true, stores := true }
/-- The work of SEC.ATTEST: an index of the reserved block is used; a new block is reserved by a write that must first complete. -/
def secAttestEff : Effect := fun d s =>
  match firstBad [⟨32, 4, .reserved, []⟩] d.params with
  | some o => (s, .fail (badField o))
  | none =>
    let v := s.dev
    if v.settings.live.retired then (s, .fail (plainFail .attestRetired))
    else if v.sec.nextIndex < v.settings.live.reservedEnd then (s.onDev (Dev.signReport (d.params.take 32)), attestReply)
    else if !v.writeReady then (s, .fail (plainFail .busy))
    else (s.onDev fun v => (v.changeSettings fun x => { x with reservedEnd := v.sec.nextIndex + 1024 }).startWrite, .later .attest)
/-- SEC_ATTEST (R502). -/
def execSecAttest (t : Nat) (d : Datagram) (s : State) : Result := .next (serve secAttestRow (.secAttest t d) t d secAttestEff s)

/-- The write that reserves a block is complete: the waiting SEC.ATTEST signs and is answered (R501). -/
def Dev.attestGoes (v : Dev) : Dev :=
  match v.daond.deferred.find? fun x => x.kind == .attest with
  | some x => (v.signReport (x.dgram.params.take 32)).complete (· == .attest) attestReply
  | none => v

/-! ### SVC. (R495, R500) -/

/-- The row of an SVC operation. -/
def svcRow (code scope : Nat) (chg : Bool) (lenOk : List Byte → Bool) : OpRow :=
  { code := code, core := .c, changes := fun _ => chg, lenOk := lenOk, scope := some scope }
/-- Field rules of SVC.REG_READ and SVC.REG_WRITE. -/
def svcRegBad (p : List Byte) : Option Nat :=
  if fieldU p 0 4 % 4 != 0 then some 0 else firstBad [⟨4, 2, .unsigned, [(1, 2048)]⟩, ⟨6, 2, .reserved, []⟩] p
/-- The word of a CFG register: as written, else as Config gives it (log entry 12). -/
def Dev.cfgWord (a : Nat) (v : Dev) : BitVec 32 := (smFind a v.sec.cfgRegs).getD (Config.cfgRegister a)

/-- SVC.REG_READ. -/
def svcRegReadRow : OpRow := svcRow 0x1801 0 false len8
/-- The work of SVC.REG_READ. -/
def svcRegReadEff : Effect := fun d s =>
  match svcRegBad d.params with
  | some o => (s, .fail (badField o))
  | none => (s, .ok ((List.range (fieldU d.params 4 2)).flatMap fun i => toBE 4 (s.dev.cfgWord (fieldU d.params 0 4 + 4 * i)).toNat))
/-- SVC_REG_READ (R500). -/
def execSvcRegRead (t : Nat) (d : Datagram) (s : State) : Result := .next (serve svcRegReadRow (.svcRegRead t d) t d svcRegReadEff s)

/-- SVC.REG_WRITE. -/
def svcRegWriteRow : OpRow := svcRow 0x1802 0 true fun p => decide (8 ≤ p.length) && p.length == 8 + 4 * fieldU p 4 2
/-- The work of SVC.REG_WRITE: the registers change; no guarantee of the manual holds from then on. -/
def svcRegWriteEff : Effect := fun d s =>
  let p := d.params
  match svcRegBad p with
  | some o => (s, .fail (badField o))
  | none =>
    (s.onDev (Dev.onSec fun q =>
      { q with cfgTouched := true
               cfgRegs := (List.range (fieldU p 4 2)).foldl (fun m i => smPut (fieldU p 0 4 + 4 * i) (BitVec.ofNat 32 (fieldU p (8 + 4 * i) 4)) m) q.cfgRegs }), .ok [])
/-- SVC_REG_WRITE (R500). -/
def execSvcRegWrite (t : Nat) (d : Datagram) (s : State) : Result := .next (serve svcRegWriteRow (.svcRegWrite t d) t d svcRegWriteEff s)

/-- Field rules of SVC.EYE and SVC.MARGIN. -/
def svcLaneBad (p : List Byte) : Option Nat := firstBad [⟨0, 2, .unsigned, [(0, 511)]⟩, ⟨2, 6, .reserved, []⟩] p

/-- SVC.EYE. -/
def svcEyeRow : OpRow := svcRow 0x1803 1 false len8
/-- The work of SVC.EYE: 64 x 32 measured error counts over 10^7 bits, which are free values (log entry 5). -/
def svcEyeEff : Effect := fun d s =>
  match svcLaneBad d.params with
  | some o => (s, .fail (badField o))
  | none =>
    (s.onDev fun v => { v with draws := v.draws + 2048 },
      .ok ((List.range 2048).flatMap fun i => toBE 4 (Config.freeNat (s.dev.draws + i) % 10000001)))
/-- SVC_EYE (R500). -/
def execSvcEye (t : Nat) (d : Datagram) (s : State) : Result := .next (serve svcEyeRow (.svcEye t d) t d svcEyeEff s)

/-- SVC.MARGIN. -/
def svcMarginRow : OpRow := svcRow 0x1804 1 false len8
/-- The work of SVC.MARGIN: four measured margins, which are free values (log entry 5). -/
def svcMarginEff : Effect := fun d s =>
  match svcLaneBad d.params with
  | some o => (s, .fail (badField o))
  | none =>
    (s.onDev fun v => { v with draws := v.draws + 4 }, .ok ((List.range 4).flatMap fun i => toBE 2 (Config.freeNat (s.dev.draws + i))))
/-- SVC_MARGIN (R500). -/
def execSvcMargin (t : Nat) (d : Datagram) (s : State) : Result := .next (serve svcMarginRow (.svcMargin t d) t d svcMarginEff s)

/-! ### Happenings -/

/-- NONCE_EXPIRY (R497). -/
def execNonceExpiry (t : Nat) (s : State) : Result :=
  .next (match s.dev.sec.challenge with
    | some (_, issued) => s.due (300 * secQ + issued) t (State.onDev (Dev.onSec fun q => { q with challenge := none }))
    | none => s.arrive t)

/-- BACKOFF_END (R498). -/
def execBackoffEnd (t : Nat) (s : State) : Result :=
  .next (match s.dev.sec.backoff with
    | some e => s.due e t (State.onDev (Dev.onSec fun q => { q with backoff := none }))
    | none => s.arrive t)

/-- SERVICE_PLANE_EXPIRY (R495). -/
def execServicePlaneExpiry (t : Nat) (s : State) : Result :=
  .next (if s.dev.sec.scope != 0 then s.due s.dev.sec.openUntil t (State.onDev Dev.sealPlane) else s.arrive t)

/-- IDCODE (R495). -/
def idcode : BitVec 32 := 0x35120A6B

/-- What the TAP shifts out for the bits shifted in (R544, IEEE 1149.1): IDCODE's 32 bits come first, BYPASS delays by one bit, which
is 0 first. With the JTAG scope closed every other instruction selects BYPASS; with it open, what the others give is not stated, so
their bits are free values. -/
def Dev.tapOut (ir : Nat) (tdi : List Bool) (v : Dev) : List Bool :=
  if ir = 0 then (((List.range 32).map fun i => idcode.getLsbD i) ++ tdi).take tdi.length
  else if ir = 1 || !v.sec.scope.testBit 2 then (false :: tdi).take tdi.length
  else (List.range tdi.length).map fun i => Config.freeNat (v.draws + i) % 2 == 1

/-- JTAG_TAP_ACCESS (R495, R544): `ir` is 0 IDCODE, 1 BYPASS, 2 any other instruction. -/
def execJtagTapAccess (t : Nat) (ir : Nat) (tdi : List Bool) (s : State) : Result :=
  .next ((s.arrive t).onDev fun v =>
    let bits := v.tapOut ir tdi
    let free := ir ≥ 2 && v.sec.scope.testBit 2
    let v := v.onSec fun q => { q with tapIr := if ir = 0 then 0 else if free then 2 else 1 }
    ({ v with draws := if free then v.draws + tdi.length else v.draws }).emit (.tdo bits))

end Sys2Proof.Machine
end

