-- ==== Sys2Proof/Machine/Boot.lean ====
section
/-! DEFINITION. Reset and boot (R474 to R476, R517 to R520), the input clocks OSC and ETH_REFCLK (R548), and the sensor samples with
the thermal trip (R522). -/
namespace Sys2Proof.Machine
open Sys2Proof

/-! ### Reset (R519, R520) -/

/-- The device in its reset state: what is kept are the fuses, the flash and the settings store, the pins, the sensors and the cause
held in PD00 (R519, R523), and the model's own counters of draws. -/
def Dev.inReset (cause : Nat) (v : Dev) : Dev :=
  { clk := { now := v.clk.now, servoDraws := v.clk.servoDraws }
    daond := { tagDraws := v.daond.tagDraws }
    blocks := smMap (fun x : BlockSt => { refclk := x.refclk }) v.blocks
    fw := v.fw.kept
    settings := { copies := v.settings.copies }
    sec := { draws := v.sec.draws }
    pow := { phase := .reset, pwrOk := v.pow.pwrOk, resetN := v.pow.resetN, osc := v.pow.osc, ethRef := v.pow.ethRef, straps := v.pow.straps,
             cause := cause, tripHold := v.pow.tripHold, dieQ := v.pow.dieQ, hbmQ := v.pow.hbmQ, calTemp := v.pow.calTemp, sampleT := v.pow.sampleT }
    draws := v.draws
    out := (v.lanes.filter fun e => e.2.tx != .down && e.2.tx != .dusk).map fun e => Output.driver e.1 false }

/-- A reset of the device: the content of frame memory is undefined, which reads as memory that nothing has written (log entry 2). -/
def State.resetDevice (cause : Nat) (s : State) : State := { s with dev := s.dev.inReset cause, mem := [] }

/-- A reset unless the device is in its reset state already. -/
def State.resetOnce (cause : Nat) (s : State) : State := if s.dev.pow.phase == .reset then s else s.resetDevice cause

/-! ### Boot (R474 to R476) -/

/-- STRAP[2:1] = 0b11 and STRAP[7] = 1 are reserved: the device answers nothing (R533). -/
def strapsReserved (x : Nat) : Bool := x / 2 % 4 == 3 || x.testBit 7

/-- What the boot starts once its images verify: timing, every lane block and the budgets (R474). -/
def Dev.bootUnits (v : Dev) : Dev :=
  let v := { v with clk := (v.clk.calibrate).calibrateOutputs true, pow := { v.pow with calTemp := v.junctionQ } }
  let v := v.startTiming.startFabric
  (List.range 16).foldl (fun v b => v.blockStarts b) v

/-- The boot up to the point where Daond is answered (R474): images, settings, network, units. -/
def Dev.boot (v : Dev) : Dev :=
  let v := { v with clk := { v.clk with riseT := v.clk.now, baseT := v.clk.now, baseQ := 0, baseF := 0 }
                    pow := { v.pow with phase := .booting }
                    sec := { v.sec with backoff := some (60 * secQ + v.clk.now), backoffLen := 60 } }
  let v := if strapsReserved v.pow.straps then v.onFw fun f => { f with dead := true } else v.bootFirmware
  if v.fw.dead then v
  else
    let v := v.loadSettings
    let v := v.netApply v.settings.live.network
    if v.fw.bootOk then v.bootUnits else v

/-- The device boots when nothing holds it in reset (R518, R522, R548). -/
def Dev.tryBoot (v : Dev) : Dev :=
  if v.pow.phase == .reset && v.pow.resetN && v.pow.pwrOk && v.pow.osc && !v.pow.tripHold then v.boot else v

/-- RESET_N_RISE (R474, R518, R533): the straps are sampled; PWR_OK has been high as R518 has it. -/
def execResetNRise (t : Nat) (straps : BitVec 8) (s : State) : Result :=
  .next ((s.arrive t).onDev fun v =>
    if v.pow.resetN then v else (v.onPow fun p => { p with resetN := true, pwrOk := true, straps := straps.toNat }).tryBoot)

/-- The power-up preset commits as an IMMEDIATE commit; a refusal is reported (R476). -/
def State.bootPreset (s : State) : State :=
  let n := s.dev.settings.live.bootPreset
  let os := s.dev.settings.live.preset n
  if n = 0xFFFF || os.isEmpty then s
  else match admitNow os s with
    | (_, .fail f) => s.onDev fun v => v.raise evSettings (3 * 2 ^ 32 + f.status.code * 65536 + n)
    | (s', _) => s'

/-- The boot is done: dev_state READY. A thermal hold that critical temperature applied meanwhile takes the device to sleep (R522; DEDUCED,
log entry 30). -/
def Dev.ready (v : Dev) : Dev :=
  let v := (v.withState fun v => v.onPow fun p => { p with phase := .running }).reportBoot
  if v.pow.hold then v.forceSleep else v

/-- BOOT_READY (R474): at the latest 6 s after RESET_N rose, the preset is committed and dev_state becomes READY. -/
def execBootReady (t : Nat) (s : State) : Result :=
  .next (if s.dev.pow.phase == .booting && s.dev.fw.bootOk && !s.dev.fw.dead then
      s.within (s.dev.clk.riseT + 6 * secQ) t fun s => s.bootPreset.onDev Dev.ready
    else s.arrive t)

/-- RESET_N_FALL (R519): a pulse below 100 ns is ignored, one of 1 us or more resets; between them the spec leaves it open. -/
def execResetNFall (t : Nat) (widthNs : Nat) (s : State) : Result :=
  .next (
    let s := s.arrive t
    if widthNs < 100 || (widthNs < 1000 && !Config.resetGlitch widthNs) then s
    else (s.resetOnce 1).onDev fun v => v.onPow fun p => { p with resetN := false })

/-- PWR_OK_FALL (R520): a power loss when RESET_N is high. -/
def execPwrOkFall (t : Nat) (s : State) : Result :=
  .next (
    let s := s.arrive t
    (if s.dev.pow.resetN then s.resetOnce 3 else s).onDev fun v => v.onPow fun p => { p with pwrOk := false })

/-! ### Input clocks (R548) -/

/-- OSC_LOSS (R548). -/
def execOscLoss (t : Nat) (s : State) : Result :=
  .next (((s.arrive t).resetOnce 3).onDev fun v => v.onPow fun p => { p with osc := false })

/-- OSC_RESTORED (R548). -/
def execOscRestored (t : Nat) (s : State) : Result :=
  .next ((s.arrive t).onDev fun v => (v.onPow fun p => { p with osc := true }).tryBoot)

/-- ETH_REFCLK stops (R548): awake, the link goes down, and device time under PTP enters holdover; in sleep the counter holds. -/
def Dev.ethStops (v : Dev) : Dev :=
  let v := v.onPow fun p => { p with ethRef := false }
  if !v.alive then v
  else
    let v := v.linkDown
    if v.pow.phase == .asleep then
      { v with clk := { v.clk with sleepQ := v.clk.sleepNs, baseT := v.clk.now, sleepHeld := true } }
    else if v.clk.cfg.source = 1 then v.timeHoldover else v

/-- ETH_REFCLK_LOSS (R548). -/
def execEthRefclkLoss (t : Nat) (s : State) : Result := .next ((s.arrive t).onDev Dev.ethStops)

/-! ### The sensors (R522) -/

/-- A sensor above 120 °C resets the device, and it stays in reset until Tj is below 90 °C; other limits act while it is out of reset. -/
def State.sample (die hbm : List Int) (s : State) : State :=
  let s := s.onDev fun v => v.onPow fun p => { p with dieQ := readings 16 die, hbmQ := readings 4 hbm }
  let p := s.dev.pow
  if (p.dieQ ++ p.hbmQ).any fun x => decide (480 < x) then (s.resetOnce 2).onDev fun v => v.onPow fun p => { p with tripHold := true }
  else if p.phase == .reset then
    s.onDev fun v => if v.pow.tripHold && v.junctionQ < 360 then (v.onPow fun p => { p with tripHold := false }).tryBoot else v
  else if s.dev.alive then s.onDev Dev.thermalSample else s

/-- THERMAL_SAMPLE (R522): the sensors read every 1 ms. -/
def execThermalSample (t : Nat) (die hbm : List Int) (s : State) : Result :=
  .next (s.due (s.dev.pow.sampleT + msQ) t fun s => (s.onDev fun v => v.onPow fun p => { p with sampleT := v.clk.now }).sample die hbm)

end Sys2Proof.Machine
end

