-- ==== Sys2Proof/Machine/EventCmds.lean ====
section
/-! DEFINITION. Reading events: EVENT.POLL (R452, R453), EVENT.LOG (R455) and EVENT.LEDGER (R457). -/
namespace Sys2Proof.Machine
open Sys2Proof

/-- The row of an EVENT operation: CORE.C, no lease, in sleep too; 16 bytes of parameters. -/
def eventRow (code : Nat) : OpRow :=
  { code := code, core := .c, lease := fun _ => false, changes := fun _ => false, lenOk := fun p => p.length == 16, asleep := true }

/-! ### EVENT.POLL -/

/-- Field rules of EVENT.POLL (R452). -/
def eventPollFields : List FieldRule :=
  [⟨0, 8, .unsigned, [(1, 2 ^ 64 - 1)]⟩, ⟨8, 2, .unsigned, [(0, 4863)]⟩, ⟨10, 2, .unsigned, [(0, 208)]⟩, ⟨12, 4, .reserved, []⟩]

/-- The sources whose last occurrence is at or above `since`, in rising order (R453). -/
def Events.changed (since : Nat) (e : Events) : List (Nat × EvSrc) := e.srcs.filter fun x => decide (since ≤ x.2.lastOcc)

/-- The bitmap of R453: source n is bit n mod 8 of byte n div 8. -/
def sourceMap (ns : List Nat) : List Byte :=
  (List.range 608).map fun k => (ns.filter (fun n => n / 8 == k)).foldl (fun b n => b ||| BitVec.ofNat 8 (2 ^ (n % 8))) (0 : Byte)

/-- The record of one source (R453). -/
def sourceRecord (x : Nat × EvSrc) : List Byte :=
  toBE 2 x.1 ++ zeros 2 ++ toBE 4 x.2.count.toNat ++ timeBytes x.2.lastTime ++ toBE 8 x.2.lastOcc ++ toBE 8 x.2.lastDetail ++ zeros 4

/-- The work of EVENT.POLL (R453): a snapshot, and whether set bits remain above the last detail. -/
def eventPollEff : Effect := fun d s =>
  match firstBad eventPollFields d.params with
  | some o => (s, .fail (badField o))
  | none =>
    let ch := s.dev.ev.changed (fieldU d.params 0 8)
    let from_ := ch.filter fun x => decide (fieldU d.params 8 2 ≤ x.1)
    let det := from_.take (fieldU d.params 10 2)
    (s, .done .ok (toBE 8 s.dev.ev.nextOcc ++ timeBytes s.dev.nowU ++ toBE 2 det.length ++ zeros 2 ++ sourceMap (ch.map (·.1)) ++
      det.flatMap sourceRecord) (decide (det.length < from_.length)))
/-- EVENT_POLL (R453). -/
def execEventPoll (t : Nat) (d : Datagram) (s : State) : Result := .next (serve (eventRow 0x1101) (.eventPoll t d) t d eventPollEff s)

/-! ### EVENT.LOG -/

/-- Field rules of EVENT.LOG (R455). -/
def eventLogFields : List FieldRule := [⟨8, 2, .unsigned, [(1, 279)]⟩, ⟨10, 6, .reserved, []⟩]

/-- Entries lost to a reader that continues at `from_`, saturated (R455). -/
def lostEntries (oldest from_ : Nat) : Nat := min (oldest - from_) 0xFFFFFFFF

/-- One entry of the log (R455). -/
def logRecord (x : LogEntry) : List Byte := toBE 8 x.seq ++ toBE 2 x.source ++ zeros 2 ++ timeBytes x.time ++ toBE 8 x.detail

/-- Sequence of the oldest entry that the log holds. -/
def Events.logOldest (e : Events) : Nat := e.logNext - e.log.length

/-- The work of EVENT.LOG (R455). -/
def eventLogEff : Effect := fun d s =>
  match firstBad eventLogFields d.params with
  | some o => (s, .fail (badField o))
  | none =>
    let e := s.dev.ev
    let from_ := fieldU d.params 0 8
    let out := (e.log.filter fun x => decide (from_ ≤ x.seq)).take (fieldU d.params 8 2)
    (s, .ok (toBE 8 e.logOldest ++ toBE 8 e.logNext ++ toBE 8 e.suppressed.toNat ++ toBE 4 (lostEntries e.logOldest from_) ++
      toBE 2 out.length ++ zeros 2 ++ out.flatMap logRecord))
/-- EVENT_LOG (R455). -/
def execEventLog (t : Nat) (d : Datagram) (s : State) : Result := .next (serve (eventRow 0x1102) (.eventLog t d) t d eventLogEff s)

/-! ### EVENT.LEDGER -/

/-- Field rules of EVENT.LEDGER (R457). -/
def eventLedgerFields : List FieldRule := [⟨8, 2, .unsigned, [(1, 279)]⟩, ⟨10, 1, .unsigned, [(0, 1)]⟩, ⟨11, 1, .reserved, []⟩]

/-- One entry of the ledger (R457). -/
def ledgerRecord (x : LedgerEntry) : List Byte :=
  toBE 8 x.seq ++ toBE 4 x.generation.toNat ++ toBE 1 x.kind ++ toBE 1 x.outcome ++ toBE 2 x.unit ++ timeBytes x.boundary ++
  toBE 4 x.frameNumber.toNat

/-- Sequence of the oldest entry that the ledger holds. -/
def Events.ledgerOldest (e : Events) : Nat := e.ledgerNext - e.ledger.length

/-- The examination of R457: entries returned, and the sequence after the last entry examined. `room` entries may still be
returned, `left` still be examined. -/
def examine (keep : LedgerEntry → Bool) : Nat → Nat → Nat → List LedgerEntry → List LedgerEntry × Nat
  | _, _, at_, [] => ([], at_)
  | room, left, at_, x :: r =>
    if room = 0 || left = 0 then ([], at_)
    else
      let rest := examine keep (if keep x then room - 1 else room) (left - 1) (x.seq + 1) r
      (if keep x then x :: rest.1 else rest.1, rest.2)

/-- The work of EVENT.LEDGER (R457). -/
def eventLedgerEff : Effect := fun d s =>
  match firstBad eventLedgerFields d.params with
  | some o => (s, .fail (badField o))
  | none =>
    let e := s.dev.ev
    let from_ := fieldU d.params 0 8
    let filt := bit (fieldU d.params 10 1) 0
    let gen := BitVec.ofNat 32 (fieldU d.params 12 4)
    let start := max from_ e.ledgerOldest
    let res := examine (fun x => !filt || x.generation == gen) (fieldU d.params 8 2) 16384 start (e.ledger.filter fun x => decide (from_ ≤ x.seq))
    (s, .ok (toBE 8 e.ledgerOldest ++ toBE 8 e.ledgerNext ++ toBE 8 res.2 ++ toBE 4 (lostEntries e.ledgerOldest from_) ++
      toBE 2 res.1.length ++ zeros 2 ++ res.1.flatMap ledgerRecord))
/-- EVENT_LEDGER (R457). -/
def execEventLedger (t : Nat) (d : Datagram) (s : State) : Result := .next (serve (eventRow 0x1103) (.eventLedger t d) t d eventLedgerEff s)

end Sys2Proof.Machine
end

