-- ==== Sys2Proof/Machine/ProbeCmds.lean ====
section
/-! DEFINITION. PROBE.CONFIG (R459), PROBE.FREEZE (R461, R462) and PROBE.STATUS (R463). -/
namespace Sys2Proof.Machine
open Sys2Proof

/-! ### PROBE.CONFIG -/

/-- PROBE.CONFIG. -/
def probeConfigRow : OpRow := { code := 0x1201, core := .m, lenOk := fun p => p.length == 16 }

/-- The work of PROBE.CONFIG: the record takes effect at the stream's next FRAME_START (R459); refused while PD29 is off (R508). -/
def probeConfigEff : Effect := fun d s =>
  match firstBad probeCfgFields d.params with
  | some o => (s, .fail (badField o))
  | none =>
    let c := readProbeCfg d.params 0
    match s.dev.streamInside c.direction c.stream 0 with
    | some f => (s, .fail f)
    | none =>
      if s.dev.domainOff 29 then (s, .fail (busyAt 0 0 0))
      else (s.onDev fun v => v.modProbe (probeNo c.direction c.stream) fun x => { x with next := some c }, .ok [])
/-- PROBE_CONFIG (R459). -/
def execProbeConfig (t : Nat) (d : Datagram) (s : State) : Result :=
  .next (serve probeConfigRow (.probeConfig t d) t d probeConfigEff s)

/-! ### PROBE.FREEZE -/

/-- The format of a stream's current frames (R461): the held FORMAT of an ingress stream, that of what an egress stream carries. -/
def Dev.probedFormat (dir n : Nat) (v : Dev) : Option Desc :=
  v.heldFormat (if dir = 0 then .ingress n else (v.cfg.route n).source) v.cfg

/-- Why an arm is refused (R17, R461, R508). -/
def Dev.armBad (c : FreezeCfg) (v : Dev) : Option Fail :=
  (v.streamInside c.direction c.stream 0).orElse fun _ => match smFind c.surface v.cfg.statics with
  | none => some (badAt 4 5 c.surface)
  | some x =>
    if !(x.state == SurfState.open_ || x.state == SurfState.incomplete) || x.storage != 0 then some (badAt 4 5 c.surface)
    else if region2 < x.base + x.size then some (badAt 4 19 region2)
    else if (match v.probedFormat c.direction c.stream with | some f => !freezeFits x f | none => false) then some (badAt 4 5 c.surface)
    else if v.freeze.state = 1 then some (busyWith (2 + v.freeze.cfg.direction) v.freeze.cfg.stream)
    else if v.domainOff 29 then some (busyAt 0 0 0)
    else none

/-- The freeze armed; a surface that a failed freeze left INCOMPLETE is OPEN again (R462). -/
def Dev.armFreeze (c : FreezeCfg) (v : Dev) : Dev :=
  { v.modStatic c.surface (fun x => { x with state := .open_ }) with
    freeze := { v.freeze with state := 1, cfg := c, armedU := v.nowU, writing := false, lines := 0 } }

/-- The row of PROBE.FREEZE. -/
def probeFreezeRow (fix : List (Nat × Byte)) : OpRow := { code := 0x1202, core := .m, fix := fix, codes := 6, lenOk := fun p => p.length == 28 }

/-- The work of a cancel: a freeze that is not armed stays as it is (R461). -/
def probeFreezeCancelEff : Effect := fun d s =>
  match firstBad freezeCfgFields d.params with
  | some o => (s, .fail (badField o))
  | none =>
    let c := readFreezeCfg d.params 0
    match s.dev.streamInside c.direction c.stream 0 with
    | some f => (s, .fail f)
    | none => (s.onDev fun v => if v.freeze.state = 1 then { v with freeze := { v.freeze with state := 0, writing := false } } else v, .ok [])

/-- The work of an arm (R461); with trigger 0 the datagram is a cancel. -/
def probeFreezeArmEff : Effect := fun d s =>
  let c := readFreezeCfg d.params 0
  if c.trigger = 0 then probeFreezeCancelEff d s
  else match (firstBad freezeCfgFields d.params).map badField |>.orElse fun _ => s.dev.armBad c with
    | some f => (s, .fail f)
    | none => (s.onDev (Dev.armFreeze c), .ok [])
/-- PROBE_FREEZE_ARM (R461). -/
def execProbeFreezeArm (t : Nat) (d : Datagram) (s : State) : Result :=
  .next (serve (probeFreezeRow []) (.probeFreezeArm t d) t d probeFreezeArmEff s)
/-- PROBE_FREEZE_CANCEL (R461). -/
def execProbeFreezeCancel (t : Nat) (d : Datagram) (s : State) : Result :=
  .next (serve (probeFreezeRow [(3, 0)]) (.probeFreezeCancel t d) t d probeFreezeCancelEff s)

/-! ### PROBE.STATUS -/

/-- The statistics of one component (R463): with count 0, min and max read 0. -/
def statsRecord (a : List Nat) : List Byte :=
  toBE 4 (a.getD 0 0) ++ toBE 2 (a.getD 1 0) ++ toBE 2 (a.getD 2 0) ++ toBE 8 (a.getD 3 0) ++ toBE 8 (a.getD 4 0)

/-- The 160-byte record of a probe (R463). -/
def probeRecord (dir n : Nat) (v : Dev) : List Byte :=
  let p := v.probe (probeNo dir n)
  let f := v.freeze
  let mine := f.state != 0 && f.cfg.direction == dir && f.cfg.stream == n
  let held := f.held.filter fun x => x.cfg.direction == dir && x.cfg.stream == n
  toBE 2 n ++ toBE 1 dir ++ toBE 1 (if v.domainOff 29 then 0 else (p.next.getD p.cfg).enable) ++ toBE 4 p.frameNo ++ toBE 1 p.flags ++
  toBE 1 p.crcResult ++ toBE 1 (if mine then f.state else 0) ++ zeros 1 ++ (List.range 3).flatMap (fun k => toBE 4 (p.crc.getD k 0).toNat) ++
  timeBytes (uOfQ p.startQ) ++ toBE 8 p.periodQ ++ toBE 2 p.linesReceived ++ toBE 2 p.firstLine ++ toBE 2 p.lastLine ++ toBE 2 p.linesSent ++
  toBE 4 p.frames.toNat ++ toBE 4 p.mismatchFrames.toNat ++ zeros 4 ++ (List.range 3).flatMap (fun k => statsRecord (p.stats.getD k [])) ++
  match held with
  | some x => toBE 4 x.frameNo ++ toBE 2 x.cfg.surface ++ toBE 2 x.lines ++ timeBytes (uOfQ x.startQ) ++ zeros 4
  | none => zeros 4 ++ [0xFF, 0xFF] ++ zeros 2 ++ timeBytes 0 ++ zeros 4

/-- A clear zeroes crc_mismatch_frames (R463). -/
def probeClear (dir n : Nat) (v : Dev) : Dev := v.modProbe (probeNo dir n) fun x => { x with mismatchFrames := 0 }

/-- PROBE.STATUS. -/
def probeStatusRow : OpRow := queryRow 0x1203 true false
/-- The work of PROBE.STATUS: bit 1 of the flags selects the direction (R435, R463). -/
def probeStatusEff : Effect := fun d s =>
  let dir := b01 (bit (fieldU d.params 2 1) 1)
  match s.dev.streamInside dir (fieldU d.params 0 2) 0 with
  | some f => (s, .fail f)
  | none => query 512 160 true (probeRecord dir) (probeClear dir) d s
/-- PROBE_STATUS (R463). -/
def execProbeStatus (t : Nat) (d : Datagram) (s : State) : Result :=
  .next (serve probeStatusRow (.probeStatus t d) t d probeStatusEff s)

end Sys2Proof.Machine
end

