-- ==== Sys2Proof/Machine/Resume.lean ====
section
/-! DEFINITION. Commands that wait, and the happenings that let them run: restarts of the cores (R42, R446, R479), the ends of sleep
entry, wake and domain switches (R507, R512, R514), and the end of a settings write (R489, R501). -/
namespace Sys2Proof.Machine
open Sys2Proof

/-! ### What waits -/

/-- The row, the datagram and the work of a command that came as a Daond datagram; none for the happenings. -/
def command (i : Instr) : Option (OpRow × Datagram × Effect) :=
  match i with
  | .sysInfo _ d => some (sysInfoRow, d, sysInfoEff)
  | .sysPing _ d => some (sysPingRow, d, sysPingEff)
  | .sysLeaseAcquire _ d => some (sysLeaseAcquireRow, d, sysLeaseAcquireEff)
  | .sysLeaseRenew _ d => some (sysLeaseRenewRow, d, sysLeaseRenewEff)
  | .sysLeaseRelease _ d => some (sysLeaseReleaseRow, d, sysLeaseReleaseEff)
  | .sysLeaseRead _ d => some (sysLeaseReadRow, d, sysLeaseReadEff)
  | .sysNetSet _ d => some (sysNetSetRow, d, sysNetSetEff)
  | .sysNetRead _ d => some (sysNetReadRow, d, sysNetReadEff)
  | .sysFabricSetTarget _ d => some ((fabricRow 0), d, sysFabricSetTargetEff)
  | .sysFabricReadTarget _ d => some ((fabricRow 1), d, sysFabricReadTargetEff)
  | .sysFabricReadClearTarget _ d => some ((fabricRow 2), d, sysFabricReadClearTargetEff)
  | .sysFabricSetMaster _ d => some ((fabricRow 3), d, sysFabricSetMasterEff)
  | .sysFabricReadMaster _ d => some ((fabricRow 4), d, sysFabricReadMasterEff)
  | .sysFabricReadClearMaster _ d => some ((fabricRow 5), d, sysFabricReadClearMasterEff)
  | .sysWake _ d => some (sysWakeRow, d, sysWakeEff)
  | .sysCounters _ d => some (sysCountersRow, d, sysCountersEff)
  | .laneConfig _ d => some (laneConfigRow, d, laneConfigEff)
  | .laneIdleEnter _ d => some (laneIdleEnterRow, d, laneIdleEnterEff)
  | .laneIdleExit _ d => some (laneIdleExitRow, d, laneIdleExitEff)
  | .lanePrbs _ d => some (lanePrbsRow, d, lanePrbsEff)
  | .laneStatus _ d => some (laneStatusRow, d, laneStatusEff)
  | .streamConfigIngress _ d => some (streamConfigIngressRow, d, (stagedEff 0x0301))
  | .streamConfigEgress _ d => some (streamConfigEgressRow, d, (stagedEff 0x0301))
  | .streamStatusIngress _ d => some (streamStatusIngressRow, d, streamStatusEff)
  | .streamStatusEgress _ d => some (streamStatusEgressRow, d, streamStatusEff)
  | .routeTake _ d => some (routeTakeRow, d, (stagedEff 0x0401))
  | .routeStatus _ d => some (routeStatusRow, d, routeStatusEff)
  | .capConfig _ d => some (capConfigRow, d, (stagedEff 0x0501))
  | .capStatus _ d => some (capStatusRow, d, capStatusEff)
  | .surfCreate _ d => some (surfCreateRow, d, (stagedEff 0x0601))
  | .surfSeal _ d => some (surfSealRow, d, (stagedEff 0x0602))
  | .surfUnseal _ d => some (surfUnsealRow, d, (stagedEff 0x0603))
  | .surfDelete _ d => some (surfDeleteRow, d, (stagedEff 0x0604))
  | .surfStatus _ d => some (surfStatusRow, d, surfStatusEff)
  | .layerConfig _ d => some (layerConfigRow, d, (stagedEff 0x0701))
  | .layerLutLoad _ d => some (layerLutLoadRow, d, (stagedEff 0x0702))
  | .layerLutRead _ d => some (layerLutReadRow, d, layerLutReadEff)
  | .layerMatrix _ d => some (layerMatrixRow, d, (stagedEff 0x0703))
  | .layerSynth _ d => some (layerSynthRow, d, (stagedEff 0x0704))
  | .layerScalerSet _ d => some (layerScalerSetRow, d, (stagedEff 0x0705))
  | .layerScalerRead _ d => some (layerScalerReadRow, d, layerScalerReadEff)
  | .layerScalerReadClear _ d => some (layerScalerReadClearRow, d, layerScalerReadClearEff)
  | .layerCoeffLoad _ d => some (layerCoeffLoadRow, d, (stagedEff 0x0706))
  | .layerCoeffRead _ d => some (layerCoeffReadRow, d, layerCoeffReadEff)
  | .layerStatus _ d => some (layerStatusRow, d, layerStatusEff)
  | .headTiming _ d => some (headTimingRow, d, (stagedEff 0x0801))
  | .headColour _ d => some (headColourRow, d, (stagedEff 0x0802))
  | .headSrEnter _ d => some (headSrEnterRow, d, (stagedEff 0x0803))
  | .headSrExit _ d => some (headSrExitRow, d, (stagedEff 0x0803))
  | .headStatus _ d => some (headStatusRow, d, headStatusEff)
  | .audioChannel _ d => some (audioChannelRow, d, (stagedEff 0x0901))
  | .audioStream _ d => some (audioStreamRow, d, (stagedEff 0x0902))
  | .audioTone _ d => some (audioToneRow, d, (stagedEff 0x0903))
  | .audioStatus _ d => some (audioStatusRow, d, audioStatusEff)
  | .refConfig _ d => some (refConfigRow, d, refConfigEff)
  | .refSelectSet _ d => some (refSelectSetRow, d, refSelectSetEff)
  | .refSelectRead _ d => some (refSelectReadRow, d, refSelectReadEff)
  | .refAccept _ d => some (refAcceptRow, d, refAcceptEff)
  | .refRealign _ d => some (refRealignRow, d, refRealignEff)
  | .refStatus _ d => some (refStatusRow, d, refStatusEff)
  | .tcConfigSet _ d => some (tcConfigSetRow, d, tcConfigSetEff)
  | .tcConfigRead _ d => some (tcConfigReadRow, d, tcConfigReadEff)
  | .tcStatus _ d => some (tcStatusRow, d, tcStatusEff)
  | .clkConfigSet _ d => some (clkConfigSetRow, d, clkConfigSetEff)
  | .clkConfigRead _ d => some (clkConfigReadRow, d, clkConfigReadEff)
  | .clkConfigRelease _ d => some (clkConfigReleaseRow, d, clkConfigReleaseEff)
  | .clkTpinSet _ d => some (clkTpinSetRow, d, clkTpinSetEff)
  | .clkTpinRead _ d => some (clkTpinReadRow, d, clkTpinReadEff)
  | .clkTpinRelease _ d => some (clkTpinReleaseRow, d, clkTpinReleaseEff)
  | .clkCalibrate _ d => some (clkCalibrateRow, d, clkCalibrateEff)
  | .fpConfigSet _ d => some (fpConfigSetRow, d, fpConfigSetEff)
  | .fpConfigRead _ d => some (fpConfigReadRow, d, fpConfigReadEff)
  | .fpConfigRelease _ d => some (fpConfigReleaseRow, d, fpConfigReleaseEff)
  | .fpRealign _ d => some (fpRealignRow, d, fpRealignEff)
  | .fpStatus _ d => some (fpStatusRow, d, fpStatusEff)
  | .timeConfig _ d => some (timeConfigRow, d, timeConfigEff)
  | .timeSetNextPulse _ d => some (timeSetNextPulseRow, d, timeSetNextPulseEff)
  | .timeSetStep _ d => some (timeSetStepRow, d, timeSetStepEff)
  | .timeStatus _ d => some (timeStatusRow, d, timeStatusEff)
  | .stageOpen _ d => some (stageOpenRow, d, stageOpenEff)
  | .stageAdd _ d => some (stageAddRow, d, stageAddEff)
  | .stageCommitImmediate _ d => some ((stageCommitRow 0), d, stageCommitImmediateEff)
  | .stageCommitTimed _ d => some ((stageCommitRow 1), d, stageCommitTimedEff)
  | .stageCommitPrepare _ d => some ((stageCommitRow 2), d, stageCommitPrepareEff)
  | .stageAbortOpen _ d => some ((stageAbortRow 0), d, stageAbortOpenEff)
  | .stageAbortPrepared _ d => some ((stageAbortRow 1), d, stageAbortPreparedEff)
  | .stageStatus _ d => some (stageStatusRow, d, stageStatusEff)
  | .groupCommit _ d => some (groupCommitRow, d, groupCommitEff)
  | .eventPoll _ d => some ((eventRow 0x1101), d, eventPollEff)
  | .eventLog _ d => some ((eventRow 0x1102), d, eventLogEff)
  | .eventLedger _ d => some ((eventRow 0x1103), d, eventLedgerEff)
  | .probeConfig _ d => some (probeConfigRow, d, probeConfigEff)
  | .probeFreezeArm _ d => some ((probeFreezeRow []), d, probeFreezeArmEff)
  | .probeFreezeCancel _ d => some ((probeFreezeRow [(3, 0)]), d, probeFreezeCancelEff)
  | .probeStatus _ d => some (probeStatusRow, d, probeStatusEff)
  | .bulkWrite _ d => some (bulkWriteRow, d, bulkWriteEff)
  | .bulkRead _ d => some (bulkReadRow, d, bulkReadEff)
  | .fwStatus _ d => some (fwStatusRow, d, fwStatusEff)
  | .fwInstallManifest _ d => some ((fwInstallRow 0), d, fwInstallManifestEff)
  | .fwInstallImage _ d => some ((fwInstallRow 1), d, fwInstallImageEff)
  | .fwActivate _ d => some (fwActivateRow, d, fwActivateEff)
  | .fwConfirm _ d => some (fwConfirmRow, d, fwConfirmEff)
  | .fwRevert _ d => some (fwRevertRow, d, fwRevertEff)
  | .setStatus _ d => some (setStatusRow, d, setStatusEff)
  | .setRead _ d => some (setReadRow, d, setReadEff)
  | .setWrite _ d => some (setWriteRow, d, setWriteEff)
  | .setPresetSave _ d => some (setPresetSaveRow, d, setPresetSaveEff)
  | .setPresetLoad _ d => some (setPresetLoadRow, d, setPresetLoadEff)
  | .secStatus _ d => some (secStatusRow, d, secStatusEff)
  | .secUnlockPassword _ d => some ((secUnlockRow 0 72), d, secUnlockPasswordEff)
  | .secUnlockResponse _ d => some ((secUnlockRow 1 2960), d, secUnlockResponseEff)
  | .secSeal _ d => some (secSealRow, d, secSealEff)
  | .secPasswordSet _ d => some ((secPasswordRow 0), d, secPasswordSetEff)
  | .secPasswordClear _ d => some ((secPasswordRow 1), d, secPasswordClearEff)
  | .secChallenge _ d => some (secChallengeRow, d, secChallengeEff)
  | .secAttest _ d => some (secAttestRow, d, secAttestEff)
  | .powerStatus _ d => some (powerStatusRow, d, powerStatusEff)
  | .powerSleep _ d => some (powerSleepRow, d, powerSleepEff)
  | .powerDomainOn _ d => some ((powerDomainRow 0), d, (powerDomainEff true))
  | .powerDomainOff _ d => some ((powerDomainRow 1), d, (powerDomainEff false))
  | .powerDomainRead _ d => some ((powerDomainRow 2), d, powerDomainReadEff)
  | .svcRegRead _ d => some (svcRegReadRow, d, svcRegReadEff)
  | .svcRegWrite _ d => some (svcRegWriteRow, d, svcRegWriteEff)
  | .svcEye _ d => some (svcEyeRow, d, svcEyeEff)
  | .svcMargin _ d => some (svcMarginRow, d, svcMarginEff)
  | _ => none

/-- A command that waited takes its turn: it waits on where something still holds it, is refused where the state of the device now
refuses it (R443, R512), else runs (R419). -/
def State.takeTurn (i : Instr) (s : State) : State :=
  match command i with
  | some (r, d, eff) =>
    let d := r.apply d
    if s.dev.holds r d then s.onDev fun v => { v with daond := { v.daond with waiting := v.daond.waiting ++ [i] } }
    else match stateCheck r d s.dev with
      | some st => s.onDev fun v => v.conclude r.code v.daond.net.cfg.deviceNumber d (.fail { status := st, opIndex := 0xFFFF })
      | none => match r.badCode d.params with
        | some o => refuseCode r eff o d s
        | none => runEffect r eff d s
  | none => s

/-- Every command that waits takes its turn, in order of arrival. -/
def State.resume (s : State) : State :=
  s.dev.daond.waiting.foldl (fun s i => s.takeTurn i) (s.onDev fun v => { v with daond := { v.daond with waiting := [] } })

/-- A datagram leaves the receive queue for CORE.C (R446). -/
def State.fromQueue (i : Instr) (s : State) : State :=
  match i with
  | .unknownOpcode _ opcode d => s.onDev (Dev.unknownArrives opcode d)
  | .serviceFrame _ f => s.onDev (Dev.serviceIn f)
  | i =>
    match command i with
    | some (r, d, eff) => receive r i eff (r.apply d) (s.onDev Dev.countRx)
    | none => s

/-- CORE.C takes up every datagram that waited. -/
def State.drainQueue (s : State) : State :=
  s.dev.daond.rxQueue.foldl (fun s i => s.fromQueue i) (s.onDev fun v => { v with daond := { v.daond with rxQueue := [] } })

/-! ### Core restarts (R42, R340, R417, R446, R479) -/

/-- What an image of CORE.C makes of the settings store when it starts: contents that it cannot read, or can read again, are loaded
afresh (R488, R491). -/
def Dev.settingsAgain (v : Dev) : Dev :=
  match v.settings.newest with
  | none => v
  | some (_, c) =>
    let ok := decide (v.schemas.1 ≤ c.schema) && decide (c.schema ≤ v.schemas.2)
    if ok && !v.settings.provisional then v else v.withState Dev.loadSettings

/-- CORE.C runs again: the lease timer goes on, and what its watchdog cut short is answered ST_INTERNAL (R417, R443). -/
def Dev.coreCBack (v : Dev) : Dev :=
  let pause := match v.pow.leasePause with | some w => v.clk.now - w | none => 0
  let v := { v with daond := { v.daond with lease := v.daond.lease.map (fun (l : Lease) => { l with restartedAt := l.restartedAt + pause }) }
                    pow := { v.pow with leasePause := none } }
  v.settingsAgain.complete (· == DeferKind.lost) (.fail (plainFail .internal))

/-- CORE.T runs again: its timers restart from zero, and decisions resume (R42, R340). -/
def Dev.coreTBack (v : Dev) : Dev :=
  let v := { v with refs := smMap (fun x : RefSt => if x.state == RefState.qualifying then { x with qualSince := some v.clk.now } else x) v.refs
                    tcs := smMap (fun x : TcSt => { x with wtr := smMap (fun (_ : Nat) => v.clk.now) x.wtr }) v.tcs }
  v.decideAll

/-- CORE.M runs again: the saved queue, the budgets, and measurement of D_auto from four fresh values (R307, R387, R479). -/
def Dev.coreMBack (v : Dev) : Dev :=
  let v := v.resumeQueue.programBudgets
  { v with audio := smMap (fun c : EcSt => { c with meas := [], fresh := true, farRun := 0 }) v.audio }

/-- A core that restarted runs again; the activation or reversion of its component goes on (R42, R480, R481). -/
def State.coreBack (k : Nat) (s : State) : State :=
  if !s.dev.alive || !s.dev.pow.coreDown.contains k then s
  else
    let s := s.onDev fun v => v.onPow fun p => { p with coreDown := p.coreDown.filter (· != k) }
    let s := s.onDev fun v => if k = 0 then v.coreCBack else if !v.mediaOn then v else if k = 1 then v.coreTBack else v.coreMBack
    let s := s.onDev (Dev.afterRestart (k + 1))
    if s.dev.coreUp .c then s.drainQueue.resume else s

/-- The longest restart of a core: 500 ms of CORE.C and 200 ms of CORE.T; R42 names none for CORE.M, whose commands R479 has answered
within 2 s. -/
def restartTime (k : Nat) : Nat := if k = 0 then 500 * msQ else if k = 1 then 200 * msQ else 2 * secQ

/-- CORE_RESTART_COMPLETE (R42). -/
def execCoreRestartComplete (t : Nat) (core : Fin 3) (s : State) : Result :=
  .next (match smFind core.val s.dev.pow.downT with
    | some d => if s.dev.pow.coreDown.contains core then s.within (d + restartTime core) t (State.coreBack core) else s.arrive t
    | none => s.arrive t)

/-! ### Ends of what a command waits for -/

/-- SLEEP_ENTRY_COMPLETE (R512). -/
def execSleepEntryComplete (t : Nat) (s : State) : Result :=
  .next (if s.dev.pow.phase == .entering then s.within (s.dev.pow.sleepReqT + 50 * msQ) t fun s => (s.onDev Dev.sleepDone).resume else s.arrive t)

/-- WAKE_COMPLETE (R514). -/
def execWakeComplete (t : Nat) (s : State) : Result :=
  .next (if s.dev.pow.phase == .waking then s.within (s.dev.pow.wakeReqT + 120 * msQ) t fun s => (s.onDev Dev.wakeDone).resume else s.arrive t)

/-- DOMAIN_SWITCHED (R507). -/
def execDomainSwitched (t : Nat) (domain : Fin 30) (s : State) : Result :=
  .next (match s.dev.daond.deferred.find? fun x => x.kind == DeferKind.domain domain with
    | some x =>
      if s.dev.alive then s.within (x.since + switchTime domain (fieldU x.dgram.params 1 1 == 0)) t fun s => (s.domainDone domain).resume
      else s.arrive t
    | none => s.arrive t)

/-- SETTINGS_WRITE_COMPLETE (R489, R501). -/
def execSettingsWriteComplete (t : Nat) (s : State) : Result :=
  .next (if s.dev.alive && s.dev.settings.writing.isSome then
      s.within (s.dev.settings.lastWriteT.getD 0 + 200 * msQ) t fun s => (s.onDev fun v => v.writeDone.attestGoes).resume
    else s.arrive t)

end Sys2Proof.Machine
end

