-- ==== Sys2Proof/Machine/Dispatch.lean ====
section
/-! DEFINITION. The dispatch: one arm for each row of the opcode table, each one direct call of its meaning. -/
namespace Sys2Proof.Machine
open Sys2Proof

/-- The effect of a command on everything but the queue of waiting commands. -/
def exec (i : Instr) (s : State) : Host.Outcome State Fault Refusal :=
  match i with
  | .sysInfo t d => Sys2Proof.Machine.execSysInfo t d s
  | .sysPing t d => Sys2Proof.Machine.execSysPing t d s
  | .sysLeaseAcquire t d => Sys2Proof.Machine.execSysLeaseAcquire t d s
  | .sysLeaseRenew t d => Sys2Proof.Machine.execSysLeaseRenew t d s
  | .sysLeaseRelease t d => Sys2Proof.Machine.execSysLeaseRelease t d s
  | .sysLeaseRead t d => Sys2Proof.Machine.execSysLeaseRead t d s
  | .sysNetSet t d => Sys2Proof.Machine.execSysNetSet t d s
  | .sysNetRead t d => Sys2Proof.Machine.execSysNetRead t d s
  | .sysFabricSetTarget t d => Sys2Proof.Machine.execSysFabricSetTarget t d s
  | .sysFabricReadTarget t d => Sys2Proof.Machine.execSysFabricReadTarget t d s
  | .sysFabricReadClearTarget t d => Sys2Proof.Machine.execSysFabricReadClearTarget t d s
  | .sysFabricSetMaster t d => Sys2Proof.Machine.execSysFabricSetMaster t d s
  | .sysFabricReadMaster t d => Sys2Proof.Machine.execSysFabricReadMaster t d s
  | .sysFabricReadClearMaster t d => Sys2Proof.Machine.execSysFabricReadClearMaster t d s
  | .sysWake t d => Sys2Proof.Machine.execSysWake t d s
  | .sysCounters t d => Sys2Proof.Machine.execSysCounters t d s
  | .laneConfig t d => Sys2Proof.Machine.execLaneConfig t d s
  | .laneIdleEnter t d => Sys2Proof.Machine.execLaneIdleEnter t d s
  | .laneIdleExit t d => Sys2Proof.Machine.execLaneIdleExit t d s
  | .lanePrbs t d => Sys2Proof.Machine.execLanePrbs t d s
  | .laneStatus t d => Sys2Proof.Machine.execLaneStatus t d s
  | .streamConfigIngress t d => Sys2Proof.Machine.execStreamConfigIngress t d s
  | .streamConfigEgress t d => Sys2Proof.Machine.execStreamConfigEgress t d s
  | .streamStatusIngress t d => Sys2Proof.Machine.execStreamStatusIngress t d s
  | .streamStatusEgress t d => Sys2Proof.Machine.execStreamStatusEgress t d s
  | .routeTake t d => Sys2Proof.Machine.execRouteTake t d s
  | .routeStatus t d => Sys2Proof.Machine.execRouteStatus t d s
  | .capConfig t d => Sys2Proof.Machine.execCapConfig t d s
  | .capStatus t d => Sys2Proof.Machine.execCapStatus t d s
  | .surfCreate t d => Sys2Proof.Machine.execSurfCreate t d s
  | .surfSeal t d => Sys2Proof.Machine.execSurfSeal t d s
  | .surfUnseal t d => Sys2Proof.Machine.execSurfUnseal t d s
  | .surfDelete t d => Sys2Proof.Machine.execSurfDelete t d s
  | .surfStatus t d => Sys2Proof.Machine.execSurfStatus t d s
  | .layerConfig t d => Sys2Proof.Machine.execLayerConfig t d s
  | .layerLutLoad t d => Sys2Proof.Machine.execLayerLutLoad t d s
  | .layerLutRead t d => Sys2Proof.Machine.execLayerLutRead t d s
  | .layerMatrix t d => Sys2Proof.Machine.execLayerMatrix t d s
  | .layerSynth t d => Sys2Proof.Machine.execLayerSynth t d s
  | .layerScalerSet t d => Sys2Proof.Machine.execLayerScalerSet t d s
  | .layerScalerRead t d => Sys2Proof.Machine.execLayerScalerRead t d s
  | .layerScalerReadClear t d => Sys2Proof.Machine.execLayerScalerReadClear t d s
  | .layerCoeffLoad t d => Sys2Proof.Machine.execLayerCoeffLoad t d s
  | .layerCoeffRead t d => Sys2Proof.Machine.execLayerCoeffRead t d s
  | .layerStatus t d => Sys2Proof.Machine.execLayerStatus t d s
  | .headTiming t d => Sys2Proof.Machine.execHeadTiming t d s
  | .headColour t d => Sys2Proof.Machine.execHeadColour t d s
  | .headSrEnter t d => Sys2Proof.Machine.execHeadSrEnter t d s
  | .headSrExit t d => Sys2Proof.Machine.execHeadSrExit t d s
  | .headStatus t d => Sys2Proof.Machine.execHeadStatus t d s
  | .audioChannel t d => Sys2Proof.Machine.execAudioChannel t d s
  | .audioStream t d => Sys2Proof.Machine.execAudioStream t d s
  | .audioTone t d => Sys2Proof.Machine.execAudioTone t d s
  | .audioStatus t d => Sys2Proof.Machine.execAudioStatus t d s
  | .refConfig t d => Sys2Proof.Machine.execRefConfig t d s
  | .refSelectSet t d => Sys2Proof.Machine.execRefSelectSet t d s
  | .refSelectRead t d => Sys2Proof.Machine.execRefSelectRead t d s
  | .refAccept t d => Sys2Proof.Machine.execRefAccept t d s
  | .refRealign t d => Sys2Proof.Machine.execRefRealign t d s
  | .refStatus t d => Sys2Proof.Machine.execRefStatus t d s
  | .tcConfigSet t d => Sys2Proof.Machine.execTcConfigSet t d s
  | .tcConfigRead t d => Sys2Proof.Machine.execTcConfigRead t d s
  | .tcStatus t d => Sys2Proof.Machine.execTcStatus t d s
  | .clkConfigSet t d => Sys2Proof.Machine.execClkConfigSet t d s
  | .clkConfigRead t d => Sys2Proof.Machine.execClkConfigRead t d s
  | .clkConfigRelease t d => Sys2Proof.Machine.execClkConfigRelease t d s
  | .clkTpinSet t d => Sys2Proof.Machine.execClkTpinSet t d s
  | .clkTpinRead t d => Sys2Proof.Machine.execClkTpinRead t d s
  | .clkTpinRelease t d => Sys2Proof.Machine.execClkTpinRelease t d s
  | .clkCalibrate t d => Sys2Proof.Machine.execClkCalibrate t d s
  | .fpConfigSet t d => Sys2Proof.Machine.execFpConfigSet t d s
  | .fpConfigRead t d => Sys2Proof.Machine.execFpConfigRead t d s
  | .fpConfigRelease t d => Sys2Proof.Machine.execFpConfigRelease t d s
  | .fpRealign t d => Sys2Proof.Machine.execFpRealign t d s
  | .fpStatus t d => Sys2Proof.Machine.execFpStatus t d s
  | .timeConfig t d => Sys2Proof.Machine.execTimeConfig t d s
  | .timeSetNextPulse t d => Sys2Proof.Machine.execTimeSetNextPulse t d s
  | .timeSetStep t d => Sys2Proof.Machine.execTimeSetStep t d s
  | .timeStatus t d => Sys2Proof.Machine.execTimeStatus t d s
  | .stageOpen t d => Sys2Proof.Machine.execStageOpen t d s
  | .stageAdd t d => Sys2Proof.Machine.execStageAdd t d s
  | .stageCommitImmediate t d => Sys2Proof.Machine.execStageCommitImmediate t d s
  | .stageCommitTimed t d => Sys2Proof.Machine.execStageCommitTimed t d s
  | .stageCommitPrepare t d => Sys2Proof.Machine.execStageCommitPrepare t d s
  | .stageAbortOpen t d => Sys2Proof.Machine.execStageAbortOpen t d s
  | .stageAbortPrepared t d => Sys2Proof.Machine.execStageAbortPrepared t d s
  | .stageStatus t d => Sys2Proof.Machine.execStageStatus t d s
  | .groupCommit t d => Sys2Proof.Machine.execGroupCommit t d s
  | .eventPoll t d => Sys2Proof.Machine.execEventPoll t d s
  | .eventLog t d => Sys2Proof.Machine.execEventLog t d s
  | .eventLedger t d => Sys2Proof.Machine.execEventLedger t d s
  | .probeConfig t d => Sys2Proof.Machine.execProbeConfig t d s
  | .probeFreezeArm t d => Sys2Proof.Machine.execProbeFreezeArm t d s
  | .probeFreezeCancel t d => Sys2Proof.Machine.execProbeFreezeCancel t d s
  | .probeStatus t d => Sys2Proof.Machine.execProbeStatus t d s
  | .bulkWrite t d => Sys2Proof.Machine.execBulkWrite t d s
  | .bulkRead t d => Sys2Proof.Machine.execBulkRead t d s
  | .fwStatus t d => Sys2Proof.Machine.execFwStatus t d s
  | .fwInstallManifest t d => Sys2Proof.Machine.execFwInstallManifest t d s
  | .fwInstallImage t d => Sys2Proof.Machine.execFwInstallImage t d s
  | .fwActivate t d => Sys2Proof.Machine.execFwActivate t d s
  | .fwConfirm t d => Sys2Proof.Machine.execFwConfirm t d s
  | .fwRevert t d => Sys2Proof.Machine.execFwRevert t d s
  | .setStatus t d => Sys2Proof.Machine.execSetStatus t d s
  | .setRead t d => Sys2Proof.Machine.execSetRead t d s
  | .setWrite t d => Sys2Proof.Machine.execSetWrite t d s
  | .setPresetSave t d => Sys2Proof.Machine.execSetPresetSave t d s
  | .setPresetLoad t d => Sys2Proof.Machine.execSetPresetLoad t d s
  | .secStatus t d => Sys2Proof.Machine.execSecStatus t d s
  | .secUnlockPassword t d => Sys2Proof.Machine.execSecUnlockPassword t d s
  | .secUnlockResponse t d => Sys2Proof.Machine.execSecUnlockResponse t d s
  | .secSeal t d => Sys2Proof.Machine.execSecSeal t d s
  | .secPasswordSet t d => Sys2Proof.Machine.execSecPasswordSet t d s
  | .secPasswordClear t d => Sys2Proof.Machine.execSecPasswordClear t d s
  | .secChallenge t d => Sys2Proof.Machine.execSecChallenge t d s
  | .secAttest t d => Sys2Proof.Machine.execSecAttest t d s
  | .powerStatus t d => Sys2Proof.Machine.execPowerStatus t d s
  | .powerSleep t d => Sys2Proof.Machine.execPowerSleep t d s
  | .powerDomainOn t d => Sys2Proof.Machine.execPowerDomainOn t d s
  | .powerDomainOff t d => Sys2Proof.Machine.execPowerDomainOff t d s
  | .powerDomainRead t d => Sys2Proof.Machine.execPowerDomainRead t d s
  | .svcRegRead t d => Sys2Proof.Machine.execSvcRegRead t d s
  | .svcRegWrite t d => Sys2Proof.Machine.execSvcRegWrite t d s
  | .svcEye t d => Sys2Proof.Machine.execSvcEye t d s
  | .svcMargin t d => Sys2Proof.Machine.execSvcMargin t d s
  | .ethernetFrameDiscarded t cause => Sys2Proof.Machine.execEthernetFrameDiscarded t cause s
  | .rxOverflow t => Sys2Proof.Machine.execRxOverflow t s
  | .serviceFrame t f => Sys2Proof.Machine.execServiceFrame t f s
  | .ptpMessage t m => Sys2Proof.Machine.execPtpMessage t m s
  | .ptpSyncTimeout t => Sys2Proof.Machine.execPtpSyncTimeout t s
  | .ethernetLinkChange t up => Sys2Proof.Machine.execEthernetLinkChange t up s
  | .leaseTimeout t => Sys2Proof.Machine.execLeaseTimeout t s
  | .stageExpired t group => Sys2Proof.Machine.execStageExpired t group s
  | .epochBoundary t => Sys2Proof.Machine.execEpochBoundary t s
  | .replicaRecalibration t => Sys2Proof.Machine.execReplicaRecalibration t s
  | .budgetWindow t => Sys2Proof.Machine.execBudgetWindow t s
  | .commitEffectiveTime t u => Sys2Proof.Machine.execCommitEffectiveTime t u s
  | .blockReceived t lane syms => Sys2Proof.Machine.execBlockReceived t lane syms s
  | .signalLoss t lane => Sys2Proof.Machine.execSignalLoss t lane s
  | .signalDetect t lane => Sys2Proof.Machine.execSignalDetect t lane s
  | .relockTimeout t lane => Sys2Proof.Machine.execRelockTimeout t lane s
  | .cdrLock t lane => Sys2Proof.Machine.execCdrLock t lane s
  | .prbsSync t lane bits => Sys2Proof.Machine.execPrbsSync t lane bits s
  | .prbsSyncLoss t lane bits => Sys2Proof.Machine.execPrbsSyncLoss t lane bits s
  | .evLanePrbs t lane bits => Sys2Proof.Machine.execEvLanePrbs t lane bits s
  | .txPllLock t block => Sys2Proof.Machine.execTxPllLock t block s
  | .trainPeriodEnd t lane => Sys2Proof.Machine.execTrainPeriodEnd t lane s
  | .duskDwellEnd t lane => Sys2Proof.Machine.execDuskDwellEnd t lane s
  | .dawnBurstEnd t lane => Sys2Proof.Machine.execDawnBurstEnd t lane s
  | .skRefclkLoss t block => Sys2Proof.Machine.execSkRefclkLoss t block s
  | .skRefclkReturn t block => Sys2Proof.Machine.execSkRefclkReturn t block s
  | .format t stream p => Sys2Proof.Machine.execFormat t stream p s
  | .frameStart t stream p => Sys2Proof.Machine.execFrameStart t stream p s
  | .videoLine t stream p => Sys2Proof.Machine.execVideoLine t stream p s
  | .frameEnd t stream p => Sys2Proof.Machine.execFrameEnd t stream p s
  | .audio t stream p => Sys2Proof.Machine.execAudio t stream p s
  | .clockInfo t stream p => Sys2Proof.Machine.execClockInfo t stream p s
  | .aux t stream p => Sys2Proof.Machine.execAux t stream p s
  | .srEnter t stream p => Sys2Proof.Machine.execSrEnter t stream p s
  | .srExit t stream p => Sys2Proof.Machine.execSrExit t stream p s
  | .idle t stream p => Sys2Proof.Machine.execIdle t stream p s
  | .reservedTypePacket t stream ptype length => Sys2Proof.Machine.execReservedTypePacket t stream ptype length s
  | .packetHunt t stream cause run => Sys2Proof.Machine.execPacketHunt t stream cause run s
  | .frameStartTimeout t stream => Sys2Proof.Machine.execFrameStartTimeout t stream s
  | .excessWindow t stream => Sys2Proof.Machine.execExcessWindow t stream s
  | .takeWindow t egress => Sys2Proof.Machine.execTakeWindow t egress s
  | .takeNotExecuted t egress => Sys2Proof.Machine.execTakeNotExecuted t egress s
  | .midnightPoint t head => Sys2Proof.Machine.execMidnightPoint t head s
  | .frameStartDecision t head => Sys2Proof.Machine.execFrameStartDecision t head s
  | .activeStart t head => Sys2Proof.Machine.execActiveStart t head s
  | .lineStart t head line missing => Sys2Proof.Machine.execLineStart t head line missing s
  | .headFrameEnd t head => Sys2Proof.Machine.execHeadFrameEnd t head s
  | .clockInfoSend t egress => Sys2Proof.Machine.execClockInfoSend t egress s
  | .audioAbsence t stream group => Sys2Proof.Machine.execAudioAbsence t stream group s
  | .audioWindow t egress => Sys2Proof.Machine.execAudioWindow t egress s
  | .audioBoundary t egress channel => Sys2Proof.Machine.execAudioBoundary t egress channel s
  | .audioRateMeasurement t egress channel => Sys2Proof.Machine.execAudioRateMeasurement t egress channel s
  | .srcReacquired t egress channel => Sys2Proof.Machine.execSrcReacquired t egress channel s
  | .audioSwitchPoint t egress channel => Sys2Proof.Machine.execAudioSwitchPoint t egress channel s
  | .transitionEnd t egress channel => Sys2Proof.Machine.execTransitionEnd t egress channel s
  | .refActivityLoss t ref => Sys2Proof.Machine.execRefActivityLoss t ref s
  | .refActivityReturn t ref => Sys2Proof.Machine.execRefActivityReturn t ref s
  | .refGateEnd t ref => Sys2Proof.Machine.execRefGateEnd t ref s
  | .qualificationTimer t ref => Sys2Proof.Machine.execQualificationTimer t ref s
  | .waitToRestoreExpiry t tc ref => Sys2Proof.Machine.execWaitToRestoreExpiry t tc ref s
  | .refPhaseSample t ref edges => Sys2Proof.Machine.execRefPhaseSample t ref edges s
  | .handover t tc => Sys2Proof.Machine.execHandover t tc s
  | .slewEnd t tc => Sys2Proof.Machine.execSlewEnd t tc s
  | .historyBin t tc => Sys2Proof.Machine.execHistoryBin t tc s
  | .storedFrequency t => Sys2Proof.Machine.execStoredFrequency t s
  | .lockGate t tc => Sys2Proof.Machine.execLockGate t tc s
  | .realignment t => Sys2Proof.Machine.execRealignment t s
  | .masterReset t master cause => Sys2Proof.Machine.execMasterReset t master cause s
  | .drainComplete t master => Sys2Proof.Machine.execDrainComplete t master s
  | .evFabricLate t master port => Sys2Proof.Machine.execEvFabricLate t master port s
  | .resetNRise t straps => Sys2Proof.Machine.execResetNRise t straps s
  | .bootReady t => Sys2Proof.Machine.execBootReady t s
  | .resetNFall t widthNs => Sys2Proof.Machine.execResetNFall t widthNs s
  | .pwrOkFall t => Sys2Proof.Machine.execPwrOkFall t s
  | .oscLoss t => Sys2Proof.Machine.execOscLoss t s
  | .oscRestored t => Sys2Proof.Machine.execOscRestored t s
  | .ethRefclkLoss t => Sys2Proof.Machine.execEthRefclkLoss t s
  | .sleepEntryComplete t => Sys2Proof.Machine.execSleepEntryComplete t s
  | .wakeComplete t => Sys2Proof.Machine.execWakeComplete t s
  | .domainSwitched t domain => Sys2Proof.Machine.execDomainSwitched t domain s
  | .thermalSample t die hbm => Sys2Proof.Machine.execThermalSample t die hbm s
  | .thermalCritical t => Sys2Proof.Machine.execThermalCritical t s
  | .watchdogReset t core => Sys2Proof.Machine.execWatchdogReset t core s
  | .trialTimeout t => Sys2Proof.Machine.execTrialTimeout t s
  | .selfConfirmation t component => Sys2Proof.Machine.execSelfConfirmation t component s
  | .queueWaitEnd t => Sys2Proof.Machine.execQueueWaitEnd t s
  | .settingsWriteStart t => Sys2Proof.Machine.execSettingsWriteStart t s
  | .settingsWriteComplete t => Sys2Proof.Machine.execSettingsWriteComplete t s
  | .nonceExpiry t => Sys2Proof.Machine.execNonceExpiry t s
  | .backoffEnd t => Sys2Proof.Machine.execBackoffEnd t s
  | .servicePlaneExpiry t => Sys2Proof.Machine.execServicePlaneExpiry t s
  | .coreRestartComplete t core => Sys2Proof.Machine.execCoreRestartComplete t core s
  | .unknownOpcode t opcode d => Sys2Proof.Machine.execUnknownOpcode t opcode d s
  | .framePulse t fpo => Sys2Proof.Machine.execFramePulse t fpo s
  | .scrubbing t port offset uncorrectable => Sys2Proof.Machine.execScrubbing t port offset uncorrectable s
  | .jtagTapAccess t ir tdi => Sys2Proof.Machine.execJtagTapAccess t ir tdi s

end Sys2Proof.Machine
end

