-- ==== Sys2Proof/Machine/Step.lean ====
section
/-! DEFINITION. The step of the block: the command at the front of the queue is taken and run; an empty queue idles. -/
namespace Sys2Proof.Machine
open Sys2Proof

/-- One step (log entry 3): the front command runs on the state with the rest of the queue; without a command nothing happens. -/
def step (s : State) : Host.Outcome State Fault Refusal :=
  match s.pending with
  | [] => .next s
  | i :: r => exec i { s with pending := r }

/-- The state with the command that a word of the opcode table spells put at the front of the queue. The table gives its rows no
bits, so no word spells a command (log entry 3). -/
def State.withFetchWord (s : State) (nbits w : Nat) : State :=
  match decodeTableWord nbits w with
  | some i => { s with pending := i :: s.pending }
  | none => s

end Sys2Proof.Machine
end

