-- ==== Sys2Proof/WellFormed.lean ====
section
/-! DEFINITION. Which commands the opcode table and the layouts of the spec can spell: field widths of a datagram, the byte that a row
fixes, payload lengths of packets, symbols of a block, numbers of units. -/
namespace Sys2Proof

/-- A datagram's header fields have their widths (R407, R408), and its parameters fit a UDP datagram. -/
def Datagram.wf (d : Datagram) : Bool :=
  decide (d.addr < 2 ^ 128) && decide (d.port < 65536) && decide (d.magic < 65536) && decide (d.version < 256) && decide (d.flags < 256) &&
  decide (d.device < 65536) && decide (d.leaseTag < 65536) && decide (d.status < 65536) && decide (d.paramLen < 65536) &&
  decide (d.rsvd < 2 ^ 48) && decide (d.params.length < 65536)

/-- The parameters have the byte that a row of the opcode table fixes, where they are long enough to have it. -/
def Datagram.has (off val : Nat) (d : Datagram) : Bool :=
  match d.params[off]? with
  | some b => b.toNat == val
  | none => true

/-- The parameters have the bit that a row of the opcode table fixes, where they are long enough to have it. -/
def Datagram.bitIs (off bit : Nat) (val : Bool) (d : Datagram) : Bool :=
  match d.params[off]? with
  | some b => b.getLsbD bit == val
  | none => true

/-- A packet as the parser delivers it: at most 8,192 payload bytes (R93). A length that R95 does not allow its type makes it malformed,
and the parser delivers it all the same (R117). -/
def Packet.wf (p : Packet) : Bool := decide (p.payload.length ≤ 8192)

/-- The reserved packet types (R95). -/
def reservedType (k : Nat) : Bool := (decide (10 ≤ k) && decide (k ≤ 14)) || (decide (16 ≤ k) && decide (k ≤ 255))

/-- Addresses of the services that the port answers have their widths (R402). -/
def ServiceFrame.wf (f : ServiceFrame) : Bool :=
  match f with
  | .arpRequest a | .dhcpAck a => decide (a < 2 ^ 32)
  | .neighborSolicit a => decide (a < 2 ^ 128)
  | .routerAdvert p => decide (p < 2 ^ 64)
  | .echoRequest _ x => decide (x.length < 65536)
  | .igmpQuery | .mldQuery => true

/-- Domain numbers and clock identities of PTP have their widths (R360). -/
def PtpMsg.wf (m : PtpMsg) : Bool :=
  match m with
  | .announce d _ c _ | .sync d c _ _ _ | .followUp d c _ | .delayResp d c => decide (d < 256) && decide (c < 2 ^ 64)
  | .pdelayReq d => decide (d < 256)
  | .unsupported => true

/-- A unit's number is that of a unit of its kind (R16). -/
def UnitId.wf (u : UnitId) : Bool :=
  match u with
  | .head n => decide (n < 256)
  | .take n | .ingress n | .egress n | .capture n | .audioStream n => decide (n < 512)
  | .surface n => decide (8192 ≤ n) && decide (n < 16384)
  | .slot n => decide (n < 1024)
  | .audioChannel n => decide (n < 16384)
  | .tone n => decide (n < 64)

/-- A temperature that a sensor reads, in units of a quarter degree: 16 bits, signed (R522). -/
def tempOk (x : Int) : Bool := decide (-32768 ≤ x) && decide (x ≤ 32767)

/-- The opcodes that R442 assigns. -/
def assigned : List Nat :=
  [0x0101, 0x0102, 0x0103, 0x0104, 0x0105, 0x0106, 0x0107, 0x0201, 0x0202, 0x0203, 0x0204, 0x0301, 0x0302, 0x0401, 0x0402,
   0x0501, 0x0502, 0x0601, 0x0602, 0x0603, 0x0604, 0x0605, 0x0701, 0x0702, 0x0703, 0x0704, 0x0705, 0x0706, 0x0707,
   0x0801, 0x0802, 0x0803, 0x0804, 0x0901, 0x0902, 0x0903, 0x0904, 0x0A01, 0x0A02, 0x0A03, 0x0A04, 0x0A05, 0x0B01,
   0x0B02, 0x0C01, 0x0C02, 0x0C03, 0x0D01, 0x0D02, 0x0D03, 0x0E01, 0x0E02, 0x0E03, 0x0F01, 0x0F02, 0x0F03, 0x0F04,
   0x0F05, 0x1001, 0x1101, 0x1102, 0x1103, 0x1201, 0x1202, 0x1203, 0x1301, 0x1302, 0x1401, 0x1402, 0x1403, 0x1404,
   0x1405, 0x1501, 0x1502, 0x1503, 0x1504, 0x1505, 0x1601, 0x1602, 0x1603, 0x1604, 0x1605, 0x1606, 0x1701, 0x1702,
   0x1703, 0x1801, 0x1802, 0x1803, 0x1804]

/-- A command that the table can spell: its datagram has the byte of its row, its packet a payload of a packet, its unit a number. -/
def Instr.wf (i : Instr) : Bool :=
  match i with
  | .sysInfo _ d | .sysPing _ d | .sysWake _ d | .sysCounters _ d | .laneConfig _ d | .lanePrbs _ d | .laneStatus _ d | .routeTake _ d
  | .routeStatus _ d | .capConfig _ d | .capStatus _ d | .surfCreate _ d | .surfSeal _ d | .surfUnseal _ d | .surfDelete _ d
  | .surfStatus _ d | .layerConfig _ d | .layerMatrix _ d | .layerSynth _ d | .layerStatus _ d | .headTiming _ d | .headColour _ d
  | .headStatus _ d | .audioChannel _ d | .audioStream _ d | .audioTone _ d | .audioStatus _ d | .refConfig _ d | .refAccept _ d
  | .refRealign _ d | .refStatus _ d | .tcStatus _ d | .clkCalibrate _ d | .fpRealign _ d | .fpStatus _ d | .timeConfig _ d
  | .timeStatus _ d | .stageOpen _ d | .stageAdd _ d | .stageStatus _ d | .groupCommit _ d | .eventPoll _ d | .eventLog _ d
  | .eventLedger _ d | .probeConfig _ d | .probeStatus _ d | .bulkWrite _ d | .bulkRead _ d | .fwStatus _ d | .fwActivate _ d
  | .fwConfirm _ d | .fwRevert _ d | .setStatus _ d | .setRead _ d | .setWrite _ d | .setPresetSave _ d | .setPresetLoad _ d
  | .secStatus _ d | .secSeal _ d | .secChallenge _ d | .secAttest _ d | .powerStatus _ d | .powerSleep _ d | .svcRegRead _ d
  | .svcRegWrite _ d | .svcEye _ d | .svcMargin _ d => d.wf
  | .sysLeaseAcquire _ d | .sysNetSet _ d | .sysFabricSetTarget _ d | .timeSetNextPulse _ d | .stageCommitImmediate _ d
  | .stageAbortOpen _ d | .fwInstallManifest _ d | .secUnlockPassword _ d | .secPasswordSet _ d => d.wf && d.has 0 0
  | .sysLeaseRenew _ d | .sysNetRead _ d | .sysFabricReadTarget _ d | .timeSetStep _ d | .stageCommitTimed _ d
  | .stageAbortPrepared _ d | .fwInstallImage _ d | .secUnlockResponse _ d | .secPasswordClear _ d => d.wf && d.has 0 1
  | .sysLeaseRelease _ d | .sysFabricReadClearTarget _ d | .stageCommitPrepare _ d => d.wf && d.has 0 2
  | .sysLeaseRead _ d | .sysFabricSetMaster _ d => d.wf && d.has 0 3
  | .sysFabricReadMaster _ d => d.wf && d.has 0 4
  | .sysFabricReadClearMaster _ d => d.wf && d.has 0 5
  | .laneIdleEnter _ d | .streamConfigEgress _ d | .layerScalerRead _ d | .headSrEnter _ d => d.wf && d.has 2 1
  | .laneIdleExit _ d | .streamConfigIngress _ d | .layerScalerSet _ d | .headSrExit _ d => d.wf && d.has 2 0
  | .streamStatusIngress _ d => d.wf && d.bitIs 2 1 false
  | .streamStatusEgress _ d => d.wf && d.bitIs 2 1 true
  | .layerLutLoad _ d | .layerCoeffLoad _ d | .probeFreezeCancel _ d => d.wf && d.has 3 0
  | .layerLutRead _ d | .layerCoeffRead _ d => d.wf && d.has 3 1
  | .layerScalerReadClear _ d => d.wf && d.has 2 2
  | .refSelectSet _ d | .tcConfigSet _ d | .clkConfigSet _ d | .clkTpinSet _ d | .fpConfigSet _ d | .powerDomainOn _ d => d.wf && d.has 1 0
  | .refSelectRead _ d | .tcConfigRead _ d | .clkConfigRead _ d | .clkTpinRead _ d | .fpConfigRead _ d | .powerDomainOff _ d
    => d.wf && d.has 1 1
  | .clkConfigRelease _ d | .clkTpinRelease _ d | .fpConfigRelease _ d | .powerDomainRead _ d => d.wf && d.has 1 2
  | .probeFreezeArm _ d => d.wf && !d.has 3 0
  | .ethernetFrameDiscarded _ _ | .rxOverflow _ | .ptpSyncTimeout _ | .ethernetLinkChange _ _ | .leaseTimeout _ | .epochBoundary _
  | .replicaRecalibration _ | .budgetWindow _ | .signalLoss _ _ | .signalDetect _ _ | .relockTimeout _ _ | .cdrLock _ _
  | .prbsSync _ _ _ | .prbsSyncLoss _ _ _ | .evLanePrbs _ _ _ | .txPllLock _ _ | .trainPeriodEnd _ _ | .duskDwellEnd _ _
  | .dawnBurstEnd _ _ | .skRefclkLoss _ _ | .skRefclkReturn _ _ | .packetHunt _ _ _ _ | .frameStartTimeout _ _ | .excessWindow _ _
  | .takeWindow _ _ | .takeNotExecuted _ _ | .midnightPoint _ _ | .activeStart _ _ | .headFrameEnd _ _ | .clockInfoSend _ _
  | .audioAbsence _ _ _ | .audioBoundary _ _ _ | .audioRateMeasurement _ _ _ | .srcReacquired _ _ _ | .audioSwitchPoint _ _ _
  | .transitionEnd _ _ _ | .refActivityLoss _ _ | .refActivityReturn _ _ | .refGateEnd _ _ | .qualificationTimer _ _
  | .waitToRestoreExpiry _ _ _ | .refPhaseSample _ _ _ | .handover _ _ | .slewEnd _ _ | .historyBin _ _ | .storedFrequency _
  | .lockGate _ _ | .realignment _ | .masterReset _ _ _ | .drainComplete _ _ | .evFabricLate _ _ _ | .resetNRise _ _ | .bootReady _
  | .resetNFall _ _ | .pwrOkFall _ | .oscLoss _ | .oscRestored _ | .ethRefclkLoss _ | .sleepEntryComplete _ | .wakeComplete _
  | .domainSwitched _ _ | .frameStartDecision _ _ | .audioWindow _ _ | .thermalCritical _ | .watchdogReset _ _ | .trialTimeout _ | .selfConfirmation _ _ | .queueWaitEnd _
  | .settingsWriteStart _ | .settingsWriteComplete _ | .nonceExpiry _ | .backoffEnd _ | .servicePlaneExpiry _
  | .coreRestartComplete _ _ | .framePulse _ _ => true
  | .serviceFrame _ f => f.wf
  | .ptpMessage _ m => m.wf
  | .stageExpired _ g => decide (g < 65536)
  | .commitEffectiveTime _ u => u.wf
  | .blockReceived _ _ syms => syms.length == 64
  | .format _ _ p | .frameStart _ _ p | .videoLine _ _ p | .frameEnd _ _ p | .audio _ _ p | .clockInfo _ _ p | .aux _ _ p
  | .srEnter _ _ p | .srExit _ _ p | .idle _ _ p => p.wf
  | .reservedTypePacket _ _ k p => reservedType k && decide (p.payload.length ≤ 8192)
  | .lineStart _ _ l m => decide (l < 65536) && (match m with | some n => decide (n < 65536) | none => true)
  | .thermalSample _ die hbm => die.length == 16 && hbm.length == 4 && (die ++ hbm).all tempOk
  | .unknownOpcode _ k d => decide (k < 65536) && !assigned.contains k && d.wf
  | .scrubbing _ _ o _ => decide (o < 0x180000000)
  | .jtagTapAccess _ ir _ => decide (ir < 256)

/-- Well-formedness as a proposition. -/
abbrev Instr.WellFormed (i : Instr) : Prop := i.wf = true

end Sys2Proof
end

