-- ==== Sys2Proof/Safety.lean ====
section
/-! DEFINITION. What counts as a safe run, and the conditions in which a Daond command runs, in the terms that statements use. -/
namespace Sys2Proof
open Sys2Proof.Machine

/-- Frame memory is in canonical form: rising addresses inside the store, and no cell that an unlisted address reads as (log entry 2). -/
def Machine.State.MemOk (s : Machine.State) : Prop := memWf s.mem = true

/-- A safe step: it answers a state, and frame memory is in canonical form there. -/
def Machine.State.SafeStep (s : Machine.State) : Prop := ∃ u, step s = .next u ∧ u.MemOk

/-- What the device is while it answers Daond commands: out of reset, with valid boot images, and CORE.C running (R436, R446, R474). -/
def Machine.Dev.Serving (v : Dev) : Prop := v.pow.phase ≠ .reset ∧ v.fw.dead = false ∧ v.coreUp .c = true

/-- A datagram passes R408 and the checks of R411 up to step 9 for the operation of a row, and no command before it holds it back. -/
def Machine.State.Admits (s : Machine.State) (r : OpRow) (d : Datagram) : Prop := s.dev.Serving ∧ screen r (r.apply d) s.dev = .run

/-- The state in which the work of an admitted command begins: its instant has come, it is counted, and the sequence record and the
lease timer have moved on (R412, R417, R436). -/
def Machine.State.begun (r : OpRow) (t : Nat) (d : Datagram) (s : Machine.State) : Machine.State :=
  (s.arrive t).onDev fun v => v.countRx.countCommand.passSeq r.code (r.apply d)

/-- The state after the answer to a datagram has left a state, from a device that had the number `me` (R410). -/
def Machine.State.answered (r : OpRow) (me : Nat) (d : Datagram) (a : Answer) (s : Machine.State) : Machine.State :=
  s.onDev (Dev.conclude r.code me (r.apply d) a)

/-- The device's number (R406). -/
def Machine.State.me (s : Machine.State) : Nat := s.dev.daond.net.cfg.deviceNumber

/-- The state after a Daond command that changes the device by `f` and answers `a`, both from the state in which its work begins. -/
def Machine.State.served (r : OpRow) (t : Nat) (d : Datagram) (f : Dev → Dev) (a : Dev → Answer) (s : Machine.State) : Machine.State :=
  ((s.begun r t d).onDev f).answered r s.me d (a (s.begun r t d).dev)

/-- The state after a happening at instant `t` that changes the device by `f`: the instant moves on, the outputs of the step before
are gone, and memory and queue stay. -/
def Machine.State.happens (t : Nat) (f : Dev → Dev) (s : Machine.State) : Machine.State := (s.arrive t).onDev f

/-- A query whose range and flags R435 allows, for `units` units; `egress` says whether it may name egress streams. -/
def queryOk (units : Nat) (egress : Bool) (p : List Byte) : Prop :=
  fieldU p 0 2 < units ∧ fieldU p 2 1 < (if egress then 4 else 2) ∧ fieldU p 3 1 = 0 ∧
  1 ≤ fieldU p 4 2 ∧ fieldU p 4 2 ≤ 512 ∧ fieldU p 0 2 + fieldU p 4 2 ≤ units ∧ fieldU p 6 2 = 0

/-- The units whose records a query's reply carries: those of its range that fit 8,960 bytes (R435). -/
def queryIds (size : Nat) (p : List Byte) : List Nat := (List.range (min (fieldU p 4 2) (8960 / size))).map (· + fieldU p 0 2)

/-- The answer to a query: the records that fit, with the more flag when some do not (R435). -/
def queryAnswer (size : Nat) (record : Nat → Dev → List Byte) (p : List Byte) (v : Dev) : Answer :=
  .done .ok ((queryIds size p).flatMap fun k => record k v) (decide (min (fieldU p 4 2) (8960 / size) < fieldU p 4 2))

/-- A query that asks for a clear clears the units whose records it returns (R435). -/
def queryClear (size : Nat) (clear : Nat → Dev → Dev) (p : List Byte) (v : Dev) : Dev :=
  if bit (fieldU p 2 1) 0 then (queryIds size p).foldl (fun v k => clear k v) v else v

end Sys2Proof
end

