-- ==== Sys2Proof/Certificates/Slice0/Obligations.lean ====
section
/-! DEFINITION. The statements for the provers, one definition for each; what a served command and a happening come to is said in Safety.lean. -/
open Sys2Proof Sys2Proof.Machine

/-- A step runs the command at the front of the queue on the state with the rest of the queue (R419). For every command c, state s and
queue q: step of s with c in front of q is exec of c on s with the queue q. The queue is the model's (log entry 3). -/
def Obligations.StepRunsTheFrontCommand : Prop :=
  ∀ (c : Instr) (q : List Instr) (s : State), step { s with pending := c :: q } = exec c { s with pending := q }

/-- With no command waiting the block idles (R419). A step of a state whose queue is empty answers that state unchanged. This is the
model's choice (log entry 3). -/
def Obligations.EmptyQueueIdles : Prop :=
  ∀ s : State, s.pending = [] → step s = .next s

/-- After reset the device is in its reset state, nothing is configured, and no command waits (R519, R418, R448). In State.reset the
device is in the reset state of R519; it holds no lease, no event, no log and no ledger entry, no open transaction and no commit (R418,
R448); no stream, route, capture channel, surface, layer or head is configured; no TX direction is driven; memory lists nothing and no
command waits. That RESET_N is still low and PWR_OK high is the model's choice of the instant (log entry 4). -/
def Obligations.ResetLeavesNothingRunning : Prop :=
  State.reset.dev.pow.phase = .reset ∧ State.reset.dev.daond.lease = none ∧ State.reset.dev.daond.open_ = none ∧
  State.reset.dev.daond.commits = [] ∧ State.reset.dev.daond.prepared = [] ∧ State.reset.dev.ev.srcs = [] ∧
  State.reset.dev.ev.log = [] ∧ State.reset.dev.ev.ledger = [] ∧ State.reset.dev.cfg = {} ∧
  (∀ n, (State.reset.dev.lane n).tx = .down) ∧ State.reset.mem = [] ∧ State.reset.pending = []

/-- Frame memory is in canonical form after reset (R371). State.reset satisfies the invariant of EveryStepKeepsMemoryCanonical. What an
unlisted byte reads as is the model's choice (log entry 2). -/
def Obligations.ResetMemoryIsCanonical : Prop :=
  State.reset.MemOk

/-- Every step keeps frame memory in canonical form (R371, R372). For every state whose frame memory is in canonical form (rising
addresses below 96 GiB, no cell that an unlisted address reads as), and every next state of a step, frame memory is in canonical form
there: no command writes outside the store or leaves a second cell for an address. -/
def Obligations.EveryStepKeepsMemoryCanonical : Prop :=
  ∀ s u : State, s.MemOk → step s = .next u → u.MemOk

/-- Every step answers a state, and leaves the other commands waiting in their order (R419). For every state there is a next state of its
step, and the queue there is the queue before without its first command: no command is refused or stops the block, none is lost and none
is added. -/
def Obligations.EveryStepTakesOneCommand : Prop :=
  ∀ s : State, ∃ u, step s = .next u ∧ u.pending = s.pending.tail

/-- A bulk write stores exactly its bytes (R433, R371). A BULK.WRITE to frame memory that R411 admits, whose fields are good, that meets
no sealed surface or powered-off stack, while the Ethernet DMA master is not in the drain of a reset, answers a next state in which the
bytes of its range hold the data of the datagram and every other byte of memory is as before. -/
def Obligations.OnlyAnAdmittedBulkWriteStores : Prop :=
  ∀ (s : State) (t : Nat) (d : Datagram), s.MemOk → s.Admits bulkWriteRow d → bulkBad true d.params = none → fieldU d.params 0 1 = 0 →
    (s.begun bulkWriteRow t d).dev.writeBusy (fieldU d.params 8 8) (fieldU d.params 4 4) = none → (s.dev.master 50).draining = false →
    ∃ u, exec (.bulkWrite t d) s = .next u ∧
      ∀ a, memGet a u.mem = if fieldU d.params 8 8 ≤ a ∧ a < fieldU d.params 8 8 + fieldU d.params 4 4
        then (sliceB d.params 16 (fieldU d.params 4 4)).getD (a - fieldU d.params 8 8) 0 else memGet a s.mem

/-- A Daond datagram that CORE.C takes up meets the checks of R408 and R411 in order (R408, R411). For every row of the table that is a
Daond operation, with its opcode row r and its datagram d, on a device that answers Daond: exec is a next state, which is that of receive:
the datagram is counted, screen decides by R408 and by steps 1 to 9 of R411, and the command is dropped, refused, answered from the cache,
kept waiting or run accordingly. -/
def Obligations.EveryDatagramIsScreened : Prop :=
  ∀ (i : Instr) (r : OpRow) (d : Datagram) (eff : Effect) (s : State), command i = some (r, d, eff) → s.dev.Serving →
    (∀ t d, i ≠ .streamStatusIngress t d ∧ i ≠ .streamStatusEgress t d) →
    ∃ t, exec i s = .next (receive r i eff (r.apply d) ((s.arrive t).onDev Dev.countRx))

/-- The header checks of a command come in the order of R411 and decide its status (R411, R409, R415). For a command (R408) screen rejects
it at step 1 with ST_BAD_VERSION when its version is not 1; at step 2 with ST_BAD_LENGTH when its param_len is above 8,960 or not the
length of its parameters; at step 3 with ST_BAD_PARAM when its flags, status or reserved bytes break R409; at step 5 with ST_NO_LEASE when
the operation needs the lease and the command is not under it; each only when the steps before it pass, and the detail record names no
operation (0xFFFF). -/
def Obligations.HeaderChecksComeFirst : Prop :=
  ∀ (r : OpRow) (d : Datagram) (v : Dev), isCommand d v = true →
    let no (st : Status) : Screen := .reject { status := st, opIndex := 0xFFFF }
    let lenBad := d.paramLen > 8960 ∨ d.paramLen ≠ d.params.length
    let flagBad := d.flags ≥ 16 ∨ bit d.flags 3 = true ∨ bit d.flags 2 ≠ (r.code == 0x1001) ∨ d.status ≠ 0 ∨ d.rsvd ≠ 0
    (d.version ≠ 1 → screen r d v = no .badVersion) ∧
    (d.version = 1 → lenBad → screen r d v = no .badLength) ∧
    (d.version = 1 → ¬lenBad → flagBad → screen r d v = no .badParam) ∧
    (d.version = 1 → ¬lenBad → ¬flagBad → r.lease d.params = true → underLease r.code d v = false → screen r d v = no .noLease)

/-- A resend whose sequence has been answered gets the cached reply and does not run (R413, R412). For every Daond row, on a device that
answers Daond: when a command under the lease with good header carries a sequence at most 255 back from the newest, not of a command that
still runs, and the cache holds its reply, then the next state is the one in which that reply leaves again with its retransmit flag set,
counted in retransmits_served, and nothing else of the device changes but the counters of received datagrams and commands and what the
lanes have sent up to that instant. -/
def Obligations.CachedReplyIsResent : Prop :=
  ∀ (i : Instr) (r : OpRow) (d : Datagram) (eff : Effect) (s : State) (l : Lease) (rep : Reply), command i = some (r, d, eff) →
    (∀ t d, i ≠ .streamStatusIngress t d ∧ i ≠ .streamStatusEgress t d) → s.dev.Serving →
    isCommand (r.apply d) s.dev = true → headerCheck r.code (r.apply d) = none → s.dev.daond.lease = some l → underLease r.code (r.apply d) s.dev = true →
    l.running.contains d.sequence = false → (l.newest - d.sequence).toNat ≤ 255 →
    l.cache.find? (fun e => e.1 == d.sequence) = some (d.sequence, rep) →
    ∃ t, exec i s = .next { s with dev := { s.dev.arrive t with
      daond := { s.dev.daond with rxFrames := s.dev.daond.rxFrames + 1, commands := s.dev.daond.commands + 1,
                                  retransmitsServed := s.dev.daond.retransmitsServed + 1 }
      out := (s.dev.arrive t).out ++ [.reply { rep with retransmit := true }] } }

/-- What it takes for a Daond command to run (R411, R412, R419). A datagram is admitted by R408 and steps 1 to 9 of R411 when: the device
answers Daond; the datagram is a command to it with a good header; it is under the lease and its sequence is new; the device state allows
the operation; its parameters have the length of the layout and codes that exist; the queues have room; no state-changing command is
before it; and the core that executes it runs. For an operation that needs no lease, a sender without the lease meets the same conditions
without a sequence. -/
def Obligations.AdmissionConditionsSuffice : Prop :=
  ∀ (r : OpRow) (d : Datagram) (s : State), s.dev.Serving → isCommand (r.apply d) s.dev = true → headerCheck r.code (r.apply d) = none →
    (underLease r.code (r.apply d) s.dev = true ∧ (∃ l, s.dev.daond.lease = some l ∧ classify l d.sequence = .fresh) ∨
      r.lease (r.apply d).params = false ∧ s.dev.daond.lease = none) →
    stateCheck r (r.apply d) s.dev = none → r.lenOk (r.apply d).params = true → r.badCode (r.apply d).params = none →
    s.dev.daond.waiting = [] → s.dev.daond.deferred = [] → s.dev.fw.queueWait = none →
    s.dev.daond.commits.length + s.dev.daond.prepared.length < 4096 → s.dev.coreUp r.core = true → s.Admits r d

/-- The answer to a command leaves as a reply with its numbers, and serving touches nothing else (R410, R420). For every state after a
served command whose work is f and whose answer is a status with parameters: among what leaves is the reply with the command's sequence,
opcode, lease tag, source address and port and the device's number, with that status and those parameters and its retransmit flag clear;
memory and queue are as before; and every component of the device but the Daond engine and the outputs is what the work f made of it, the
work beginning with the device of before at the command's instant. -/
def Obligations.ReplyLeavesAndNothingElseChanges : Prop :=
  ∀ (s : State) (r : OpRow) (t : Nat) (d : Datagram) (f : Dev → Dev) (a : Dev → Answer) (st : Status) (p : List Byte) (m : Bool),
    a (s.begun r t d).dev = .done st p m →
    ∃ q o, s.served r t d f a = { s with dev := { f (s.begun r t d).dev with daond := q, out := o } } ∧
      Output.reply { addr := d.addr, port := d.port, deviceNo := s.me, leaseTag := d.leaseTag, sequence := d.sequence, opcode := r.code,
                     status := st, retransmit := false, more := m, params := p } ∈ o ∧
      (∃ l, (s.begun r t d).dev = { s.dev.arrive t with daond := { s.dev.daond with
        rxFrames := s.dev.daond.rxFrames + 1, commands := s.dev.daond.commands + 1, lease := l } })

/-- A new lease tag lies in 1 to 0xFFFE and differs from the last 16 issued (R417). For every draw and every list of at most 16 tags
issued before, the tag that a grant takes is from 1 to 0xFFFE and is none of them. -/
def Obligations.LeaseTagIsFresh : Prop :=
  ∀ (draw : Nat) (old : List Nat), old.length ≤ 16 → 1 ≤ pickTag draw old ∧ pickTag draw old ≤ 0xFFFE ∧ pickTag draw old ∉ old

/-- SYS.LEASE acquire, renew and release run and change the lease as R417 says (R416, R417, R418). Admitted with good fields: an acquire
with lease tag 0, when no lease is held or the sender's address and port hold it, ends the old lease and grants one under a fresh tag with
timeout_s (5 for 0) and the acquire's sequence, and replies with its record; from another host it is answered ST_RESOURCE_BUSY naming the
lease and changes nothing; a renew restarts the timer and applies timeout_s; a release ends the lease. Each is a next state. -/
def Obligations.LeaseCommandsChangeTheLease : Prop :=
  ∀ (s : State) (t : Nat) (d : Datagram),
    (s.Admits sysLeaseAcquireRow d → leaseBad true (sysLeaseAcquireRow.apply d).params = none → d.leaseTag = 0 →
      (∀ l, s.dev.daond.lease = some l → l.addr = d.addr ∧ l.port = d.port) →
      let n := fieldU (sysLeaseAcquireRow.apply d).params 2 2
      let f : Dev → Dev := fun v => (v.endLease 3).grantLease d.addr d.port (if n = 0 then 5 else n) d.sequence
      exec (.sysLeaseAcquire t d) s = .next (s.served sysLeaseAcquireRow t d f fun v => .ok (leaseRecord (f v)))) ∧
    (s.Admits sysLeaseAcquireRow d → leaseBad true (sysLeaseAcquireRow.apply d).params = none → d.leaseTag = 0 →
      ∀ l, s.dev.daond.lease = some l → (l.addr ≠ d.addr ∨ l.port ≠ d.port) →
      exec (.sysLeaseAcquire t d) s = .next (s.served sysLeaseAcquireRow t d (fun v => v) fun _ => .fail (busyWith 16 l.tag))) ∧
    (s.Admits sysLeaseRenewRow d → leaseBad true (sysLeaseRenewRow.apply d).params = none →
      let n := fieldU (sysLeaseRenewRow.apply d).params 2 2
      let f : Dev → Dev := fun v => { v with daond := { v.daond with lease := v.daond.lease.map fun l =>
        { l with restartedAt := v.clk.now, timeoutS := if n = 0 then l.timeoutS else n } } }
      exec (.sysLeaseRenew t d) s = .next (s.served sysLeaseRenewRow t d f fun v => .ok (leaseRecord (f v)))) ∧
    (s.Admits sysLeaseReleaseRow d → leaseBad false (sysLeaseReleaseRow.apply d).params = none →
      exec (.sysLeaseRelease t d) s = .next (s.served sysLeaseReleaseRow t d (Dev.endLease 1) fun _ => .ok []))

/-- SYS.INFO, SYS.PING, SYS.LEASE read and SYS.NET read answer their records and change nothing (R436, R416, R406). Admitted with good
fields, each answers ST_OK: SYS.INFO its record; SYS.PING the echo value and device time; SYS.LEASE read the lease record; SYS.NET read
the network record with the addresses in use. Nothing of the device changes but what serving changes. -/
def Obligations.SystemReadsAnswer : Prop :=
  ∀ (s : State) (t : Nat) (d : Datagram),
    (s.Admits sysInfoRow d → exec (.sysInfo t d) s = .next (s.served sysInfoRow t d (fun v => v) fun v => .ok (infoRecord v))) ∧
    (s.Admits sysPingRow d →
      exec (.sysPing t d) s = .next (s.served sysPingRow t d (fun v => v) fun v => .ok (d.params ++ timeBytes v.nowU))) ∧
    (s.Admits sysLeaseReadRow d → leaseBad false (sysLeaseReadRow.apply d).params = none →
      exec (.sysLeaseRead t d) s = .next (s.served sysLeaseReadRow t d (fun v => v) fun v => .ok (leaseRecord v))) ∧
    (s.Admits sysNetReadRow d →
      firstBad [⟨7, 1, .reserved, []⟩, ⟨13, 3, .reserved, []⟩, ⟨41, 7, .reserved, []⟩, ⟨70, 2, .reserved, []⟩] (sysNetReadRow.apply d).params = none →
      exec (.sysNetRead t d) s = .next (s.served sysNetReadRow t d (fun v => v) fun v => .ok (netRecord v)))

/-- SYS.NET set stores the network settings and brings them into force (R406, R489). Admitted with good fields, SYS.NET set replaces the
network section of the live settings, makes the settings store pending, and applies the settings: its reply is ST_OK without parameters,
and the settings in force afterwards are those of the datagram. -/
def Obligations.NetworkSettingsComeIntoForce : Prop :=
  ∀ (s : State) (t : Nat) (d : Datagram), s.Admits sysNetSetRow d → netBad (sysNetSetRow.apply d).params = none →
    let n := readNetCfg (sysNetSetRow.apply d).params 0
    let f : Dev → Dev := fun v => (v.changeSettings fun x => { x with network := n }).netApply n
    exec (.sysNetSet t d) s = .next (s.served sysNetSetRow t d f fun _ => .ok []) ∧
      ∀ v, (f v).daond.net.cfg = n ∧ (f v).settings.live.network = n ∧ (f v).settings.pending = true

/-- Every query of R435 answers the records of its range and clears only what it returns (R435, R438, R178, R203, R275, R305, R319, R347,
R357, R365, R436, R156). For the queries of lanes, routes, capture channels, surfaces, layer slots, heads, embedded audio channels,
references, timing channels, frame-pulse outputs, device time and the Daond counters: admitted with a range and flags that R435 allows,
exec answers the next state in which the reply carries the records of as many units of the range as fit 8,960 bytes, with the more flag
when some do not, and a clear has acted on exactly those units; without the clear flag nothing changes. ROUTE.STATUS does so for a first
stream that is in no other bond (R17). -/
def Obligations.QueriesAnswerTheirRecords : Prop :=
  ∀ (s : State) (t : Nat) (d : Datagram),
    let reads (i : Instr) (r : OpRow) (units size : Nat) (rec : Nat → Dev → List Byte) (clr : Nat → Dev → Dev) : Prop :=
      s.Admits r d → queryOk units false (r.apply d).params →
        exec i s = .next (s.served r t d (queryClear size clr (r.apply d).params) (queryAnswer size rec (r.apply d).params))
    reads (.laneStatus t d) laneStatusRow 512 64 laneRecord laneClear ∧
    (s.dev.streamInside 1 (fieldU d.params 0 2) 0 = none → reads (.routeStatus t d) routeStatusRow 512 36 routeRecord (fun _ v => v)) ∧
    reads (.capStatus t d) capStatusRow 512 32 capRecord capClear ∧
    reads (.surfStatus t d) surfStatusRow 16384 64 surfRecord (fun _ v => v) ∧
    reads (.layerStatus t d) layerStatusRow 1024 52 layerRecord layerClear ∧
    reads (.headStatus t d) headStatusRow 256 72 headRecord headClear ∧
    reads (.audioStatus t d) audioStatusRow 16384 48 audioRecord audioClear ∧
    reads (.refStatus t d) refStatusRow 41 64 refRecord refClear ∧
    reads (.tcStatus t d) tcStatusRow 8 48 tcRecord (fun k v => v.modTc k fun x => { x with lockLosses := 0 }) ∧
    reads (.fpStatus t d) fpStatusRow 32 36 fpRecord (fun _ v => v) ∧
    reads (.timeStatus t d) timeStatusRow 1 44 (fun _ v => timeRecord v) (fun _ v => v) ∧
    reads (.sysCounters t d) sysCountersRow 1 80 (fun _ v => countersRecord v) (fun _ v => countersClear v)

/-- STREAM.STATUS and PROBE.STATUS answer the records of the direction that bit 1 of the flags selects (R435, R143, R440, R463, R17).
Admitted with a range and flags that R435 allows, and with a first stream that is in no other bond (R17): STREAM.STATUS answers ingress
records when the row leaves bit 1 of the flags clear and egress records when it sets it; PROBE.STATUS answers the probe records of that
direction; a clear acts on the records returned. In a range that starts inside another bond STREAM.STATUS of ingress, PROBE.STATUS and
ROUTE.STATUS are answered with the failure of R17 and change nothing. -/
def Obligations.StreamAndProbeQueriesAnswer : Prop :=
  ∀ (s : State) (t : Nat) (d : Datagram),
    let di : Datagram := { d with params := d.params.set 2 (BitVec.ofNat 8 (fieldU d.params 2 1) &&& 0xFD#8) }
    let de : Datagram := { d with params := d.params.set 2 (BitVec.ofNat 8 (fieldU d.params 2 1) ||| 2#8) }
    let dir := b01 (bit (fieldU d.params 2 1) 1)
    (s.Admits streamStatusIngressRow di → queryOk 512 true di.params → bit (fieldU di.params 2 1) 1 = false →
      s.dev.streamInside 0 (fieldU di.params 0 2) 0 = none →
      exec (.streamStatusIngress t d) s = .next (s.served streamStatusIngressRow t di
        (queryClear 128 ingressClear di.params) (queryAnswer 128 ingressRecord di.params))) ∧
    (s.Admits streamStatusEgressRow de → queryOk 512 true de.params → bit (fieldU de.params 2 1) 1 = true →
      s.dev.streamInside 1 (fieldU de.params 0 2) 0 = none →
      exec (.streamStatusEgress t d) s = .next (s.served streamStatusEgressRow t de
        (queryClear 40 egressClear de.params) (queryAnswer 40 egressRecord de.params))) ∧
    (s.Admits streamStatusIngressRow di → bit (fieldU di.params 2 1) 1 = false → ∀ f, s.dev.streamInside 0 (fieldU di.params 0 2) 0 = some f →
      exec (.streamStatusIngress t d) s = .next (s.served streamStatusIngressRow t di (fun v => v) fun _ => .fail f)) ∧
    (s.Admits probeStatusRow d → queryOk 512 true d.params → s.dev.streamInside dir (fieldU d.params 0 2) 0 = none →
      exec (.probeStatus t d) s = .next (s.served probeStatusRow t d
        (queryClear 160 (probeClear dir) d.params) (queryAnswer 160 (probeRecord dir) d.params))) ∧
    (s.Admits probeStatusRow d → ∀ f, s.dev.streamInside dir (fieldU d.params 0 2) 0 = some f →
      exec (.probeStatus t d) s = .next (s.served probeStatusRow t d (fun v => v) fun _ => .fail f)) ∧
    (s.Admits routeStatusRow d → ∀ f, s.dev.streamInside 1 (fieldU d.params 0 2) 0 = some f →
      exec (.routeStatus t d) s = .next (s.served routeStatusRow t d (fun v => v) fun _ => .fail f))

/-- An operation of a staged family sent alone is a transaction of one operation with an immediate commit (R426, R425, R43, R34). For each
of the 21 rows of the staged families: admitted by R411, when admission (R43, R44) finds the operations us for the one operation with E
two microseconds after now, exec is the next state in which the admission is counted, the commit with the next generation stands in the
queue, and the reply is ST_OK with its commit record; when admission fails, the reply is that failure and the configuration, the commits
and the prepared transactions are as before. The instant of E is the model's reading of R34 (arming takes no time, NOTES.md). -/
def Obligations.StagedOperationAloneIsCommitted : Prop :=
  ∀ (s : State) (t : Nat) (d : Datagram),
    let alone (i : Instr) (r : OpRow) (code : Nat) : Prop := s.Admits r d →
      let b := s.begun r t d
      let e := settleU + b.dev.nowU
      let os : List StagedOp := [{ code := code, params := (r.apply d).params }]
      (∀ s1 us, admitOps e true os b = (s1, .ok us) →
        let k := s1.dev.newCommit e 1 us
        exec i s = .next ((s1.onDev fun v => v.countAdmission.enqueue k).answered r s.me d (.done .ok (commitRecord k e) false))) ∧
      (∀ s1 f, admitOps e true os b = (s1, .error f) →
        exec i s = .next (s1.answered r s.me d (.fail f)) ∧ s1.dev.cfg = s.dev.cfg ∧ s1.mem = s.mem ∧
          s1.dev.daond.commits = s.dev.daond.commits ∧ s1.dev.daond.prepared = s.dev.daond.prepared ∧
          s1.dev.daond.generation = s.dev.daond.generation)
    alone (.streamConfigIngress t d) streamConfigIngressRow 0x0301 ∧
    alone (.streamConfigEgress t d) streamConfigEgressRow 0x0301 ∧
    alone (.routeTake t d) routeTakeRow 0x0401 ∧
    alone (.capConfig t d) capConfigRow 0x0501 ∧
    alone (.surfCreate t d) surfCreateRow 0x0601 ∧
    alone (.surfSeal t d) surfSealRow 0x0602 ∧
    alone (.surfUnseal t d) surfUnsealRow 0x0603 ∧
    alone (.surfDelete t d) surfDeleteRow 0x0604 ∧
    alone (.layerConfig t d) layerConfigRow 0x0701 ∧
    alone (.layerLutLoad t d) layerLutLoadRow 0x0702 ∧
    alone (.layerMatrix t d) layerMatrixRow 0x0703 ∧
    alone (.layerSynth t d) layerSynthRow 0x0704 ∧
    alone (.layerScalerSet t d) layerScalerSetRow 0x0705 ∧
    alone (.layerCoeffLoad t d) layerCoeffLoadRow 0x0706 ∧
    alone (.headTiming t d) headTimingRow 0x0801 ∧
    alone (.headColour t d) headColourRow 0x0802 ∧
    alone (.headSrEnter t d) headSrEnterRow 0x0803 ∧
    alone (.headSrExit t d) headSrExitRow 0x0803 ∧
    alone (.audioChannel t d) audioChannelRow 0x0901 ∧
    alone (.audioStream t d) audioStreamRow 0x0902 ∧
    alone (.audioTone t d) audioToneRow 0x0903

/-- A configuration operation sets the object it names and nothing else (R423, R127, R172, R160, R181, R212, R215, R229, R247, R222, R270,
R284). What STREAM.CONFIG, CAP.CONFIG, SURF.CREATE, SURF.DELETE, LAYER.MATRIX, LAYER.SYNTH, LAYER.SCALER, HEAD.TIMING, HEAD.COLOUR,
HEAD.SR, AUDIO.CHANNEL, AUDIO.STREAM and AUDIO.TONE do when they become live: the record of the object named is that of the parameters
(gone for the mode or enable that releases it), the record of every other object of the kind is as before (LAYER.SYNTH also counts the
load that reloads the generator), and every other part of the configuration is as before. -/
def Obligations.OperationsSetOnlyTheirObject : Prop :=
  ∀ (p : List Byte) (c : Cfg) (m : Nat),
    let n := fieldU p 0 2
    let f (code : Nat) : Cfg := applyOp { code := code, params := p } c
    let kept {α : Type} (a : Option α) (b : Option α) : Option α := if n = m then a else b
    (fieldU p 2 1 = 0 → smFind m (f 0x0301).ingress = kept (if fieldU p 3 1 = 0 then none else some (readIngressCfg p 0)) (smFind m c.ingress) ∧
      f 0x0301 = { c with ingress := (f 0x0301).ingress }) ∧
    (fieldU p 2 1 ≠ 0 → smFind m (f 0x0301).egress = kept (if fieldU p 3 1 = 0 then none else some (readEgressCfg p 0)) (smFind m c.egress) ∧
      f 0x0301 = { c with egress := (f 0x0301).egress }) ∧
    (smFind m (f 0x0501).caps = kept (if fieldU p 4 1 = 0 then none else some (readCapCfg p 0)) (smFind m c.caps) ∧ f 0x0501 = { c with caps := (f 0x0501).caps }) ∧
    (smFind m (f 0x0601).statics = kept (some (newSurface (readSurfCfg p 0))) (smFind m c.statics) ∧ f 0x0601 = { c with statics := (f 0x0601).statics }) ∧
    (smFind m (f 0x0604).statics = kept none (smFind m c.statics) ∧ f 0x0604 = { c with statics := (f 0x0604).statics }) ∧
    ((f 0x0703).slot m = (if n = m then { c.slot m with matrix := readMatrixBlk p 4 } else c.slot m) ∧ f 0x0703 = { c with slots := (f 0x0703).slots }) ∧
    ((f 0x0704).slot m = (if n = m then { c.slot m with synth := readSynthCfg p 0, synthLoads := (c.slot m).synthLoads + 1 } else c.slot m) ∧ f 0x0704 = { c with slots := (f 0x0704).slots }) ∧
    ((f 0x0705).slot m = (if n = m then { c.slot m with scalerSet := readScalerCfg p 0 } else c.slot m) ∧ f 0x0705 = { c with slots := (f 0x0705).slots }) ∧
    ((f 0x0801).head m = (if n = m then { c.head m with timing := if fieldU p 2 1 = 0 then none else some (readTimingCfg p 0) } else c.head m) ∧
      f 0x0801 = { c with heads := (f 0x0801).heads }) ∧
    ((f 0x0802).head m = (if n = m then { c.head m with colour := readColourCfg p 0 } else c.head m) ∧ f 0x0802 = { c with heads := (f 0x0802).heads }) ∧
    ((f 0x0803).head m = (if n = m then { c.head m with sr := readSrCfg p 0 } else c.head m) ∧ f 0x0803 = { c with heads := (f 0x0803).heads }) ∧
    (smFind m (f 0x0901).audio = kept (if fieldU p 2 1 = 0 then none else some (readAudioChCfg p 0)) (smFind m c.audio) ∧ f 0x0901 = { c with audio := (f 0x0901).audio }) ∧
    (smFind m (f 0x0902).audioStreams = kept (some (readAudioStreamCfg p 0)) (smFind m c.audioStreams) ∧ f 0x0902 = { c with audioStreams := (f 0x0902).audioStreams }) ∧
    (smFind m (f 0x0903).tones = (if fieldU p 0 1 = m then some (readToneCfg p 0) else smFind m c.tones) ∧ f 0x0903 = { c with tones := (f 0x0903).tones })

/-- The queue of commits stays in order of E, and of admission where E is equal (R37). When a commit joins a queue in which every commit
comes before each later one in order of E and then of admission, the queue it joins has that order too, and holds exactly the old commits
and the new one. -/
def Obligations.CommitsStayInOrder : Prop :=
  ∀ (k : Commit) (q : List Commit), q.Pairwise (fun a b => a.before b = true) →
    (queueCommit k q).Pairwise (fun a b => a.before b = true) ∧ ∀ x, x ∈ queueCommit k q ↔ x = k ∨ x ∈ q

/-- STAGE.OPEN, STAGE.ADD and STAGE.STATUS run as R423, R424 and R428 say (R423, R424, R428). Admitted: STAGE.OPEN without an open
transaction opens an empty one, and with one open is answered ST_BAD_PARAM and changes nothing; STAGE.ADD whose records parse appends
them, within 4,096 operations and 8 MiB, and replies with the count and bytes; above either limit it is answered ST_STAGE_FULL, adds
nothing and leaves the transaction open; with no transaction open it is answered ST_NO_STAGE; a record that R424 refuses closes the
transaction; STAGE.STATUS replies with its record and changes nothing. -/
def Obligations.StageOpenAddAndStatusRun : Prop :=
  ∀ (s : State) (t : Nat) (d : Datagram),
    let open' (x : Option OpenTx) : Dev → Dev := fun v => { v with daond := { v.daond with open_ := x } }
    (s.Admits stageOpenRow d → s.dev.daond.open_ = none →
      exec (.stageOpen t d) s = .next (s.served stageOpenRow t d (open' (some {})) fun _ => .ok [])) ∧
    (s.Admits stageOpenRow d → s.dev.daond.open_ ≠ none →
      exec (.stageOpen t d) s = .next (s.served stageOpenRow t d (fun v => v) fun _ => .fail { status := .badParam, check := 1 })) ∧
    (∀ tx os, s.Admits stageAddRow d → s.dev.daond.open_ = some tx → parseAdd (d.params.length + 1) tx.ops.length 0 d.params = .ops os →
      let all := tx.ops ++ os
      let store := stageBytes all + (s.dev.daond.prepared.map (·.bytes)).sum
      (all.length ≤ 4096 → store ≤ 8388608 → exec (.stageAdd t d) s = .next (s.served stageAddRow t d (open' (some { ops := all }))
        fun _ => .ok (toBE 2 all.length ++ zeros 2 ++ toBE 4 (stageBytes all)))) ∧
      (4096 < all.length ∨ 8388608 < store →
        exec (.stageAdd t d) s = .next (s.served stageAddRow t d (fun v => v) fun _ => .fail (plainFail .stageFull)))) ∧
    (∀ tx f, s.Admits stageAddRow d → s.dev.daond.open_ = some tx → parseAdd (d.params.length + 1) tx.ops.length 0 d.params = .bad f →
      exec (.stageAdd t d) s = .next (s.served stageAddRow t d (open' none) fun _ => .fail f)) ∧
    (s.Admits stageAddRow d → s.dev.daond.open_ = none →
      exec (.stageAdd t d) s = .next (s.served stageAddRow t d (fun v => v) fun _ => .fail (plainFail .noStage))) ∧
    (s.Admits stageStatusRow d → exec (.stageStatus t d) s = .next (s.served stageStatusRow t d (fun v => v) fun v => .ok (stageRecord v)))

/-- STAGE.ABORT discards the open transaction or the prepared one it names (R428). Admitted with its reserved fields zero: STAGE.ABORT of
the open transaction closes it, and of a prepared group discards exactly that one; each replies ST_OK. A target that does not exist is
answered ST_NO_STAGE and nothing changes. -/
def Obligations.StageAbortDiscardsItsTarget : Prop :=
  ∀ (s : State) (t : Nat) (d : Datagram),
    let g := fieldU (stageAbortRow 1 |>.apply d).params 2 2
    (s.Admits (stageAbortRow 0) d → abortBad (stageAbortRow 0 |>.apply d).params = none → s.dev.daond.open_.isSome = true →
      exec (.stageAbortOpen t d) s = .next (s.served (stageAbortRow 0) t d (fun v => { v with daond := { v.daond with open_ := none } }) fun _ => .ok [])) ∧
    (s.Admits (stageAbortRow 0) d → abortBad (stageAbortRow 0 |>.apply d).params = none → s.dev.daond.open_ = none →
      exec (.stageAbortOpen t d) s = .next (s.served (stageAbortRow 0) t d (fun v => v) fun _ => .fail (plainFail .noStage))) ∧
    (s.Admits (stageAbortRow 1) d → abortBad (stageAbortRow 1 |>.apply d).params = none → (s.dev.daond.prepared.any fun q => q.groupId == g) = true →
      exec (.stageAbortPrepared t d) s = .next (s.served (stageAbortRow 1) t d
        (Dev.dropPrepared g) fun _ => .ok [])) ∧
    (s.Admits (stageAbortRow 1) d → abortBad (stageAbortRow 1 |>.apply d).params = none → (s.dev.daond.prepared.any fun q => q.groupId == g) = false →
      exec (.stageAbortPrepared t d) s = .next (s.served (stageAbortRow 1) t d (fun v => v) fun _ => .fail (plainFail .noStage)))

/-- STAGE.COMMIT closes the open transaction and admits it at its time, or prepares it (R425, R427, R36, R43). Admitted by R411, with 20
bytes of parameters, good fields and operations in the open transaction, the transaction is closed, and: IMMEDIATE, when admission finds
the operations with E two microseconds after now, queues the commit and replies ST_OK with its record; TIMED does so at its own E, when E
is at least 1 ms and at most 86,400 s ahead, and replies ST_ACCEPTED; PREPARE, with a group number that is free and fewer than 16
prepared, keeps the commit as prepared after those before it, assigns its granules, and replies ST_ACCEPTED. When admission fails the
reply is the failure. -/
def Obligations.StageCommitAdmitsTheTransaction : Prop :=
  ∀ (s : State) (t : Nat) (d : Datagram) (tx : OpenTx), s.dev.daond.open_ = some tx → tx.ops ≠ [] → d.params.length = 20 →
    let closed (m : Byte) : State := (s.begun (stageCommitRow m) t d).onDev fun v => { v with daond := { v.daond with open_ := none } }
    let p (m : Byte) : List Byte := ((stageCommitRow m).apply d).params
    let done (m : Byte) (s1 : State) (us : List UnitOp) (e : Nat) (st : Status) : State :=
      let k := s1.dev.newCommit e tx.ops.length us
      (s1.onDev fun v => v.countAdmission.enqueue k).answered (stageCommitRow m) s.me d (.done st (commitRecord k e) false)
    (s.Admits (stageCommitRow 0) d → commitBad 0 (p 0) = none →
      let e := settleU + (closed 0).dev.nowU
      (∀ s1 us, admitOps e true tx.ops (closed 0) = (s1, .ok us) → exec (.stageCommitImmediate t d) s = .next (done 0 s1 us e .ok)) ∧
      (∀ s1 f, admitOps e true tx.ops (closed 0) = (s1, .error f) →
        exec (.stageCommitImmediate t d) s = .next (s1.answered (stageCommitRow 0) s.me d (.fail f)))) ∧
    (s.Admits (stageCommitRow 1) d → commitBad 1 (p 1) = none → (closed 1).dev.timeVerdict (fieldT (p 1) 4) = none →
      ∀ s1 us, admitOps (fieldT (p 1) 4) true tx.ops (closed 1) = (s1, .ok us) →
        exec (.stageCommitTimed t d) s = .next (done 1 s1 us (fieldT (p 1) 4) .accepted)) ∧
    (s.Admits (stageCommitRow 1) d → commitBad 1 (p 1) = none → (closed 1).dev.timeVerdict (fieldT (p 1) 4) = none →
      ∀ s1 f, admitOps (fieldT (p 1) 4) true tx.ops (closed 1) = (s1, .error f) →
        exec (.stageCommitTimed t d) s = .next (s1.answered (stageCommitRow 1) s.me d (.fail f))) ∧
    (s.Admits (stageCommitRow 2) d → commitBad 2 (p 2) = none → s.dev.daond.prepared.length < 16 →
      (s.dev.daond.prepared.any fun q => q.groupId == fieldU (p 2) 2 2) = false → syncInPrepare tx.ops = none →
      (∀ s1 f, admitOps (closed 2).dev.queueEnd false tx.ops (closed 2) = (s1, .error f) →
        exec (.stageCommitPrepare t d) s = .next (s1.answered (stageCommitRow 2) s.me d (.fail f))) ∧
      ∀ s1 us, admitOps (closed 2).dev.queueEnd false tx.ops (closed 2) = (s1, .ok us) →
        let k := s1.dev.newCommit 0 tx.ops.length us
        let q : Prepared := { groupId := fieldU (p 2) 2 2, holdS := fieldU (p 2) 16 2, since := s1.dev.clk.now, commit := k, bytes := stageBytes tx.ops }
        (s1.dev.countAdmission.prepare q).daond.prepared = s1.dev.daond.prepared ++ [q] ∧
        exec (.stageCommitPrepare t d) s =
          .next ((s1.onDev fun v => v.countAdmission.prepare q).answered (stageCommitRow 2) s.me d (.done .accepted (commitRecord k 0) false)))

/-- GROUP.COMMIT makes the prepared transaction of its group a timed commit at E (R430, R427). Admitted by R411 with good fields: when the
group is prepared, E is at least 1 ms and at most 86,400 s ahead and every take of the transaction finds its window, the transaction
leaves the prepared ones and stands in the queue at E, and the reply is ST_ACCEPTED with the commit record; a group that is not prepared
is answered ST_NO_STAGE, an E out of range ST_LATE or ST_BAD_PARAM, a take without a window ST_NOT_SYNC, and nothing changes. -/
def Obligations.GroupCommitExecutesThePrepared : Prop :=
  ∀ (s : State) (t : Nat) (d : Datagram), s.Admits groupCommitRow d → groupBad d.params = none →
    let g := fieldU d.params 0 2
    let e := fieldT d.params 4
    let b := s.begun groupCommitRow t d
    let no (f : Fail) : Prop := exec (.groupCommit t d) s = .next (s.served groupCommitRow t d (fun v => v) fun _ => .fail f)
    (s.dev.daond.prepared.find? (fun q => q.groupId == g) = none → no { status := .noStage, kind := 21, index := g }) ∧
    ∀ q, s.dev.daond.prepared.find? (fun q => q.groupId == g) = some q →
      (∀ f, b.dev.timeVerdict e = some f → no f) ∧
      (b.dev.timeVerdict e = none → ∀ n, b.dev.groupTake e q.commit = some n → no { status := .notSync, kind := 3, index := n }) ∧
      (b.dev.timeVerdict e = none → b.dev.groupTake e q.commit = none →
        exec (.groupCommit t d) s = .next (s.served groupCommitRow t d
          (fun v => (v.dropPrepared g).enqueue (q.timed e)) fun _ => .done .accepted (commitRecord (q.timed e) e) false))

/-- The lease times out, a prepared transaction expires, and nothing else changes (R417, R418, R427). LEASE_TIMEOUT, while CORE.C runs,
ends the lease with cause 2 when timeout_s have passed since the timer was last restarted; STAGE_EXPIRED of a prepared group discards that
transaction when its hold has passed and raises EV.SYS.STAGE_EXPIRED with the group. A command before that instant, with no lease held, or
of a group that is not prepared only moves the instant on. That it acts as of the instant itself is the model's choice (log entry 1). -/
def Obligations.TimersOfTheLeaseAndOfStages : Prop :=
  ∀ (s : State) (t g : Nat),
    (∀ l, s.dev.daond.lease = some l → s.dev.coreUp .c = true →
      let d := l.restartedAt + secQ * l.timeoutS
      (d ≤ t → exec (.leaseTimeout t) s = .next (s.happens d (Dev.endLease 2))) ∧ (t < d → exec (.leaseTimeout t) s = .next (s.arrive t))) ∧
    (s.dev.daond.lease = none → exec (.leaseTimeout t) s = .next (s.arrive t)) ∧
    (∀ x, s.dev.daond.prepared.find? (fun x => x.groupId == g) = some x →
      let d := x.since + secQ * x.holdS
      (d ≤ t → exec (.stageExpired t g) s = .next (s.happens d fun v =>
        { v with daond := { v.daond with prepared := v.daond.prepared.filter fun x => x.groupId != g } }.raise evStageExpired g)) ∧
      (t < d → exec (.stageExpired t g) s = .next (s.arrive t))) ∧
    (s.dev.daond.prepared.find? (fun x => x.groupId == g) = none → exec (.stageExpired t g) s = .next (s.arrive t))

/-- When the E of a commit comes, a unit without a boundary of its own takes it, and every other waits (R34, R129, R148, R174, R182, R200,
R256). While media run and the unit waits for a commit, COMMIT_EFFECTIVE_TIME acts at d, the first CORE cycle at or after its E: a capture
channel or an ingress stream that is not LOCKED, an egress stream that carries nothing, a static surface, a layer slot, and a head that is
off take their due commits there; a locked stream, an egress stream that carries, and an audio channel or stream wait for their own
boundary; a tone generator takes its commit at once unless a channel of the live configuration is fed by it; a take is executed at once
where neither source constrains it. Before d, and for a unit that waits for none, only the instant moves on. The clauses are the model's
reading of the boundaries named in the chapters (NOTES.md). -/
def Obligations.CommitReachesItsUnitAtE : Prop :=
  ∀ (s : State) (t n : Nat), s.dev.mediaOn = true →
    let takes (u : UnitId) (c : Dev → Bool) (f : Dev → Dev) : Prop := ∀ d, s.dev.firstE u = some d →
      (t < d → exec (.commitEffectiveTime t u) s = .next (s.arrive t)) ∧
      (d ≤ t → (c (s.dev.arrive d) = true → exec (.commitEffectiveTime t u) s = .next (s.happens d f)) ∧
        (c (s.dev.arrive d) = false → exec (.commitEffectiveTime t u) s = .next (s.arrive d)))
    (∀ u k, s.dev.daond.commits.find? (fun k => k.left.contains u) = some k → ∃ d, s.dev.firstE u = some d ∧ d % 3200 = 0 ∧
      s.dev.clk.instantOf (ceilDiv (1000 * k.effective - 500) 16384) ≤ d ∧ d < s.dev.clk.instantOf (ceilDiv (1000 * k.effective - 500) 16384) + 3200) ∧
    (∀ u, s.dev.firstE u = none → exec (.commitEffectiveTime t u) s = .next (s.arrive t)) ∧
    takes (.head n) (fun _ => true) (Dev.offHeadLive n) ∧ takes (.surface n) (fun _ => true) (Dev.surfaceLive n) ∧ takes (.slot n) (fun _ => true) (Dev.slotLive n) ∧
    takes (.ingress n) (fun v => (v.is n).state != .locked) (Dev.ingressLive n) ∧ takes (.capture n) (fun v => (v.is n).state != .locked) (Dev.captureLive n 0) ∧
    takes (.egress n) (fun v => !v.carries n) (Dev.egressLive n) ∧ takes (.take n) (Dev.takeFree n) (Dev.takeNow n) ∧
    takes (.audioChannel n) (fun _ => false) (fun v => v) ∧ takes (.audioStream n) (fun _ => false) (fun v => v) ∧
    takes (.tone n) (fun v => !v.cfg.audio.any fun a => a.2.sourceKind == 2 && a.2.source == n) (fun v => (v.toneLive n 0).1)

/-- SYS.FABRIC sets and reads the target and master records, and clears their counters (R395, R396, R397). Admitted with the fields that
its op takes: set target writes the parking mode and default master (and parks on it for DEFAULT); set master gives the best-effort
permission from the next window; the reads answer the target or master record of before; the read-and-clear forms then zero exactly the
unit's counters. -/
def Obligations.FabricCommandsRun : Prop :=
  ∀ (s : State) (t : Nat) (d : Datagram),
    let runs (i : Instr) (op : Nat) (f : Nat → List Byte → Dev → Dev) (rec : Nat → Dev → List Byte) : Prop :=
      let p := ((fabricRow op).apply d).params
      s.Admits (fabricRow op) d → fabricBad op p = none →
        exec i s = .next (s.served (fabricRow op) t d (f (fieldU p 1 1) p) fun v => .ok (rec (fieldU p 1 1) v))
    runs (.sysFabricSetTarget t d) 0 setTarget (fun _ _ => []) ∧
    runs (.sysFabricReadTarget t d) 1 (fun _ _ v => v) targetRecord ∧
    runs (.sysFabricReadClearTarget t d) 2 (fun n _ v => targetClear n v) targetRecord ∧
    runs (.sysFabricSetMaster t d) 3 (fun n p v => v.modMaster n fun x => { x with nextBestEffort := some (fieldU p 4 1 == 1) }) (fun _ _ => []) ∧
    runs (.sysFabricReadMaster t d) 4 (fun _ _ v => v) masterRecord ∧
    runs (.sysFabricReadClearMaster t d) 5 (fun n _ v => masterClear n v) masterRecord

/-- Budget windows, master resets, drains, late requests and scrub findings change the fabric as its rules say (R384, R381, R382, R386,
R392). While media run: BUDGET_WINDOW, at the next boundary of the windows of 1,280 CORE cycles counted from RESET_N, writes the budgets
and gives every master at every port the credit min(credit + budget, 16 budget) and the best-effort permission set for it, and then judges
the waiting requests again. MASTER_RESET blocks the master, counts the reset, keeps its budgets and credits, drops its requests, moves the
ports parked on it or with it as default master to their default master, and raises EV.FABRIC.RESET. DRAIN_COMPLETE unblocks it, and a
port that its drain alone left unparked parks on its default master. EV_FABRIC_LATE counts the late request and raises its event.
SCRUBBING counts the error, and an uncorrectable one marks its beat bad. Each is a next state. -/
def Obligations.FabricHappeningsRun : Prop :=
  ∀ (s : State) (t : Nat), s.dev.mediaOn = true →
    (let d := s.dev.clk.riseT + 1280 * 3200 * (s.dev.fabric.window + 1)
     (d ≤ t → exec (.budgetWindow t) s = .next (s.happens d Dev.budgetWindow)) ∧ (t < d → exec (.budgetWindow t) s = .next (s.arrive t)) ∧
      ∀ v : Dev, ∃ x : Dev, v.budgetWindow = x.regrant ∧ x.fabric.window = v.fabric.window + 1 ∧ x.fabric.waiting = v.fabric.waiting ∧
        ∀ m < 54, (x.master m).bestEffort = (v.master m).nextBestEffort.getD (v.master m).bestEffort ∧ ∀ p < 16,
          let b := (v.budgetsOf p).getD m 0
          (x.master m).budget.getD p 0 = b ∧ (x.master m).credit.getD p 0 = min ((v.master m).credit.getD p 0 + (b : Int)) (16 * (b : Int))) ∧
    (∀ (m : Fin 54) (c : Fin 4), exec (.masterReset t m c) s = .next (s.happens t (Dev.resetMaster m c)) ∧ ∀ v : Dev,
      let w := v.resetMaster m c
      (w.master m).draining = true ∧ (w.master m).resets = satInc (v.master m).resets ∧ (w.master m).budget = (v.master m).budget ∧
      (w.master m).credit = (v.master m).credit ∧ (∀ q ∈ w.fabric.waiting, q.1 ≠ m) ∧
      (smGet ({} : EvSrc) 4784 w.ev.srcs).count = (smGet ({} : EvSrc) 4784 v.ev.srcs).count + 1 ∧
      (smGet ({} : EvSrc) 4784 w.ev.srcs).lastDetail = c.val * 256 + m.val ∧
      ∀ p < 20, (v.target p).parkedOn = some m.val ∨ (v.target p).defaultMaster = m.val → (w.target p).parkedOn =
        if (v.target p).defaultMaster = m.val ∨ (v.master (v.target p).defaultMaster).draining = true then none else some (v.target p).defaultMaster) ∧
    (∀ m : Fin 54, exec (.drainComplete t m) s = .next (s.happens t (Dev.drained m)) ∧ ∀ v : Dev, (v.master m).draining = true →
      ((v.drained m).master m) = { v.master m with draining := false } ∧
      ∀ p < 20, (v.target p).drains = [m.val] → (v.target p).parkedOn = none → ((v.drained m).target p).parkedOn = some (v.target p).defaultMaster) ∧
    (∀ (m : Fin 54) (p : Fin 16), exec (.evFabricLate t m p) s = .next (s.happens t fun v =>
      (v.modTarget p fun y => { y with late := satInc y.late }).raise 4785 (p.val * 256 + m.val))) ∧
    (∀ (p : Fin 16) (o : Nat) (bad : Bool), exec (.scrubbing t p o bad) s = .next (s.happens t fun v =>
      let a := addrOfPort p (o % 0x180000000)
      let w := (v.modTarget (portOf a) fun y =>
        if bad then { y with eccUncorrected := satInc y.eccUncorrected } else { y with eccCorrected := satInc y.eccCorrected }).raise
          (4768 + portOf a) (b01 bad * 2 ^ 56 + portOffset a)
      if bad && !w.fabric.bad.contains (a / 64 * 64) then { w with fabric := { w.fabric with bad := a / 64 * 64 :: w.fabric.bad } } else w))

/-- LANE.CONFIG, LANE.IDLE and LANE.PRBS act on the block, the lane or the bond that R437 names, or name its owner (R50, R74, R76, R78,
R86, R437). Admitted with good fields and the block powered: LANE.CONFIG on a block without a configured stream stops the block and sets
its rate code, and on one with a stream is answered ST_RESOURCE_BUSY naming it; LANE.IDLE enters or leaves Dusk on a lane without an
egress stream, and on every lane of the bond whose lowest lane it names, where an exit on a bond that is not in Dusk does nothing;
LANE.PRBS sets or leaves the PRBS mode of the direction named, and on a direction that a configured stream uses is answered
ST_RESOURCE_BUSY naming the stream. A refusal changes nothing. -/
def Obligations.LaneCommandsRun : Prop :=
  ∀ (s : State) (t : Nat) (d : Datagram),
    let b := fieldU d.params 0 1
    let n := fieldU d.params 0 2
    let idle (r : OpRow) (i : Instr) (one : Nat → Dev → Dev) (dusk : Bool) (acts : Nat → Dev → Bool) : Prop :=
        s.Admits r d → laneIdleBad (r.apply d).params = none →
          (s.dev.cfg.egressAt (fieldU (r.apply d).params 0 2) = none → s.dev.pow.off.contains (8 + fieldU (r.apply d).params 0 2 / 32) = false →
            exec i s = .next (s.served r t d (one (fieldU (r.apply d).params 0 2)) fun _ => .ok [])) ∧
          (∀ c, s.dev.cfg.egressAt (fieldU (r.apply d).params 0 2) = some (fieldU (r.apply d).params 0 2, c) → exec i s = .next (s.served r t d
            (fun v => if acts (fieldU (r.apply d).params 0 2) v
              then (v.onBond (fieldU (r.apply d).params 0 2) one).modEs (fieldU (r.apply d).params 0 2) fun x => { x with hostDusk := dusk } else v)
            fun _ => .ok []))
    (s.Admits laneConfigRow d → laneConfigBad d.params = none →
      (s.dev.cfg.streamOn b = none → s.dev.pow.off.contains (8 + b) = false → exec (.laneConfig t d) s = .next (s.served laneConfigRow t d
        (fun v => (v.stopBlock b).modBlock b fun x => { x with rateCode := fieldU d.params 1 1 }) fun _ => .ok [])) ∧
      (∀ k i, s.dev.cfg.streamOn b = some (k, i) →
        exec (.laneConfig t d) s = .next (s.served laneConfigRow t d (fun v => v) fun _ => .fail (ownedBy k i)))) ∧
    (idle laneIdleEnterRow (.laneIdleEnter t d) (fun l => Dev.duskEnter l 1) true (fun _ _ => true) ∧
      idle laneIdleExitRow (.laneIdleExit t d) Dev.duskExit false fun e v => (v.lane e).tx == .dusk) ∧
    (s.Admits lanePrbsRow d → lanePrbsBad d.params = none → s.dev.pow.off.contains (8 + n / 32) = false →
      (fieldU d.params 2 1 = 0 → s.dev.cfg.egressAt n = none →
        exec (.lanePrbs t d) s = .next (s.served lanePrbsRow t d (Dev.prbsTx n (fieldU d.params 3 1)) fun _ => .ok [])) ∧
      (fieldU d.params 2 1 ≠ 0 → s.dev.cfg.ingressAt n = none →
        exec (.lanePrbs t d) s = .next (s.served lanePrbsRow t d (Dev.prbsRx n (fieldU d.params 3 1) (fieldU d.params 4 4)) fun _ => .ok [])) ∧
      (∀ e c, fieldU d.params 2 1 = 0 → s.dev.cfg.egressAt n = some (e, c) →
        exec (.lanePrbs t d) s = .next (s.served lanePrbsRow t d (fun v => v) fun _ => .fail (ownedBy 3 e))) ∧
      (∀ e c, fieldU d.params 2 1 ≠ 0 → s.dev.cfg.ingressAt n = some (e, c) →
        exec (.lanePrbs t d) s = .next (s.served lanePrbsRow t d (fun v => v) fun _ => .fail (ownedBy 2 e))))

/-- Blocks, loss and return of signal, relock timeouts and CDR lock take a lane through the states of R65 (R65, R72, R79). On a powered,
clocked and enabled lane that is in no PRBS mode: SIGNAL_LOSS idles a lane whose idle was announced and sends any other to HUNT with its
lock loss counted; SIGNAL_DETECT takes an idle lane to RELOCK; RELOCK_TIMEOUT, 24 block times after signal detect, takes a relocking lane
to HUNT and counts a lock loss, and before that only moves the instant on; CDR_LOCK lets a hunting lane look for commas; BLOCK_RECEIVED
adds its bits to those the lane holds and takes the blocks they frame, and each block takes the lane, its bond, deskew buffer and rows on,
and after an invalid header that sends the lane to HUNT the search goes on from the next bit. -/
def Obligations.LaneReceiverFollowsItsInput : Prop :=
  ∀ (s : State) (t : Nat) (lane : Fin 512),
    let l := s.dev.lane lane
    (s.dev.rxThere lane = true →
      exec (.signalLoss t lane) s = .next (s.happens t fun v => v.rxChange lane l.signalLost) ∧
      (l.rx = .idle → exec (.signalDetect t lane) s = .next (s.happens t fun v =>
        v.rxChange lane { l with rx := .relock, relockGood := 0, detectT := max s.dev.clk.now t, disparity := none, rxTail := (0, 0) })) ∧
      (let limit := l.detectT + 24 * blockQ (s.dev.block (lane / 32)).rateCode
       (l.rx = .relock → limit ≤ max s.dev.clk.now t → exec (.relockTimeout t lane) s = .next (s.happens t fun v => v.rxChange lane { l.lose with cdr := true })) ∧
       (l.rx ≠ .relock ∨ max s.dev.clk.now t < limit → exec (.relockTimeout t lane) s = .next (s.arrive t))) ∧
      (l.rx = .hunt → exec (.cdrLock t lane) s = .next (s.happens t fun v => v.setLane lane { l with cdr := true }))) ∧
    (∀ syms, s.dev.rxRuns lane = true → exec (.blockReceived t lane syms) s = .next (s.happens t fun v =>
      (v.modLane lane fun l => { l with rxTail := (l.rxTail.1 + 10 * syms.length, l.rxTail.2 * 1024 ^ syms.length + symBits syms) }).takeBlocks lane 2)) ∧
    (∀ v : Dev,
      let x := v.lane lane
      let len := x.rxTail.1
      let bits := x.rxTail.2
      let first := bits / 2 ^ (len - 640)
      let r := LaneSt.block { x with rxTail := (len - 640, bits % 2 ^ (len - 640)) } (bitsSyms 64 first) (strayCommas first) v.nowQ v.clk.now
        (24 * blockQ (v.block (lane / 32)).rateCode)
      let y := if r.lane.rx = .hunt then { r.lane with rxTail := (len - 1, bits % 2 ^ (len - 1)) } else r.lane
      let w := (v.updLane lane y).afterBlock lane { r with lane := y }
      v.takeBlock lane = match w.cfg.ingressAt lane with | some (n, _) => w.settle n | none => w) ∧
    (l.rx = .idlePending → l.signalLost.rx = .idle ∧ l.signalLost.idleEntries = l.idleEntries + 1 ∧ l.signalLost.lockLosses = l.lockLosses ∧
      l.signalLost.laneIndex = l.laneIndex ∧ l.signalLost.polarity = l.polarity) ∧
    (l.rx = .locked ∨ l.rx = .relock → l.signalLost.rx = .hunt ∧ l.signalLost.lockLosses = satInc l.lockLosses)

/-- 32 valid headers in a row lock a lane, and 8 invalid ones of the last 64 unlock it (R65). A lane in VERIFY with one valid header seen
is LOCKED after 31 more block positions with valid headers, having lost no lock; one invalid header in VERIFY sends it to HUNT; a LOCKED
lane goes to HUNT, and counts a lock loss, at the position where the last 64 positions hold 8 invalid headers. -/
def Obligations.ThirtyTwoHeadersLock : Prop :=
  (∀ l : LaneSt, l.rx = .verify → l.verifyCount = 1 →
    ((List.replicate 31 true).foldl LaneSt.advance l).rx = .locked ∧ ((List.replicate 31 true).foldl LaneSt.advance l).lockLosses = l.lockLosses ∧
    ∀ n < 31, ((List.replicate n true).foldl LaneSt.advance l).rx = .verify) ∧
  (∀ l : LaneSt, l.rx = .verify → (l.advance false).rx = .hunt) ∧
  (∀ (l : LaneSt) (ok : Bool), l.rx = .locked → 8 ≤ (((ok :: l.history).take 64).filter (!·)).length →
    (l.advance ok).rx = .hunt ∧ (l.advance ok).lockLosses = satInc l.lockLosses) ∧
  (∀ (l : LaneSt) (ok : Bool), l.rx = .locked → (((ok :: l.history).take 64).filter (!·)).length < 8 → (l.advance ok).rx = .locked)

/-- The PRBS checker takes the bits received, and 64 predicted bits in a row synchronise it (R84, R85). On a powered, clocked and enabled
lane in a PRBS mode, PRBS_SYNC, PRBS_SYNC_LOSS and EV_LANE_PRBS take the lane's checker through the bits received, one by one. A checker
that holds as many bits as its polynomial is long, is not synchronised and has seen no good bit yet, is synchronised after 64 bits that
its recurrence predicts, with prbs_bits and prbs_errors unchanged. -/
def Obligations.PrbsCheckerTakesItsBits : Prop :=
  (∀ (s : State) (t : Nat) (lane : Fin 512) (bits : List Bool), s.dev.mediaOn = true → s.dev.blockOn (lane / 32) = true →
    (s.dev.block (lane / 32)).refclk = true → (s.dev.lane lane).rxEnable = true → (s.dev.lane lane).rxPattern ≠ 0 →
    let u := s.happens t fun v => bits.foldl (Dev.prbsBit lane) v
    exec (.prbsSync t lane bits) s = .next u ∧ exec (.prbsSyncLoss t lane bits) s = .next u ∧ exec (.evLanePrbs t lane bits) s = .next u) ∧
  (∀ l : LaneSt, l.prbsSynced = false → l.prbsGood = 0 → l.prbsReg.length = (prbsTaps l.rxPattern).1 →
    let good (x : LaneSt) : LaneSt := x.prbsBit (prbsPredict x.rxPattern x.prbsReg)
    ∀ n ≤ 64, (Nat.repeat good n l).prbsSynced = decide (64 ≤ n) ∧ (Nat.repeat good n l).prbsBits = l.prbsBits ∧ (Nat.repeat good n l).prbsErrors = l.prbsErrors)

/-- PLL lock, the ends of training, dwell and burst, and the lane reference clock drive the TX directions (R60, R73, R75, R76, R77, R548).
While media run and the block is powered: TX_PLL_LOCK of a clocked block records the lock, starts every TX direction of the block that is
in no PRBS mode and lets the others send their pattern; SK_REFCLK_LOSS stops both directions of every lane of the block and its bonds with
it, and SK_REFCLK_RETURN brings the block up cold. TRAIN_PERIOD_END runs a lane that has trained for 1 ms; DUSK_DWELL_END ends a dwell
whose 500 ns are over, and then starts a bond that waited for it, or takes an exit decision that was held; DAWN_BURST_END runs a lane
whose burst has been sent, and sends the SR_EXIT of the head that feeds its stream. Where the time of one of these three has not come,
only the instant moves on. -/
def Obligations.LaneTransmitterFollowsItsTimers : Prop :=
  ∀ (s : State) (t : Nat),
    (∀ b : Fin 16, s.dev.mediaOn = true → s.dev.blockOn b = true →
      ((s.dev.block b).refclk = true → exec (.txPllLock t b) s = .next (s.happens t fun v =>
        (List.range 32).foldl (fun v i => if (v.lane (32 * b + i)).txPattern = 0 then v.txStart (32 * b + i)
          else (v.modTxLine (32 * b + i) fun x => { x with at_ := v.clk.now }).emit (.driver (32 * b + i) (v.lane (32 * b + i)).txEnable))
          (v.modBlock b fun x => { x with pll := true }))) ∧
      exec (.skRefclkLoss t b) s = .next (s.happens t fun v => ((List.range 32).foldl (fun v i =>
        let w := if v.sends (32 * b + i) then v.emit (.driver (32 * b + i) false) else v
        w.rxChange (32 * b + i) (w.lane (32 * b + i)).stopped)
        (v.modBlock b fun x => { x with refclk := false })).modBlock b fun x => { x with pll := false }) ∧
      exec (.skRefclkReturn t b) s = .next (s.happens t fun v => (v.modBlock b fun x => { x with refclk := true }).stopBlock b)) ∧
    (∀ n : Fin 512, let v := s.dev.arrive t
      (v.trained n = true → exec (.trainPeriodEnd t n) s = .next (s.happens t (Dev.txRun n))) ∧
      (v.trained n = false → exec (.trainPeriodEnd t n) s = .next (s.arrive t)) ∧
      (v.dwelt n = true →
        let ended (f : Dev → Dev) : State := s.happens t fun v => f (v.setLane n { s.dev.lane n with dwelling := false })
        ((s.dev.lane n).startHeld = false → (s.dev.lane n).exitHeld = false → exec (.duskDwellEnd t n) s = .next (ended fun w => w)) ∧
        ((s.dev.lane n).startHeld = false → (s.dev.lane n).exitHeld = true → exec (.duskDwellEnd t n) s = .next (ended (Dev.burstNow n))) ∧
        ((s.dev.lane n).startHeld = true → s.dev.cfg.egressAt n = none → exec (.duskDwellEnd t n) s = .next (ended fun w => w)) ∧
        (∀ e c, (s.dev.lane n).startHeld = true → s.dev.cfg.egressAt n = some (e, c) →
          exec (.duskDwellEnd t n) s = .next (ended (Dev.bondStart (s.dev.cfg.egressLanes e))))) ∧
      (v.dwelt n = false → exec (.duskDwellEnd t n) s = .next (s.arrive t)) ∧
      (v.burstDone n = true → (∀ e c h, s.dev.cfg.egressAt n = some (e, c) → (s.dev.cfg.route e).source ≠ .head h) →
        exec (.dawnBurstEnd t n) s = .next (s.happens t (Dev.txRun n))) ∧
      (∀ e c h, v.burstDone n = true → s.dev.cfg.egressAt n = some (e, c) → (s.dev.cfg.route e).source = .head h →
        exec (.dawnBurstEnd t n) s = .next ((s.happens t (Dev.txRun n)).sendSrExit (s.dev.cfg.rasterHead h) false)) ∧
      (v.burstDone n = false → exec (.dawnBurstEnd t n) s = .next (s.arrive t)))

/-- A block that a transmitter codes is the block that a receiver decodes (R52, R53, R55, R56, R57, R58, R67). For every running
disparity, block type 0 to 4, block sequence number below 16 and payload of 60 bytes, the 64 symbols of encodeBlock decode at the same
disparity, on a lane that is not inverted, to a block with a valid header, that type, that sequence number, that payload, a good CRC and
no code error; and, with every symbol inverted on the wire, to the same on an inverted lane. -/
def Obligations.BlockCodeRoundTrips : Prop :=
  ∀ (rd : Bool) (kind seq : Nat) (payload : List Byte), kind ≤ 4 → seq < 16 → payload.length = 60 →
    let ok (b : Block) : Prop := b.header = true ∧ b.kind = kind ∧ b.seq = seq ∧ b.payload = payload ∧ b.good = true ∧ b.errors = 0
    ok (decodeBlock false rd (encodeBlock rd kind seq payload)) ∧
    ok (decodeBlock true rd ((encodeBlock rd kind seq payload).map fun x => 1023 - x))

/-- An intact packet of a stream with a formed bond is counted and does what its type says (R97, R101, R102, R103, R105, R108, R109, R110,
R117, R120, R124). For every stream whose packets are parsed and every packet that lost no byte, of every type, there is a next state: the
packet's bytes leave the delivered bytes, rx_packets rises by one, the bytes of types 1 to 4 count towards the bandwidth window, and the
work of the type is done. A valid FORMAT that contradicts no held one is held, fresh for the next FRAME_START. A FRAME_START of the held
descriptor behind a fresh FORMAT opens a whole frame with its number and field. A VIDEO_LINE in order moves that frame on. A FRAME_END
that fits a whole frame completes it. CLOCK_INFO leaves the unwrapped pixel count, which is a sample of the references bound to the stream
when the packet is valid and the stream LOCKED or in SELF_REFRESH, and goes on. AUDIO, SR_ENTER and SR_EXIT do the work of their packet;
AUX of at most 8,192 bytes is forwarded, and a longer one is malformed; IDLE does nothing more; a packet of a reserved type counts as
unknown. -/
def Obligations.PacketsOfAStreamAreTaken : Prop :=
  ∀ (s : State) (t : Nat) (n : Fin 512) (p : Packet), s.dev.parses n = true → p.lost = false →
    let begun : State := s.happens t fun v =>
      (v.modIs n (IngressSt.take (4 + p.payload.length))).modIs n fun x => { x with rxPackets := x.rxPackets + 1 }
    let took (type : Nat) (a : State) : State :=
      (if type ≤ 4 then a.onDev (Dev.modIs n fun x => { x with exBytes := x.exBytes + 4 + p.payload.length }) else a).onDev (Dev.settle n)
    (begun.dev.is n).rxPackets = (s.dev.is n).rxPackets + 1 ∧
    exec (.format t n p) s = .next (took 1 (formatIn n p.payload begun)) ∧
    exec (.frameStart t n p) s = .next (took 2 (frameStartIn n p.payload begun)) ∧
    exec (.videoLine t n p) s = .next (took 3 (videoLineIn n p.payload begun)) ∧
    exec (.frameEnd t n p) s = .next (took 4 (frameEndIn n p.payload begun)) ∧
    exec (.audio t n p) s = .next (took 5 (audioIn n p.payload begun)) ∧
    exec (.clockInfo t n p) s = .next (took 6 (clockInfoIn n p.payload begun)) ∧
    (p.payload.length ≤ 8192 → exec (.aux t n p) s = .next (took 7 (begun.forward n 7 p.payload))) ∧
    (8192 < p.payload.length → exec (.aux t n p) s = .next (took 7 (begun.onDev (Dev.malformedPacket n 7)))) ∧
    exec (.srEnter t n p) s = .next (took 8 (srEnterIn n p.payload begun)) ∧
    exec (.srExit t n p) s = .next (took 9 (srExitIn n p.payload begun)) ∧
    exec (.idle t n p) s = .next (took 15 begun) ∧
    (∀ ptype, exec (.reservedTypePacket t n ptype p) s =
      .next (took (ptype + 16) (begun.onDev (Dev.isCount n fun x => { x with unknown := satInc x.unknown })))) ∧
    ∀ (u : State) (q : List Byte),
      let x := u.dev.is n
      (∀ c, smFind n u.dev.cfg.ingress = some c → x.state ≠ .mismatch → accepts c (readDesc q 0) = true →
        (((u.dev.holdFormat n (readDesc q 0)).is n).held = some (readDesc q 0) ∧ ((u.dev.holdFormat n (readDesc q 0)).is n).fresh = true ∧
          ((u.dev.holdFormat n (readDesc q 0)).is n).accepted = true)) ∧
      (∀ c d, smFind n u.dev.cfg.ingress = some c → c.rateTolPpm = 0 → q.length = 12 → fieldU q 10 1 ≤ 2 → x.state = .search → x.frame = none → x.fresh = true →
        x.held = some d → d.descriptorId = fieldU q 9 1 → ∃ f, ((frameStartIn n q u).dev.is n).frame = some f ∧ f.frameNumber = fieldU q 0 4 ∧
          f.meter.desc = d ∧ f.meter.field = fieldU q 10 1 ∧ f.flags = fieldU q 11 1 ∧ f.whole = true ∧ f.discard = false) ∧
      (∀ f, x.frame = some f → f.discard = false → lineValid f.meter.desc f.meter.field q = true → f.meter.inOrder (fieldU q 0 2) (fieldU q 2 2) = true →
        x.state = .search → f.surface = none →
          videoLineIn n q u = u.onDev (Dev.modIs n fun y => { y with frame := some { f with meter := (f.meter.add q).1 } })) ∧
      (∀ f, x.frame = some f → f.discard = false → q.length = 20 → x.state = .search → f.whole = true → fieldU q 0 4 = f.frameNumber →
        fieldU q 16 2 = f.meter.lines → f.meter.lines = f.meter.desc.frameLines →
          ∃ w, w = u.onDev (Dev.completeFrame n f (readFrameEnd q)) ∧
            frameEndIn n q u = w.onDev (Dev.modIs n fun y => { y with endX := some w.dev.clk.now, lastEndX := some w.dev.clk.now })) ∧
      (q.length = 12 →
        let count := match (if bit (fieldU q 11 1) 1 then none else x.pixelCount) with
          | some c => c.1 + (fieldU q 0 6 + 2 ^ 48 - c.1 % 2 ^ 48) % 2 ^ 48
          | none => fieldU q 0 6
        ∃ (v : Dev) (at_ : Nat), (v.is n).pixelCount = some (count, at_) ∧ clockInfoIn n q u = State.forward n 6 q (u.onDev fun _ =>
          if bit (fieldU q 11 1) 0 = true ∧ (x.state = .locked ∨ x.state = .selfRefresh) then v.lrcSample n at_ count (bit (fieldU q 11 1) 1) else v))

/-- A packet that lost a byte counts as damaged and does not do the work of its type (R117, R120). A packet with lost bytes of any type
counts in damaged; a FORMAT, FRAME_START, VIDEO_LINE or FRAME_END leaves the frame in progress incomplete, and a FORMAT leaves no fresh
FORMAT before the next FRAME_START; rx_packets and the work of the type are left out. A packet on a stream whose packets are not parsed
does nothing. -/
def Obligations.DamagedPacketsAreCounted : Prop :=
  ∀ (s : State) (t : Nat) (n : Fin 512) (p : Packet) (ptype : Nat),
    let types : List (Nat × Instr) := [(1, .format t n p), (2, .frameStart t n p), (3, .videoLine t n p), (4, .frameEnd t n p), (5, .audio t n p),
      (6, .clockInfo t n p), (7, .aux t n p), (8, .srEnter t n p), (9, .srExit t n p), (15, .idle t n p),
      (ptype + 16, .reservedTypePacket t n ptype p)]
    let len := p.payload.length
    (s.dev.parses n = true → p.lost = true → ∀ x ∈ types, exec x.2 s = .next (s.happens t fun v =>
      let v := v.modIs n fun y => y.take (4 + len)
      let v := v.isCount n fun y => { y with damaged := satInc y.damaged }
      let v := if x.1 = 1 then v.modIs n fun y => { y with fresh := false } else v
      (if x.1 ≤ 4 then (v.breakFrame n).modIs n fun y => { y with exBytes := y.exBytes + 4 + len } else v).settle n)) ∧
    (s.dev.parses n = false → ∀ x ∈ types, exec x.2 s = .next (s.arrive t))

/-- R117 decides what a malformed packet and one out of order do (R117, R120). What the work of a packet type is where R117 has a row for
it: a FRAME_START, FRAME_END, SR_ENTER, SR_EXIT or CLOCK_INFO of a wrong length or field is malformed; a VIDEO_LINE that is well formed or
FRAME_END with no frame in progress, and a VIDEO_LINE out of order, is an order error; the packets of a frame that is discarded do
nothing. A malformed packet raises only its counter among those of R120 and, of type 1, 2 or 3, leaves the frame in progress incomplete;
an order error raises only its counter. No other stream, and neither the configuration nor frame memory, changes. -/
def Obligations.MisplacedPacketsAreCounted : Prop :=
  ∀ (s : State) (n : Nat) (p : List Byte),
    let bad (k : Nat) : State := s.onDev (Dev.malformedPacket n k)
    (p.length ≠ 12 ∨ 2 < fieldU p 10 1 → frameStartIn n p s = bad 2) ∧
    (p.length ≠ 20 → frameEndIn n p s = bad 4) ∧
    (p.length ≠ 12 → clockInfoIn n p s = bad 6 ∧ srExitIn n p s = bad 9) ∧
    (p.length ≠ 12 ∨ 1 < fieldU p 9 1 → srEnterIn n p s = bad 8) ∧
    ((s.dev.is n).frame = none → (strayLineValid (s.dev.is n).held p = true → videoLineIn n p s = s.onDev (Dev.orderError n)) ∧
      (strayLineValid (s.dev.is n).held p = false → videoLineIn n p s = bad 3) ∧ (p.length = 20 → frameEndIn n p s = s.onDev (Dev.orderError n))) ∧
    (∀ f, (s.dev.is n).frame = some f →
      (f.discard = true → videoLineIn n p s = s) ∧
      (f.discard = false → lineValid f.meter.desc f.meter.field p = false → videoLineIn n p s = bad 3) ∧
      (f.discard = false → lineValid f.meter.desc f.meter.field p = true → f.meter.inOrder (fieldU p 0 2) (fieldU p 2 2) = false →
        videoLineIn n p s = s.onDev fun v => (v.orderError n).breakFrame n)) ∧
    (∀ (v : Dev) (k m : Nat),
      let w := v.malformedPacket n k
      let u := v.orderError n
      (w.is n).malformed = satInc (v.is n).malformed ∧ (u.is n).orderErrs = satInc (v.is n).orderErrs ∧
      ((w.is n).headerErrs, (w.is n).damaged, (w.is n).unknown, (w.is n).orderErrs) = ((v.is n).headerErrs, (v.is n).damaged, (v.is n).unknown, (v.is n).orderErrs) ∧
      ((u.is n).headerErrs, (u.is n).damaged, (u.is n).unknown, (u.is n).malformed) = ((v.is n).headerErrs, (v.is n).damaged, (v.is n).unknown, (v.is n).malformed) ∧
      (m ≠ n → w.is m = v.is m ∧ u.is m = v.is m) ∧ w.cfg = v.cfg ∧ u.cfg = v.cfg)

/-- Two complete frames in a row lock a stream, and self-refresh suspends it (R132, R124). A stream in SEARCH whose FORMAT is accepted
stays in SEARCH at the first complete frame and is LOCKED at the next, when the period check of R137 is switched off; a good SR_ENTER
takes a LOCKED stream to SELF_REFRESH, and a good SR_EXIT takes it back to LOCKED; in any other state either packet leaves only its
timestamp behind (R116). -/
def Obligations.StreamsLockAndRefresh : Prop :=
  (∀ (n : Nat) (f : FrameRx) (e : FrameEnd) (v : Dev) (c : IngressCfg), smFind n v.cfg.ingress = some c → c.rateTolPpm = 0 →
    (v.is n).state = .search → (v.is n).accepted = true →
    ((v.completeFrame n f e).is n).goodFrames = (v.is n).goodFrames + 1 ∧
    ((v.completeFrame n f e).is n).state = if 1 ≤ (v.is n).goodFrames then .locked else .search) ∧
  (∀ (n : Nat) (p : List Byte) (s : State), p.length = 12 →
    (fieldU p 9 1 ≤ 1 → (s.dev.is n).state = .locked → ((srEnterIn n p s).dev.is n).state = .selfRefresh) ∧
    (fieldU p 9 1 ≤ 1 → (s.dev.is n).state ≠ .locked → srEnterIn n p s = s.onDev (Dev.srTs n (fieldU p 4 5))) ∧
    ((s.dev.is n).state = .selfRefresh → ((srExitIn n p s).dev.is n).state = .locked) ∧
    ((s.dev.is n).state ≠ .selfRefresh → srExitIn n p s = s.onDev (Dev.srTs n (fieldU p 4 5))))

/-- A packet hunt resumes delivery at a confirmed boundary, the stream timers end the lock, and a take goes live at its window (R118,
R132, R138, R148, R150). On a stream whose packets are parsed: PACKET_HUNT counts the header error or the damaged packet and the resync,
leaves the frame in progress incomplete and drops the bytes up to the boundary found; EXCESS_WINDOW ends the bandwidth window.
FRAME_START_TIMEOUT takes a LOCKED stream that is 2.5 periods late to SEARCH. Elsewhere they only move the instant on. While media run,
TAKE_WINDOW makes the takes due on its egress stream live at the window that the predictions give, and TAKE_NOT_EXECUTED, at the instant
when no window is left, drops the oldest one due, with outcome 2; before that, and where no take waits, each only moves the instant on. -/
def Obligations.StreamTimersTheHuntAndTakesRun : Prop :=
  ∀ (s : State) (t : Nat) (n : Fin 512),
    (s.dev.parses n = true → (∀ cause run, exec (.packetHunt t n cause run) s = .next (s.happens t fun v => (v.hunt n cause run).settle n)) ∧
      exec (.excessWindow t n) s = .next (s.happens t fun v => (v.excessEnd n).settle n)) ∧
    (s.dev.parses n = false → (∀ cause run, exec (.packetHunt t n cause run) s = .next (s.arrive t)) ∧ exec (.excessWindow t n) s = .next (s.arrive t)) ∧
    (s.dev.mediaOn = true → (s.arrive t).dev.startLate n = true →
      exec (.frameStartTimeout t n) s = .next (s.happens t fun v => (v.isLose n .search 0 0).settle n)) ∧
    ((s.arrive t).dev.startLate n = false → exec (.frameStartTimeout t n) s = .next (s.arrive t)) ∧
    (s.dev.mediaOn = true →
      (∀ d, s.dev.takeT n = some d → (d ≤ t → exec (.takeWindow t n) s = .next (s.happens d (Dev.takeNow n))) ∧
        (t < d → exec (.takeWindow t n) s = .next (s.arrive t))) ∧
      (∀ d, s.dev.takeLostT n = some d →
        (d ≤ t → (s.dev.arrive d).takeLost n = true → exec (.takeNotExecuted t n) s = .next (s.happens d (Dev.takeFails n))) ∧
        (d ≤ t → (s.dev.arrive d).takeLost n = false → exec (.takeNotExecuted t n) s = .next (s.arrive d)) ∧
        (t < d → exec (.takeNotExecuted t n) s = .next (s.arrive t)))) ∧
    (s.dev.takeT n = none → exec (.takeWindow t n) s = .next (s.arrive t)) ∧ (s.dev.takeLostT n = none → exec (.takeNotExecuted t n) s = .next (s.arrive t)) ∧
    (∀ (v : Dev) (k : Commit) (r : List Commit), v.due (.take n) = k :: r → ((v.takeFails n).es n).outcome = 2 ∧ ((v.takeFails n).es n).takeTime = (v.takeFails n).nowU)

/-- A head runs through its Midnight point, decision, active start, lines and frame end (R253, R254, R255, R256, R259, R260, R262, R270,
R276). On a head with a timing that is no odd head of a pair, while media run, each happening acts at its raster instant and before it
only moves the instant on. MIDNIGHT_POINT ends the field in progress, which counts it, starts the next blanking at that instant and makes
what is due live. FRAME_START_DECISION decides a VARIABLE head's front porch when its gated layers are ready or the porch is the longest,
with a timeout counted there when they are not, and otherwise goes on to the next porch; on any other head with a decision due the layers
select. ACTIVE_START opens the field at its pixel count and sends its start, but nothing in self-refresh. HEAD_FRAME_END sends FRAME_END,
that of the odd head of a pair included, and then the SR_ENTER, each only where it is due. LINE_START, of every head, moves to the next
line, raises EV.HEAD.LINE at its line and sends a line of the picture. On a head without a timing they only move the instant on. Each is a
next state. -/
def Obligations.HeadHappeningsRun : Prop :=
  ∀ (s : State) (t : Nat) (h : Fin 256), s.dev.mediaOn = true →
    let idle (i : Instr) : Prop := exec i s = .next (s.arrive t)
    (∀ c, (s.dev.cfg.head h).timing = some c →
      (s.dev.cfg.pairOdd h = false →
        (∀ d, s.dev.midnightDue h c = some d → (t < d → idle (.midnightPoint t h)) ∧
          (d ≤ t → exec (.midnightPoint t h) s = .next ((s.happens d (Dev.midnight h)).sendSrExit h false))) ∧
        (s.dev.midnightDue h c = none → idle (.midnightPoint t h)) ∧
        (let d := s.dev.clk.instantOf (s.dev.decisionQ h (if c.mode = 1 then (s.dev.head h).candL else (s.dev.head h).vFpNext) c)
         (s.dev.head h).selDue = true → (t < d → idle (.frameStartDecision t h)) ∧
          (d ≤ t → c.mode = 1 → exec (.frameStartDecision t h) s = .next ((s.happens d (Dev.decide_ h c)).sendSrExit h false)) ∧
          (d ≤ t → c.mode ≠ 1 → exec (.frameStartDecision t h) s = .next (s.happens d fun v =>
            (v.modHead h fun x => { x with selDue := false }).selectGroup h (v.decisionQ h (v.head h).vFpNext c)))) ∧
        ((s.dev.head h).selDue = false → idle (.frameStartDecision t h)) ∧
        (∀ d, s.dev.activeDue h c = some d → (t < coreUp d → idle (.activeStart t h)) ∧
          (coreUp d ≤ t → exec (.activeStart t h) s = .next ((s.arrive (coreUp d)).activeStart h c))) ∧
        (s.dev.activeDue h c = none → idle (.activeStart t h))) ∧
      (∀ line missing,
        let r := s.dev.cfg.rasterHead h
        let raster := ((s.dev.cfg.head r).timing).getD c
        let d := s.dev.rasterT r raster (raster.lineAt line (s.dev.head r))
        (raster.lineOpen line (s.dev.head h).nextLine (s.dev.head r) = false → idle (.lineStart t h line missing)) ∧
        (raster.lineOpen line (s.dev.head h).nextLine (s.dev.head r) = true → (t < d → idle (.lineStart t h line missing)) ∧
          (d ≤ t → 
            let u := s.happens d fun v => (v.modHead h fun x => { x with nextLine := line + 1 }).raiseIf
              (c.eventLine == line && c.eventLine != 65535) (srcHead h 1) line
            exec (.lineStart t h line missing) s = .next
              (if (s.dev.head r).sending = true ∧ line < c.va then u.sendLine h line c missing else u))))) ∧
    (s.dev.cfg.pairOdd h = false →
      let d := coreUp ((s.dev.head h).midnightT + 6 * usQ)
      let odd := (h : Nat) % 2 = 0 ∧ (s.dev.cfg.pairOdd (h + 1) = true ∨ (s.dev.cfg.head (h + 1)).timing = none)
      (t < d → idle (.headFrameEnd t h)) ∧
      (d ≤ t → odd → exec (.headFrameEnd t h) s = .next ((((s.arrive d).sendEnd h).sendEnd (h + 1)).sendSrEnter h)) ∧
      (d ≤ t → ¬ odd → exec (.headFrameEnd t h) s = .next (((s.arrive d).sendEnd h).sendSrEnter h))) ∧
    ((s.dev.cfg.head h).timing = none → idle (.midnightPoint t h) ∧ idle (.activeStart t h) ∧ idle (.frameStartDecision t h) ∧
      ∀ line missing, idle (.lineStart t h line missing)) ∧
    (∀ (v : Dev) (c : TimingCfg), let x := v.head h
      (let w := v.fieldEnds h c
       (w.head h).rasterFrames = (if x.fieldOpen then x.rasterFrames + 1 else x.rasterFrames) ∧ (w.head h).fieldOpen = false ∧ (w.head h).sending = false ∧
        (w.head h).startQ = none ∧ (smGet ({} : EvSrc) (srcHead h 0) w.ev.srcs).lastDetail = (w.head h).rasterFrames.toNat % 2 ^ 32) ∧
      (let q := v.decisionQ h x.candL c
       let ready := v.allGatedReady (v.cfg.headGroup h) q
       (ready = false → x.candL < c.vFpMax → v.decide_ h c = v.modHead h fun x => { x with candL := x.candL + 1 }) ∧
       (ready = true → v.decide_ h c =
         (v.modHead h fun y => { y with vFpNext := x.candL, decided := true, timedOut := false, selDue := false }).selectGroup h q) ∧
       (ready = false → c.vFpMax ≤ x.candL → v.decide_ h c = ((v.cfg.headGroup h).foldl (fun v k =>
           (v.modHead k fun y => { y with timeouts := satInc y.timeouts }).raise (srcHead k 3) (2 * 2 ^ 32))
         (v.modHead h fun y => { y with vFpNext := x.candL, decided := true, timedOut := true, selDue := false })).selectGroup h q)) ∧
      (let w := v.rasterStart h c
       (w.head h).fieldOpen = true ∧ (w.head h).activeN = x.midnightN + c.porchLines x * c.hTotal ∧ (w.head h).vFpLast = x.vFpNext ∧ (w.head h).nextLine = 0 ∧
        (w.head h).linesSent = 0)) ∧
    (∀ (u : State) (c : TimingCfg), (u.dev.head h).inSr = true → (u.dev.head h).selDue = false → u.activeStart h c = u.onDev (Dev.rasterStart h c)) ∧
    (∀ u : State, ((u.dev.head h).endDue = false → u.sendEnd h = u) ∧ ((u.dev.head h).srDue = false → u.sendSrEnter h = u))

/-- CLOCK_INFO carries the pixel count, the timestamp and the restart flag of its head (R108, R123, R252, R272). On an egress stream fed
by a head with a timing, while media run, CLOCK_INFO_SEND sends a packet of type 6 when a whole millisecond of device time has passed
since the stream's last one, 100 us have passed since it was sent, the raster runs, and the stream may carry it and its lanes run: the
head's pixel count at that millisecond in whole pixels, the ts40 of that millisecond, and flags with bit 0 set, and bit 1 set when the
count has restarted since the head's last CLOCK_INFO; the streams of one head carry the same packet. Otherwise, and on a stream with
another source, nothing is sent and only the instant moves on. -/
def Obligations.ClockInfoIsSent : Prop :=
  ∀ (s : State) (t : Nat) (e : Fin 512), s.dev.mediaOn = true →
    let a := s.arrive t
    let x := s.dev.es e
    let ms := a.dev.nowQ / msQ
    (∀ h c, (s.dev.cfg.route e).source = .head h → (s.dev.cfg.head (s.dev.cfg.rasterHead h)).timing = some c →
      let r := s.dev.cfg.rasterHead h
      let hs := s.dev.head r
      let opens := ms ≠ x.clockMs ∧ (∀ b, x.clockT = some b → b + 100 * usQ ≤ a.dev.clk.now) ∧ hs.startQ = none ∧ a.dev.headOpen r e = true ∧ a.dev.txFlows e = true
      let sent (f : Dev → Dev) (p : List Byte) : State :=
        ((a.onDev f).onDev (Dev.modEs e fun x => { x with clockT := some a.dev.clk.now, clockMs := ms })).toEgress e 6 p
      let n := hs.pixelsAt c ((s.dev.tc c.tc).phaseAt (a.dev.clk.instantOf (ms * msQ)))
      let p (flags : Nat) : List Byte := toBE 6 (n % 2 ^ 48) ++ toBE 5 (ts40OfQ (ms * msQ)) ++ toBE 1 flags
      (opens → (∀ m q, hs.clockInfo = some (m, q) → m ≠ ms) →
        exec (.clockInfoSend t e) s = .next (sent (Dev.setHead r { hs with clockInfo := some (ms, p (if hs.restarted then 3 else 1)), restarted := false })
          (p (if hs.restarted then 3 else 1)))) ∧
      (∀ q, opens → hs.clockInfo = some (ms, q) → exec (.clockInfoSend t e) s = .next (sent (fun v => v) q)) ∧
      (¬ opens → exec (.clockInfoSend t e) s = .next a)) ∧
    ((∀ h, (s.dev.cfg.route e).source ≠ .head h) → exec (.clockInfoSend t e) s = .next a)

/-- Audio windows, boundaries, measurements and transitions act on their egress channel (R282, R287, R290, R298, R300, R303, R304). While
media run, each of these acts at its instant and before it only moves the instant on. AUDIO_WINDOW of a stream with a running sample clock
builds the packets of the next window, which ends at a multiple of 500 us of device time after the last one built; AUDIO_BOUNDARY makes
what is due on the channel live at the first sample whose T - O is not before E, or on the stream at the first window that starts at or
after E, the windows before it built first; AUDIO_RATE_MEASUREMENT measures a resolved channel under AUTO a second after the last;
SRC_REACQUIRED of a resolved channel ends the acquisition; AUDIO_SWITCH_POINT switches the channel at the T_sw of its stream's take;
TRANSITION_END ends the transition; AUDIO_ABSENCE, 2 ms after P of the last sample of the group, makes its eight channels absent and drops
its format. Where there is nothing to act on, only the instant moves on. Each is a next state. -/
def Obligations.AudioHappeningsRun : Prop :=
  ∀ (s : State) (t : Nat) (e : Fin 512) (k : Fin 32), s.dev.mediaOn = true →
    let ch : Nat := 32 * (e : Nat) + k
    let at_ (i : Instr) (d : Nat) (u : State) : Prop := (t < d → exec i s = .next (s.arrive t)) ∧ (d ≤ t → exec i s = .next u)
    let idle (i : Instr) : Prop := exec i s = .next (s.arrive t)
    (let hi := s.dev.windowEnd e
     let d := s.dev.clk.instantOf hi
     ((s.dev.es e).audioOn = true → at_ (.audioWindow t e) d ((s.arrive d).audioWindow e hi)) ∧ ((s.dev.es e).audioOn = false → idle (.audioWindow t e)) ∧
      hi % (500 * usQ) = 0 ∧ s.dev.clk.devQ (s.dev.es e).audioT < hi ∧ hi ≤ s.dev.clk.devQ (s.dev.es e).audioT + 500 * usQ) ∧
    (∀ q, s.dev.channelT ch = some q → let d := s.dev.clk.instantOf (q - s.dev.presQ e).toNat
      at_ (.audioBoundary t e (some k)) d (s.happens d (Dev.channelBoundary ch q))) ∧
    (s.dev.channelT ch = none → idle (.audioBoundary t e (some k))) ∧
    (∀ q, s.dev.firstDue [.audioStream e] = some q → let d := s.dev.clk.instantOf (ceilDiv q (500 * usQ) * (500 * usQ))
      (d ≤ t → exec (.audioBoundary t e none) s = .next (((s.audioTo e d ((d - s.dev.clk.now) / (500 * usQ) + 4)).arrive d).onDev (Dev.streamBoundary e))) ∧
      (t < d → exec (.audioBoundary t e none) s = .next ((s.audioTo e t ((t - s.dev.clk.now) / (500 * usQ) + 4)).arrive t))) ∧
    (s.dev.firstDue [.audioStream e] = none → idle (.audioBoundary t e none)) ∧
    (∀ a x, smFind ch s.dev.cfg.audio = some a → a.sourceKind ≠ 2 → a.conversion = 0 → (s.dev.ec ch).resolved = some x →
      at_ (.audioRateMeasurement t e k) ((s.dev.ec ch).measT + secQ) (s.happens ((s.dev.ec ch).measT + secQ) (Dev.measureRate ch))) ∧
    ((s.dev.ec ch).resolved = none ∨ smFind ch s.dev.cfg.audio = none ∨ (∃ a, smFind ch s.dev.cfg.audio = some a ∧ (a.sourceKind = 2 ∨ a.conversion ≠ 0)) →
      idle (.audioRateMeasurement t e k)) ∧
    exec (.srcReacquired t e k) s = .next (s.happens t fun v => v.modEc ch fun c => { c with acquired := c.resolved.isSome || c.acquired }) ∧
    (∀ q, (s.dev.es e).switchQ = some q → let d := s.dev.clk.instantOf (q - s.dev.presQ e).toNat
      at_ (.audioSwitchPoint t e k) d (s.happens d (Dev.audioSwitch ch))) ∧
    ((s.dev.es e).switchQ = none → idle (.audioSwitchPoint t e k)) ∧
    exec (.transitionEnd t e k) s = .next (s.happens t fun v => v.transitionEnd ch (v.nextSampleT ch)) ∧
    (∀ g : Fin 4,
      let gone : Dev → Dev := fun v => (List.range 8).foldl (fun v i => v.xcAbsent (32 * (e : Nat) + 8 * g + i)) (v.modIs e fun x => { x with groups := smErase g x.groups })
      (∀ q, s.dev.groupEnd e g = some q → let d := s.dev.clk.instantOf (q + (2 * msQ : Nat)).toNat
        at_ (.audioAbsence t e g) d (s.happens d gone)) ∧
      (s.dev.groupEnd e g = none → idle (.audioAbsence t e g)) ∧
      ∀ (v : Dev), ∀ i < 8, ((gone v).xchan (32 * (e : Nat) + 8 * g + i)).absent = true ∧ ((gone v).xchan (32 * (e : Nat) + 8 * g + i)).absences =
        if (v.xchan (32 * (e : Nat) + 8 * g + i)).absent then (v.xchan (32 * (e : Nat) + 8 * g + i)).absences
        else satInc (v.xchan (32 * (e : Nat) + 8 * g + i)).absences)

/-- A rate measurement tells how long an automatic channel has been good, and a transition ends only when it is whole (R298, R304). A
measurement of a resolved channel under AUTO records where its source and its sample clock stand, keeps the last 10 such marks that the
next can go on from, takes the offset over the span from the oldest of them, and holds the instant since which the offset has been at most
0.05 ppm with the source present, or none when it is not. A channel of 10 s of it with equal rates is on the TRANSPARENT path.
TRANSITION_END on a channel with no transition, or with one of which samples are still to be sent, changes nothing. -/
def Obligations.AudioRateDecidesThePath : Prop :=
  (∀ (ch : Nat) (q : Int) (v : Dev), ((v.ec ch).trans = none → v.transitionEnd ch q = v) ∧ (∀ tr, (v.ec ch).trans = some tr → tr.done < tr.total → v.transitionEnd ch q = v)) ∧
  (∀ (a : AudioChCfg) (x : Xc) (rate width : Nat) (held : Bool), a.conversion = 0 →
    (pathFor a x rate width held = 2 ↔ x.rateCode = rate ∧ (x.nonPcm = true → x.width = width) ∧ held = true)) ∧
  (∀ (ch x : Nat) (v : Dev), v.mediaOn = true → (v.ec ch).resolved = some x →
    let c := v.ec ch
    let k := v.groupClk (ch / 32) (ch % 32 / 8)
    let here : RateMark := { dev := v.nowQ, tc := k.tc, phase := (v.tc k.tc).phaseAt v.clk.now, count := (v.xchan x).count, pos := (v.xchan x).lastP.getD 0 }
    let old := c.marks.filter (·.follows here)
    let w := (v.measureRate ch).ec ch
    w.marks = (old ++ [here]).drop (old.length + 1 - 10) ∧ w.measT = v.clk.now ∧
    (∀ m r, old = m :: r → let o := rateOffsetOf (rateHz (v.xchan x).rateCode) k.freq m here
      w.rateOffset = o ∧ w.goodSince = if (v.xchan x).absent = false ∧ 20 * o.natAbs ≤ 65536 then some (c.goodSince.getD v.clk.now) else none) ∧
    (old = [] → w.rateOffset = c.rateOffset ∧ w.goodSince = none))

/-- REF.CONFIG, REF.SELECT, REF.ACCEPT and REF.REALIGN do what R309, R320, R335 and R336 say (R309, R320, R328, R335, R336). Admitted with
good fields: REF.CONFIG that conflicts with nothing sets the reference's record, and one that conflicts is refused and changes nothing;
REF.SELECT set takes effect at once, or is stored while the channel switches; its read replies with the record; REF.ACCEPT acts on its
channel; REF.REALIGN of a TRACKING channel starts the slew of its build-out to 0, and of any other is ST_BAD_PARAM. -/
def Obligations.ReferenceCommandsRun : Prop :=
  ∀ (s : State) (t : Nat) (d : Datagram),
    (s.Admits refConfigRow d → refBad (s.begun refConfigRow t d).dev d.params = none →
      let c := readRefCfg d.params 0
      (refConflict (s.begun refConfigRow t d).dev c = none → exec (.refConfig t d) s = .next (s.served refConfigRow t d (Dev.setRefCfg c) fun _ => .ok [])) ∧
      (∀ f, refConflict (s.begun refConfigRow t d).dev c = some f → exec (.refConfig t d) s = .next (s.served refConfigRow t d (fun v => v) fun _ => .fail f))) ∧
    (s.Admits refSelectSetRow d → selectBad (refSelectSetRow.apply d).params = none →
      let c := readSelectCfg (refSelectSetRow.apply d).params 0
      exec (.refSelectSet t d) s = .next (s.served refSelectSetRow t d (fun v =>
        if (v.tc c.tc).state = .switching then v.putTc c.tc { v.tc c.tc with stored := some c }
        else (v.putTc c.tc { (v.tc c.tc).rebase v.clk.now with sel := c }).decideTc c.tc) fun _ => .ok [])) ∧
    (let p := (refSelectReadRow.apply d).params
     s.Admits refSelectReadRow d → fieldU p 0 1 ≤ 7 → fieldU p 22 2 = 0 → fieldU p 28 4 = 0 →
      exec (.refSelectRead t d) s = .next (s.served refSelectReadRow t d (fun v => v) fun v => .ok (selectRecord (fieldU p 0 1) v))) ∧
    (s.Admits refAcceptRow d → fieldU d.params 0 1 ≤ 7 → fieldU d.params 1 1 ≤ 1 → fieldU d.params 2 2 = 0 →
      exec (.refAccept t d) s = .next (s.served refAcceptRow t d (Dev.accept (fieldU d.params 0 1) (fieldU d.params 1 1)) fun _ => .ok [])) ∧
    (s.Admits refRealignRow d → fieldU d.params 0 1 ≤ 7 → fieldU d.params 1 3 = 0 →
      let k := fieldU d.params 0 1
      (∀ r, (s.dev.tc k).state = .tracking → (s.dev.tc k).active = some r → exec (.refRealign t d) s = .next (s.served refRealignRow t d (fun v =>
        let x := (v.tc k).rebase v.clk.now
        v.putTc k { ({ x with buildOut := v.reducedDelta r x.buildOut } : TcSt).slew v.clk.now 0 with realign := true }) fun _ => .ok [])) ∧
      ((s.dev.tc k).state ≠ .tracking → exec (.refRealign t d) s = .next (s.served refRealignRow t d (fun v => v) fun _ => .fail (badField 0))))

/-- TC.CONFIG, CLK.CONFIG, CLK.TPIN and CLK.CALIBRATE do what R341 to R358 say (R341, R342, R348, R349, R352, R358, R541). Admitted with
good fields: TC.CONFIG set that keeps the frequency replaces the record, and one that changes it is refused while the channel is owned and
otherwise unlocks it; CLK.CONFIG set and CLK.TPIN set claim the output or pin for the tag of the datagram and set its record, and are
refused when another tag owns it, and CLK.CONFIG set for a clock above what its drive allows; a release frees it; each read replies with
its record and changes nothing; CLK.CALIBRATE measures the output paths, records the temperature and raises its event. -/
def Obligations.ClockChannelCommandsRun : Prop :=
  ∀ (s : State) (t : Nat) (d : Datagram),
    (let p := (tcConfigSetRow.apply d).params
     let c := readTcCfg p 0
     s.Admits tcConfigSetRow d → firstBad tcCfgFields p = none →
      (c.setFreqHz = (s.dev.tc c.tc).cfg.setFreqHz → exec (.tcConfigSet t d) s =
        .next (s.served tcConfigSetRow t d (fun v => v.putTc c.tc { v.tc c.tc with cfg := c }) fun _ => .ok [])) ∧
      (c.setFreqHz ≠ (s.dev.tc c.tc).cfg.setFreqHz → (s.begun tcConfigSetRow t d).dev.tcOwner c.tc = none → exec (.tcConfigSet t d) s =
        .next (s.served tcConfigSetRow t d (fun v => (v.putTc c.tc { (v.tc c.tc).rebase v.clk.now with cfg := c, lockBase := none, lockLast := none }).setLocked c.tc false) fun _ => .ok [])) ∧
      (∀ f, c.setFreqHz ≠ (s.dev.tc c.tc).cfg.setFreqHz → (s.begun tcConfigSetRow t d).dev.tcOwner c.tc = some f →
        exec (.tcConfigSet t d) s = .next (s.served tcConfigSetRow t d (fun v => v) fun _ => .fail f))) ∧
    (let p := (tcConfigReadRow.apply d).params
     s.Admits tcConfigReadRow d → fieldU p 0 1 ≤ 7 → fieldU p 2 2 = 0 → (∀ i ∈ [4, 8, 12, 16, 20, 24, 28], fieldU p i 4 = 0) →
      exec (.tcConfigRead t d) s = .next (s.served tcConfigReadRow t d (fun v => v) fun v =>
        .ok (writeTcCfg { (v.tc (fieldU p 0 1)).cfg.inForce with tc := fieldU p 0 1, op := 1 }))) ∧
    (let p := (clkConfigSetRow.apply d).params
     let c := readCkoCfg p 0
     s.Admits clkConfigSetRow d → ckoBad p = none →
      let fast := (s.dev.tc c.tc).cfg.setFreqHz > driveMax c.drive * c.divider
      (¬ fast → (s.dev.cko c.cko).owner = none ∨ (s.dev.cko c.cko).owner = some d.leaseTag → exec (.clkConfigSet t d) s = .next (s.served clkConfigSetRow t d
        (fun v => v.modCko c.cko fun x => x.configure v.clk.now d.leaseTag c (v.tc x.cfg.tc)) fun _ => .ok [])) ∧
      (∀ (x : CkoSt) u tag c (k : TcSt), (x.configure u tag c k).owner = some tag ∧ (x.configure u tag c k).cfg = c) ∧
      (fast → exec (.clkConfigSet t d) s = .next (s.served clkConfigSetRow t d (fun v => v) fun _ => .fail (badField 4))) ∧
      (∀ o, ¬ fast → (s.dev.cko c.cko).owner = some o → o ≠ d.leaseTag →
        exec (.clkConfigSet t d) s = .next (s.served clkConfigSetRow t d (fun v => v) fun _ => .fail (busyWith 16 o)))) ∧
    (∀ n, n < 64 →
      (s.Admits clkConfigReadRow d → fieldU (clkConfigReadRow.apply d).params 0 1 = n → fieldU (clkConfigReadRow.apply d).params 15 1 = 0 →
        fieldU (clkConfigReadRow.apply d).params 20 4 = 0 →
        exec (.clkConfigRead t d) s = .next (s.served clkConfigReadRow t d (fun v => v) fun v => .ok (writeCkoCfg { (v.cko n).cfg with cko := n, op := 1 }))) ∧
      (s.Admits clkConfigReleaseRow d → fieldU (clkConfigReleaseRow.apply d).params 0 1 = n → fieldU (clkConfigReleaseRow.apply d).params 15 1 = 0 →
        fieldU (clkConfigReleaseRow.apply d).params 20 4 = 0 →
        exec (.clkConfigRelease t d) s = .next (s.served clkConfigReleaseRow t d (fun v => v.modCko n fun x => { tail := x.tailAt v.clk.now (v.tc x.cfg.tc) }) fun _ => .ok []))) ∧
    (let p := (clkTpinSetRow.apply d).params
     let c := readTpinCfg p 0
     s.Admits clkTpinSetRow d → tpinBad p = none → (c.role = 1 ∨ tpinHeld c.tpin (s.begun clkTpinSetRow t d).dev = none) →
      (s.dev.tpin c.tpin).owner = none ∨ (s.dev.tpin c.tpin).owner = some d.leaseTag →
      exec (.clkTpinSet t d) s = .next (s.served clkTpinSetRow t d (Dev.setTpin c.tpin { owner := some d.leaseTag, cfg := c }) fun _ => .ok [])) ∧
    (∀ n, n < 16 →
      (s.Admits clkTpinReadRow d → fieldU (clkTpinReadRow.apply d).params 0 1 = n → fieldU (clkTpinReadRow.apply d).params 4 4 = 0 →
        exec (.clkTpinRead t d) s = .next (s.served clkTpinReadRow t d (fun v => v) fun v => .ok (writeTpinCfg { (v.tpin n).cfg with tpin := n, op := 1 }))) ∧
      (s.Admits clkTpinReleaseRow d → fieldU (clkTpinReleaseRow.apply d).params 0 1 = n → fieldU (clkTpinReleaseRow.apply d).params 4 4 = 0 →
        tpinHeld n (s.begun clkTpinReleaseRow t d).dev = none →
        exec (.clkTpinRelease t d) s = .next (s.served clkTpinReleaseRow t d (Dev.setTpin n {}) fun _ => .ok []))) ∧
    (s.Admits clkCalibrateRow d → fieldU d.params 0 4 = 0 → exec (.clkCalibrate t d) s = .next (s.served clkCalibrateRow t d
      (fun v => { v with clk := v.clk.calibrateOutputs false, pow := { v.pow with calTemp := v.junctionQ } }.raise evCalibration 1) fun _ => .ok []))

/-- FP.CONFIG, FP.REALIGN, TIME.CONFIG and TIME.SET do what R353 to R363 say (R349, R353, R355, R359, R363). Admitted with good fields:
FP.CONFIG set claims the output and configures it, read replies with its record, and release frees it and keeps its pulse count;
FP.REALIGN at least 1 ms ahead holds T for each output named, all in mode 1 and owned by the tag, and names those whose pending time it
replaced; TIME.CONFIG sets device time's record; TIME.SET NEXT_PULSE under PPS labels the next pulse, and STEP under FREE schedules a step
at the first epoch boundary at least 2 ms later. -/
def Obligations.FramePulseAndTimeCommandsRun : Prop :=
  ∀ (s : State) (t : Nat) (d : Datagram),
    (let p := (fpConfigSetRow.apply d).params
     let c := readFpoCfg p 0
     s.Admits fpConfigSetRow d → fpoBad (s.begun fpConfigSetRow t d).dev p = none →
      ((s.dev.fpo c.fpo).owner = none ∨ (s.dev.fpo c.fpo).owner = some d.leaseTag →
        exec (.fpConfigSet t d) s = .next (s.served fpConfigSetRow t d (fun v => v.modFpo c.fpo (FpoSt.configure d.leaseTag (v.tc (v.fpo c.fpo).cfg.tc) c)) fun _ => .ok [])) ∧
      (∀ o, (s.dev.fpo c.fpo).owner = some o → o ≠ d.leaseTag →
        exec (.fpConfigSet t d) s = .next (s.served fpConfigSetRow t d (fun v => v) fun _ => .fail (busyWith 16 o)))) ∧
    (∀ n, n < 32 →
      (s.Admits fpConfigReadRow d → fieldU (fpConfigReadRow.apply d).params 0 1 = n → fieldU (fpConfigReadRow.apply d).params 26 2 = 0 →
        exec (.fpConfigRead t d) s = .next (s.served fpConfigReadRow t d (fun v => v) fun v => .ok (writeFpoCfg { (v.fpo n).cfg with fpo := n, op := 1 }))) ∧
      (s.Admits fpConfigReleaseRow d → fieldU (fpConfigReleaseRow.apply d).params 0 1 = n → fieldU (fpConfigReleaseRow.apply d).params 26 2 = 0 →
        exec (.fpConfigRelease t d) s = .next (s.served fpConfigReleaseRow t d
          (fun v => v.modFpo n fun x => { pulses := x.pulses, lastPulseU := x.lastPulseU }) fun _ => .ok []))) ∧
    (let p := d.params
     let named := (List.range 32).filter fun n => (fieldU p 0 4).testBit n
     s.Admits fpRealignRow d → (∀ n ∈ named, (s.dev.fpo n).cfg.mode = 1 ∧ (s.dev.fpo n).owner = some d.leaseTag) →
      fieldU p 10 4 ≤ 999999999 → fieldU p 16 4 = 0 →
      (msU + (s.arrive t).dev.nowU ≤ fieldT p 4 → exec (.fpRealign t d) s = .next (s.served fpRealignRow t d
        (fun v => named.foldl (fun v n => v.modFpo n fun x => { x with pendingU := some (fieldT p 4) }) v)
        fun v => .ok (toBE 4 (named.map fun n => if (v.fpo n).pendingU.isSome then 2 ^ n else 0).sum))) ∧
      (fieldT p 4 < msU + (s.arrive t).dev.nowU →
        exec (.fpRealign t d) s = .next (s.served fpRealignRow t d (fun v => v) fun _ => .fail (plainFail .late)))) ∧
    (s.Admits timeConfigRow d → timeBad (s.begun timeConfigRow t d).dev d.params = none →
      exec (.timeConfig t d) s = .next (s.served timeConfigRow t d (Dev.setTime (readTimeCfg d.params 0)) fun _ => .ok [])) ∧
    (let p := (timeSetNextPulseRow.apply d).params
     s.Admits timeSetNextPulseRow d → fieldU p 1 1 = 0 → s.dev.clk.cfg.source = 2 → fieldU p 10 6 = 0 →
      exec (.timeSetNextPulse t d) s = .next (s.served timeSetNextPulseRow t d (fun v =>
        { v with clk := { v.clk with utcOffset := fieldS p 2 2, nextPulse := some (10 * msQ + v.clk.now, fieldU p 4 6) } }) fun _ => .ok [])) ∧
    (let p := (timeSetStepRow.apply d).params
     s.Admits timeSetStepRow d → fieldU p 1 1 = 0 → fieldU p 10 4 ≤ 999999999 → s.dev.clk.cfg.source = 0 →
      exec (.timeSetStep t d) s = .next (s.served timeSetStepRow t d (fun v =>
        { v with clk := { v.clk with utcOffset := fieldS p 2 2 } }.scheduleStep v.stepBoundary ((qOfU (fieldT p 4) : Int) - v.stepBoundary)) fun _ => .ok []))

/-- Activity, gates, qualification, phase samples and handover drive the references and their channels (R313, R315, R317, R322, R325,
R327, R329, R332, R362). While media run, each of these acts at its instant and before it only moves the instant on: loss of activity when
no sample has come for as long as the type allows; the end of a gate; a qualification timer that has run out on a QUALIFYING reference; a
wait to restore that has passed; the handover of a switch at the sample that ends its measurement; and the end of a slew. Activity that
returns, and a phase sample of a pin reference, act at once. A reference that leaves QUALIFIED while it disciplines device time puts
device time into holdover. With CORE.T running, a history bin is recorded each second, outside FREERUN, and the store is written each
hour. Where there is nothing to act on, only the instant moves on. -/
def Obligations.ReferencesFollowTheirInputs : Prop :=
  ∀ (s : State) (t : Nat) (r : Fin 41) (k : Fin 8), s.dev.mediaOn = true →
    let x := s.dev.ref r
    let c := s.dev.tc k
    let at_ (i : Instr) (d : Nat) (f : Dev → Dev) : Prop := (t < d → exec i s = .next (s.arrive t)) ∧ (d ≤ t → exec i s = .next (s.happens d f))
    let idle (i : Instr) : Prop := exec i s = .next (s.arrive t)
    at_ (.refActivityLoss t r) (x.lastT + s.dev.activityQ r) (Dev.loseActivity r) ∧
    (∀ v : Dev, (v.ref r).state ≠ .disabled → (v.ref r).state ≠ .noActivity →
      let w := (v.setRef r { v.ref r with activityLosses := satInc (v.ref r).activityLosses, fresh := true, candidate := none, samples := [], gateLost := true, lastT := v.clk.now }).refState
        r .noActivity
      v.loseActivity r = if (v.ref r).state = .qualified ∧ w.clk.cfg.source = 2 ∧ w.clk.cfg.ppsRef = r then w.timeHoldover else w) ∧
    at_ (.refGateEnd t r) (x.gateT + s.dev.gateLenQ r) (fun v => let w := v.gateEnd r
      if x.state = .qualified ∧ (w.ref r).state ≠ .qualified ∧ w.clk.cfg.source = 2 ∧ w.clk.cfg.ppsRef = r then w.timeHoldover else w) ∧
    (x.state = .noActivity → s.dev.refLive r = true → exec (.refActivityReturn t r) s = .next (s.happens t fun v =>
      (v.modRef r fun y => { y with fresh := true, candidate := none, samples := [], lastT := v.clk.now }).refState r .outOfRange)) ∧
    (x.state ≠ .noActivity ∨ s.dev.refLive r = false → idle (.refActivityReturn t r)) ∧
    (∀ w, x.qualSince = some w → s.dev.coreUp .t = true →
      (x.state = .qualifying → at_ (.qualificationTimer t r) (w + msQ * x.qualTime) (fun v => v.refState r .qualified)) ∧
      (x.state ≠ .qualifying → at_ (.qualificationTimer t r) (w + msQ * x.qualTime) (fun v => v))) ∧
    (x.qualSince = none → idle (.qualificationTimer t r)) ∧
    (∀ w, smFind r c.wtr = some w → at_ (.waitToRestoreExpiry t k r) (w + secQ * c.sel.wtrS) (Dev.decideTc k)) ∧
    (smFind r c.wtr = none → idle (.waitToRestoreExpiry t k r)) ∧
    (∀ n, (r.val < 32 → exec (.refPhaseSample t r n) s = .next (s.happens t (Dev.pinSample r n))) ∧ (32 ≤ r.val → idle (.refPhaseSample t r n))) ∧
    (∀ q, c.closeT = some q → at_ (.handover t k) q (Dev.handover k)) ∧ (c.closeT = none → idle (.handover t k)) ∧
    (let q := c.slewT + ceilDiv ((c.slewTo - c.buildOut).natAbs * 1000 * secQ) (max 1 (c.sel.slewPsPerS * 65536))
     (c.following = true → at_ (.slewEnd t k) q (Dev.stopSlew k)) ∧ (c.following = false → at_ (.slewEnd t k) q (fun v => v))) ∧
    (s.dev.coreUp .t = true →
      at_ (.storedFrequency t) (s.dev.clk.freqT + 3600 * secQ) (fun v => Dev.storeFreqs { v with clk := { v.clk with freqT := v.clk.now } }) ∧
      at_ (.historyBin t k) (s.dev.clk.instantOf (c.binQ + secQ)) (fun v =>
        let y := c.rebase v.clk.now
        let mean := ppmOf (y.phase - c.binPhase) (2048 * (v.clk.now - c.binT) * c.cfg.setFreqHz * ppmOne)
        let z := { y with binQ := v.nowQ, binT := v.clk.now, binPhase := y.phase, binOk := c.steady }
        v.setTc k (if c.state = .freerun then z else { z with bins := ((v.clk.now, c.binOk && c.steady, mean) :: c.bins).take 4200 })))

/-- Three good gates in a row lock a timing channel, and two bad ones unlock it (R345, R346). While media run, LOCK_GATE of a channel with
an active reference ends the gate in progress when the gate length of that reference's type has passed and begins the next; on a channel
that is neither TRACKING nor bridging a switch it does nothing more. A gate with a result records it, counts the gates in a row within the
limit (10 ppb by default) and those beyond four times it, and the channel becomes locked when it is not and the third good gate comes, and
loses lock when it is locked and the second bad one comes. -/
def Obligations.TimingChannelLocks : Prop :=
  (∀ (s : State) (t : Nat) (k : Fin 8), s.dev.mediaOn = true →
    (∀ r, (s.dev.tc k).active = some r → let d := (s.dev.tc k).lockT + s.dev.gateLenQ r
      (t < d → exec (.lockGate t k) s = .next (s.arrive t)) ∧ (d ≤ t → exec (.lockGate t k) s = .next (s.happens d (Dev.lockGate k)))) ∧
    ((s.dev.tc k).active = none → exec (.lockGate t k) s = .next (s.arrive t))) ∧
  (∀ (k : Nat) (v : Dev),
    let x := v.tc k
    let z : TcSt := { x with lockT := v.clk.now, lockBase := x.lockLast }
    (x.state ≠ .tracking → (x.state = .switching → x.bridging = false) → v.lockGate k = v) ∧
    (x.state = .tracking ∨ x.state = .switching ∧ x.bridging = true → v.lockOffset k = none → v.lockGate k = v.setTc k z) ∧
    (∀ o, x.state = .tracking ∨ x.state = .switching ∧ x.bridging = true → v.lockOffset k = some o →
      let lim := if x.cfg.lockLimitPpb = 0 then 10 else x.cfg.lockLimitPpb
      let good := if o.natAbs * 1000 ≤ lim * 65536 then x.lockGood + 1 else 0
      let bad := if o.natAbs * 1000 ≤ 4 * lim * 65536 then 0 else x.lockBad + 1
      let w := v.setTc k { z with lockOffset := o, lockGood := good, lockBad := bad }
      (x.locked = false → 3 ≤ good → v.lockGate k = w.setLocked k true) ∧ (x.locked = false → good < 3 → v.lockGate k = w) ∧
      (x.locked = true → 2 ≤ bad → v.lockGate k = w.setLocked k false) ∧ (x.locked = true → bad < 2 → v.lockGate k = w)))

/-- Epochs load the rate, PTP disciplines the servo, and frame pulses come on their grid (R29, R31, R32, R313, R354, R355, R360, R362).
While media run: EPOCH_BOUNDARY acts where device time is a multiple of 1,024 ns, loads the rate adjustment and applies a step that is
due, and takes the boundary of a scheduled step too when that has come; with CORE.T running REPLICA_RECALIBRATION runs every 10 s and
steps no device time; REALIGNMENT acts at the earliest T that is held, and one output due there places its pulse 0, starts its grid and
raises one event; FRAME_PULSE on a running grid gives the next pulse unless it is suppressed, and an output without a grid gives none.
PTP_MESSAGE while CORE.C runs: one of another domain is ignored, an Announce of a better time transmitter is followed, a Sync of the one
followed is measured and answered by a path-delay request, and a peer delay request of this domain is answered under the peer delay
mechanism. PTP_SYNC_TIMEOUT, four Sync intervals after the last Sync, leaves the time-receiver state, loses the activity of VREF_PTP and
puts device time under PTP into holdover. Before their instant these only move the instant on. -/
def Obligations.DeviceTimeRuns : Prop :=
  ∀ (s : State) (t : Nat), s.dev.mediaOn = true →
    let at_ (i : Instr) (d : Nat) (f : Dev → Dev) : Prop := (t < d → exec i s = .next (s.arrive t)) ∧ (d ≤ t → exec i s = .next (s.happens d f))
    let c := s.dev.clk.cfg
    (let q := s.dev.nextEpochQ
     let d := s.dev.clk.instantOf q
     let u := if t < d then s.arrive t else s.happens d Dev.epochStarts
     q % (1024 * 4000) = 0 ∧ s.dev.clk.epoch * (1024 * 4000) < q ∧
     ((∀ b x, u.dev.clk.step = some (b, x) → u.dev.nowQ < b → t < u.dev.clk.instantOf b) → exec (.epochBoundary t) s = .next u) ∧
     (∀ b x, u.dev.clk.step = some (b, x) → u.dev.nowQ < b → u.dev.clk.instantOf b ≤ t →
      exec (.epochBoundary t) s = .next (u.happens (u.dev.clk.instantOf b) Dev.epochStarts))) ∧
    (∀ v : Dev, v.mediaOn = true → let w := Dev.applyStep { v with clk := { v.clk.rebase with rate := v.clk.rateAdj } }
      v.epochStarts = { w with clk := { w.clk with epoch := w.nowQ / (1024 * 4000) } }) ∧
    (s.dev.coreUp .t = true → at_ (.replicaRecalibration t) (s.dev.clk.calT + 10 * secQ) Dev.recalibrate) ∧
    (∀ v : Dev, v.recalibrate.nowQ = v.nowQ ∧ v.recalibrate.clk.calibrations = v.clk.calibrations + 1 ∧ v.recalibrate.clk.calT = v.clk.now) ∧
    (s.dev.realignQ = none → exec (.realignment t) s = .next (s.arrive t)) ∧
    (∀ q, s.dev.realignQ = some q → at_ (.realignment t) (s.dev.clk.instantOf q) Dev.realign) ∧
    (∀ (v : Dev) n x u, v.mediaOn = true → (v.fpos.filter fun e => e.2.pendingU.any fun w => decide (qOfU w ≤ v.nowQ)) = [(n, x)] → x.pendingU = some u →
      v.realign = ((v.modFpo n fun y => { y with pendingU := none, gridP := some ((v.tc (v.fpo n).cfg.tc).phaseAt v.clk.now), nextK := 0 }).pulse n).raise evFpRealign (2 ^ n)) ∧
    (∀ n : Fin 32, let x := s.dev.fpo n
      (x.pulseT (s.dev.tc x.cfg.tc) x.nextK = none → exec (.framePulse t n) s = .next (s.arrive t)) ∧
      (∀ q, x.pulseT (s.dev.tc x.cfg.tc) x.nextK = some q → (t < q → exec (.framePulse t n) s = .next (s.arrive t)) ∧
        (q ≤ t → x.suppressed (s.arrive q).dev.clk.now (s.arrive q).dev.nowU = false → exec (.framePulse t n) s = .next (s.happens q (Dev.pulse n))) ∧
        (q ≤ t → x.suppressed (s.arrive q).dev.clk.now (s.arrive q).dev.nowU = true → exec (.framePulse t n) s = .next (s.happens q fun v =>
          v.setFpo n { x with nextK := x.nextK + 1 })))) ∧
    (s.dev.alive = true → s.dev.pow.phase ≠ .booting →
      at_ (.ptpSyncTimeout t) (s.dev.clk.syncT + 4 * s.dev.clk.syncGap) (fun v => let w := (v.setPtp 0 0).loseActivity 32
        if w.clk.cfg.source = 1 then w.timeHoldover else w) ∧
      (s.dev.coreUp .c = true →
      (∀ dom rank id utc two gap x, dom ≠ c.ptpDomain → exec (.ptpMessage t (.announce dom rank id utc)) s = .next (s.arrive t) ∧
        exec (.ptpMessage t (.sync dom id two gap x)) s = .next (s.arrive t) ∧ exec (.ptpMessage t (.followUp dom id x)) s = .next (s.arrive t)) ∧
      (∀ rank id utc, id ≠ 0 → s.dev.clk.ptpReceiver = false ∨ id = s.dev.clk.txClockId ∨ rank < s.dev.clk.ptpBest →
        exec (.ptpMessage t (.announce c.ptpDomain rank id utc)) s = .next (s.happens t fun v =>
          { v.setPtp id rank with clk := { (v.setPtp id rank).clk with utcPtp := utc } })) ∧
      (c.ptpDelay = 1 → exec (.ptpMessage t (.pdelayReq c.ptpDomain)) s = .next (s.happens t fun v => v.emit (.ptp 2))) ∧
      (∀ gap x, s.dev.clk.ptpReceiver = true →
        exec (.ptpMessage t (.sync c.ptpDomain s.dev.clk.txClockId false gap x)) s = .next (s.happens t fun v =>
          (Dev.ptpOffset x { v with clk := { v.clk with syncT := v.clk.now, syncGap := gap } }).emit (.ptp (if c.ptpDelay = 1 then 1 else 0))))))

/-- The reads of layers, events, the log and the ledger reply with what the state holds, and change nothing else (R209, R229, R232, R453,
R455, R457). Admitted with good fields: LAYER.LUT and LAYER.COEFF reads and LAYER.SCALER op 1 reply with the slot's tables, and op 2 also
zeroes short_buffer_frames; EVENT.POLL replies with the sources whose last occurrence is at or above the number asked for; EVENT.LOG and
EVENT.LEDGER reply with their entries from the sequence asked for, in order, and count those lost. -/
def Obligations.ReadCommandsRun : Prop :=
  ∀ (s : State) (t : Nat) (d : Datagram),
    let same : Dev → Dev := fun v => v
    (let p := (layerLutReadRow.apply d).params
     s.Admits layerLutReadRow d → fieldU p 0 2 ≤ 1023 → fieldU p 2 1 ≤ 2 → 1 ≤ fieldU p 4 1 → fieldU p 4 1 ≤ 7 → fieldU p 5 3 = 0 →
      exec (.layerLutRead t d) s = .next (s.served layerLutReadRow t d same fun v =>
        .ok (p ++ (List.range 1025).flatMap fun i => toBE 4 (lutRead (v.cfg.slot (fieldU p 0 2)) (fieldU p 2 1) (fieldU p 4 1) i)))) ∧
    (let p := (layerCoeffReadRow.apply d).params
     s.Admits layerCoeffReadRow d → fieldU p 0 2 ≤ 1023 → fieldU p 2 1 ≤ 1 → 1 ≤ fieldU p 4 1 → fieldU p 4 1 ≤ 5 → fieldU p 5 3 = 0 →
      exec (.layerCoeffRead t d) s = .next (s.served layerCoeffReadRow t d same fun v =>
        .ok (p ++ (coeffRead (v.cfg.slot (fieldU p 0 2)) (fieldU p 2 1) (fieldU p 4 1)).flatMap (toBEs 2)))) ∧
    (let p := (layerScalerReadRow.apply d).params
     s.Admits layerScalerReadRow d → scalerReadBad p = none →
      exec (.layerScalerRead t d) s = .next (s.served layerScalerReadRow t d same fun v => .ok (scalerRecord (fieldU p 0 2) 1 v))) ∧
    (let p := (layerScalerReadClearRow.apply d).params
     s.Admits layerScalerReadClearRow d → scalerReadBad p = none →
      exec (.layerScalerReadClear t d) s = .next (s.served layerScalerReadClearRow t d (fun v => v.modLayer (fieldU p 0 2) fun l => { l with shortFrames := 0 })
        fun v => .ok (scalerRecord (fieldU p 0 2) 2 v))) ∧
    (let p := d.params
     s.Admits (eventRow 0x1101) d → 1 ≤ fieldU p 0 8 → fieldU p 8 2 ≤ 4863 → fieldU p 10 2 ≤ 208 → fieldU p 12 4 = 0 →
      let ch := s.dev.ev.srcs.filter fun x => decide (fieldU p 0 8 ≤ x.2.lastOcc)
      let above := ch.filter fun x => decide (fieldU p 8 2 ≤ x.1)
      let det := above.take (fieldU p 10 2)
      exec (.eventPoll t d) s = .next (s.served (eventRow 0x1101) t d same fun v =>
        .done .ok (toBE 8 v.ev.nextOcc ++ timeBytes v.nowU ++ toBE 2 det.length ++ zeros 2 ++ sourceMap (ch.map (·.1)) ++ det.flatMap sourceRecord)
          (decide (det.length < above.length)))) ∧
    (let p := d.params
     s.Admits (eventRow 0x1102) d → 1 ≤ fieldU p 8 2 → fieldU p 8 2 ≤ 279 → fieldU p 10 6 = 0 →
      let e := s.dev.ev
      let out := (e.log.filter fun x => decide (fieldU p 0 8 ≤ x.seq)).take (fieldU p 8 2)
      exec (.eventLog t d) s = .next (s.served (eventRow 0x1102) t d same fun _ => .ok (toBE 8 (e.logNext - e.log.length) ++ toBE 8 e.logNext ++
        toBE 8 e.suppressed.toNat ++ toBE 4 (min (e.logNext - e.log.length - fieldU p 0 8) 0xFFFFFFFF) ++ toBE 2 out.length ++ zeros 2 ++ out.flatMap logRecord))) ∧
    (let p := d.params
     s.Admits (eventRow 0x1103) d → firstBad eventLedgerFields p = none →
      let e := s.dev.ev
      let keep (x : LedgerEntry) : Bool := !bit (fieldU p 10 1) 0 || x.generation == BitVec.ofNat 32 (fieldU p 12 4)
      let res := examine keep (fieldU p 8 2) 16384 (max (fieldU p 0 8) e.ledgerOldest) (e.ledger.filter fun x => decide (fieldU p 0 8 ≤ x.seq))
      exec (.eventLedger t d) s = .next (s.served (eventRow 0x1103) t d same fun _ => .ok (toBE 8 e.ledgerOldest ++ toBE 8 e.ledgerNext ++ toBE 8 res.2 ++
        toBE 4 (min (e.ledgerOldest - fieldU p 0 8) 0xFFFFFFFF) ++ toBE 2 res.1.length ++ zeros 2 ++ res.1.flatMap ledgerRecord)))

/-- PROBE.CONFIG, PROBE.FREEZE and BULK.READ do what R459, R461 and R433 say (R433, R459, R461). Admitted with good fields: PROBE.CONFIG
holds its record for the next frame start while PD29 is on, and is refused while it is off; PROBE.FREEZE arms the freeze when nothing
prevents it, and a cancel disarms one that is armed, unless it names a stream inside a bond. BULK.READ of frame memory through a port that
is on, with ETHDMA not draining and no failing beat, and of the other spaces, replies with the bytes; the first failing beat is answered
ST_MEM_ERROR with its address. -/
def Obligations.ProbesAndBulkReadsRun : Prop :=
  ∀ (s : State) (t : Nat) (d : Datagram),
    let p := d.params
    (s.Admits probeConfigRow d → firstBad probeCfgFields p = none →
      let c := readProbeCfg p 0
      (s.begun probeConfigRow t d).dev.streamInside c.direction c.stream 0 = none →
        (s.dev.domainOff 29 = false → exec (.probeConfig t d) s = .next (s.served probeConfigRow t d
          (fun v => v.modProbe (probeNo c.direction c.stream) fun x => { x with next := some c }) fun _ => .ok [])) ∧
        (s.dev.domainOff 29 = true → exec (.probeConfig t d) s = .next (s.served probeConfigRow t d (fun v => v) fun _ => .fail (busyAt 0 0 0)))) ∧
    (s.Admits (probeFreezeRow []) d → firstBad freezeCfgFields p = none → (readFreezeCfg p 0).trigger ≠ 0 →
      (s.begun (probeFreezeRow []) t d).dev.armBad (readFreezeCfg p 0) = none →
      exec (.probeFreezeArm t d) s = .next (s.served (probeFreezeRow []) t d (Dev.armFreeze (readFreezeCfg p 0)) fun _ => .ok [])) ∧
    (let r := probeFreezeRow [(3, 0)]
     s.Admits r d → firstBad freezeCfgFields (r.apply d).params = none →
      let c := readFreezeCfg (r.apply d).params 0
      ((s.begun r t d).dev.streamInside c.direction c.stream 0 = none → exec (.probeFreezeCancel t d) s = .next (s.served r t d
        (fun v => if v.freeze.state = 1 then { v with freeze := { v.freeze with state := 0, writing := false } } else v) fun _ => .ok [])) ∧
      (∀ f, (s.begun r t d).dev.streamInside c.direction c.stream 0 = some f →
        exec (.probeFreezeCancel t d) s = .next (s.served r t d (fun v => v) fun _ => .fail f))) ∧
    (s.Admits bulkReadRow d → bulkBad false p = none → (s.dev.master 50).draining = false →
      let k := fieldU p 0 1
      let n := fieldU p 4 4
      let a := fieldU p 8 8
      let b := s.begun bulkReadRow t d
      (k ≠ 0 → exec (.bulkRead t d) s = .next (s.served bulkReadRow t d (fun v => v) fun _ => .ok (b.bulkGet k a n))) ∧
      (k = 0 → b.dev.offPort a n = none →
        (b.dev.badBeat a n = none → a + n ≤ region3 →
          exec (.bulkRead t d) s = .next (s.served bulkReadRow t d (Dev.access 50 a n) fun _ => .ok (b.bulkGet 0 a n))) ∧
        (b.dev.badBeat a n = none → region3 < a + n →
          exec (.bulkRead t d) s = .next (s.served bulkReadRow t d (fun v => { v.access 50 a n with draws := (v.access 50 a n).draws + n })
            fun _ => .ok (b.bulkGet 0 a n))) ∧
        (∀ x, b.dev.badBeat a n = some x → exec (.bulkRead t d) s = .next (s.served bulkReadRow t d (fun v => (v.access 50 a n).eccError true x)
          fun _ => .fail { status := .memError, kind := 19, index := x }))) ∧
      (∀ q, k = 0 → b.dev.offPort a n = some q → exec (.bulkRead t d) s = .next (s.served bulkReadRow t d (fun v => v) fun _ => .fail (busyWith 10 q))))

/-- FW commands install, activate, confirm and revert as R477 to R482 say (R477, R478, R480, R482, R485). Admitted with good fields:
FW.STATUS replies with its record; FW.INSTALL MANIFEST that verifies becomes the pending manifest, and IMAGE that is accepted and verifies
is written to its slot, marked by what reads back (a free value); one that does not verify is ST_BAD_IMAGE; FW.ACTIVATE of a pending
bundle with every image installed starts its first component; FW.CONFIRM of the component on trial records the host's confirmation;
FW.REVERT of a bundle that can revert starts the reversion with cause 4, or answers ST_OK while one runs (the model's reading, log entry
48). -/
def Obligations.FirmwareCommandsRun : Prop :=
  ∀ (s : State) (t : Nat) (d : Datagram),
    (s.Admits fwStatusRow d → exec (.fwStatus t d) s = .next (s.served fwStatusRow t d (fun v => v) fun v => .ok (fwRecord v))) ∧
    (let p := ((fwInstallRow 0).apply d).params
     s.Admits (fwInstallRow 0) d → fwInstallBad p = none →
      let x := s.dev.fw.stage 0 (fieldU p 4 4)
      exec (.fwInstallManifest t d) s = .next (if s.dev.fw.manifestOk x = true
        then s.served (fwInstallRow 0) t d (Dev.onFw fun f => { f with pending := some (readManifest x) }) fun _ => .ok []
        else s.served (fwInstallRow 0) t d (fun v => v) fun _ => .fail (plainFail .badImage))) ∧
    (let p := ((fwInstallRow 1).apply d).params
     s.Admits (fwInstallRow 1) d → fwInstallBad p = none →
      let x := s.dev.fw.stage 0 (fieldU p 4 4)
      let good := Config.flashReadBack s.dev.draws
      exec (.fwInstallImage t d) s = .next (if (s.dev.fw.accepts x && s.dev.fw.imageOk x) = true
        then s.served (fwInstallRow 1) t d (fun v => { v.onFw (FwSt.writeImage good x) with draws := v.draws + 1 })
          fun _ => if good then .ok [] else .fail (plainFail .badImage)
        else s.served (fwInstallRow 1) t d (fun v => v) fun _ => .fail (plainFail .badImage))) ∧
    (s.Admits fwActivateRow d → fieldU d.params 0 1 ≤ 1 → fieldU d.params 1 3 = 0 →
      (∀ m, s.dev.fw.pending = some m → (∀ e ∈ m.entries, e.installed = true) →
        exec (.fwActivate t d) s = .next (s.served fwActivateRow t d (fun v => Dev.activateEntry (v.withState fun v => v.onFw fun f =>
          { f with bundle := .activating, pending := none, current := some m, bundleId := m.bundleId, index := 0
                   needHost := bit m.flags 1 || fieldU d.params 0 1 == 1 || s.dev.settings.live.hostConfirm })) fun _ => .ok [])) ∧
      (s.dev.fw.pending = none →
        exec (.fwActivate t d) s = .next (s.served fwActivateRow t d (fun v => v) fun _ => .fail { status := .badParam, check := 1 }))) ∧
    (s.Admits fwConfirmRow d → fieldU d.params 0 1 ≤ 5 → fieldU d.params 1 3 = 0 →
      (s.dev.fw.trialComp = some (fieldU d.params 0 1) → exec (.fwConfirm t d) s = .next (s.served fwConfirmRow t d
        (fun v => (v.onFw fun f => { f with hostOk := true }).checkTrial) fun _ => .ok [])) ∧
      (s.dev.fw.trialComp ≠ some (fieldU d.params 0 1) → exec (.fwConfirm t d) s = .next (s.served fwConfirmRow t d (fun v => v) fun _ => .fail (badField 0)))) ∧
    (s.Admits fwRevertRow d →
      (s.dev.fw.canRevert = true → s.dev.fw.reverting = [] → exec (.fwRevert t d) s = .next (s.served fwRevertRow t d (Dev.revertBundle 4) fun _ => .ok [])) ∧
      (s.dev.fw.canRevert = true → s.dev.fw.reverting ≠ [] → exec (.fwRevert t d) s = .next (s.served fwRevertRow t d (fun v => v) fun _ => .ok [])) ∧
      (s.dev.fw.canRevert = false →
        exec (.fwRevert t d) s = .next (s.served fwRevertRow t d (fun v => v) fun _ => .fail { status := .badParam, check := 1 })))

/-- Watchdogs, confirmations, trial ends and core restarts run as R42 and R479 to R481 say (R42, R479, R480, R481). While the device is
alive: WATCHDOG_RESET restarts its core, CORE.C in sleep too; TRIAL_TIMEOUT reverts the bundle with cause 2 when the trial has run its
length, and only then; SELF_CONFIRMATION of the component on trial, when it is healthy, is recorded; QUEUE_WAIT_END with every queued
commit armed, or at the latest after 1 s, saves the queue and stops CORE.M; CORE_RESTART_COMPLETE of a core that is down brings it back,
at the latest at the end of the time R42 gives it (2 s for CORE.M: the model's reading, log entry 30). Otherwise each only moves the
instant on. -/
def Obligations.TrialsAndRestartsRun : Prop :=
  ∀ (s : State) (t : Nat), s.dev.alive = true →
    let a := s.arrive t
    (∀ k : Fin 3, s.dev.mediaOn = true ∨ k.val = 0 → exec (.watchdogReset t k) s = .next (s.happens t (Dev.watchdog k))) ∧
    (let due := s.dev.fw.trialSince + secQ * s.dev.fw.trialLen
     (s.dev.fw.onTrial = true → due ≤ t → exec (.trialTimeout t) s = .next (s.happens due (Dev.revertBundle 2))) ∧
     (s.dev.fw.onTrial = false ∨ t < due → exec (.trialTimeout t) s = .next a)) ∧
    (∀ c : Fin 6,
      (s.dev.fw.trialComp = some c.val → a.dev.healthy c = true → exec (.selfConfirmation t c) s = .next (s.happens t fun v =>
        (v.onFw fun f => f.modComp c fun x => { x with selfConfirmed := true }).checkTrial)) ∧
      (s.dev.fw.trialComp ≠ some c.val ∨ a.dev.healthy c = false → exec (.selfConfirmation t c) s = .next a)) ∧
    (∀ w, s.dev.fw.queueWait = some w →
      let u := min t (secQ + w)
      ((s.arrive u).dev.allArmed = true ∨ secQ + w ≤ (s.arrive u).dev.clk.now → exec (.queueWaitEnd t) s =
        .next (s.happens u fun v => (v.onFw fun f => { f with queueWait := none }).saveQueue.stopCore 2)) ∧
      ((s.arrive u).dev.allArmed = false → (s.arrive u).dev.clk.now < secQ + w → exec (.queueWaitEnd t) s = .next (s.arrive u))) ∧
    (s.dev.fw.queueWait = none → exec (.queueWaitEnd t) s = .next a) ∧
    (∀ k : Fin 3, ∀ e, s.dev.pow.coreDown.contains k.val = true → smFind k.val s.dev.pow.downT = some e →
      let last := e + (if k.val = 0 then 500 * msQ else if k.val = 1 then 200 * msQ else 2 * secQ)
      ∃ u, exec (.coreRestartComplete t k) s = .next u ∧
      u = (let a := (s.arrive (min t last)).onDev fun v => v.onPow fun p => { p with coreDown := p.coreDown.filter (· != k.val) }
        let b := a.onDev fun v => if k.val = 0 then v.coreCBack else if !v.mediaOn then v else if k.val = 1 then v.coreTBack else v.coreMBack
        let c := b.onDev (Dev.afterRestart (k.val + 1))
        if c.dev.coreUp .c then c.drainQueue.resume else c)) ∧
    (∀ k : Fin 3, s.dev.pow.coreDown.contains k.val = false → exec (.coreRestartComplete t k) s = .next a)

/-- SET commands read and change the settings, and the store is written as R489 says (R489, R490, R492, R494). Admitted with good fields:
SET.STATUS and SET.READ reply with the record and the bytes; SET.WRITE of the boot section with values R492 allows changes it and makes
the store pending, and others are ST_BAD_PARAM; a profile write likewise; SET.PRESET_SAVE stores the operations of the open transaction
under its number, or erases it when there are none, within the pool; SET.PRESET_LOAD admits the preset's operations at once or at its E.
SETTINGS_WRITE_START starts the write that is pending when 10 s have passed since the change and the last write, and only then;
SETTINGS_WRITE_COMPLETE of a write that runs ends it and answers what waited for it, at the latest 200 ms after its start. -/
def Obligations.SettingsCommandsRun : Prop :=
  ∀ (s : State) (t : Nat) (d : Datagram),
    let p := d.params
    let x := s.dev.settings.live
    (s.Admits setStatusRow d → exec (.setStatus t d) s = .next (s.served setStatusRow t d (fun v => v) fun v => .ok (setRecord v))) ∧
    (s.Admits setReadRow d → setBad false p = none → exec (.setRead t d) s = .next (s.served setReadRow t d (fun v => v)
      fun v => .ok (sliceB (v.settings.live.bytes (fieldU p 0 1)) (fieldU p 4 4) (fieldU p 8 4)))) ∧
    (s.Admits setWriteRow d → setBad true p = none → fieldU p 0 1 = 1 →
      (∀ m, profileWrite x (fieldU p 4 4) (p.drop 12) = .ok m →
        exec (.setWrite t d) s = .next (s.served setWriteRow t d (Dev.changeSettings fun y => { y with profile := m }) fun _ => .ok [])) ∧
      (∀ o, profileWrite x (fieldU p 4 4) (p.drop 12) = .error o → exec (.setWrite t d) s = .next (s.served setWriteRow t d (fun v => v) fun _ => .fail (badField o)))) ∧
    (s.Admits setWriteRow d → setBad true p = none → fieldU p 0 1 ≠ 1 →
      let b := splice x.bootBytes (fieldU p 4 4) (p.drop 12)
      (bootOkBytes b = true → exec (.setWrite t d) s = .next (s.served setWriteRow t d
        (Dev.changeSettings fun y => { y with bootPreset := fieldU b 0 2, hostConfirm := fieldU b 2 1 == 1 }) fun _ => .ok [])) ∧
      (bootOkBytes b = false → exec (.setWrite t d) s = .next (s.served setWriteRow t d (fun v => v) fun _ => .fail (badField 12)))) ∧
    (∀ tx, s.Admits setPresetSaveRow d → fieldU p 0 2 ≤ 1023 → fieldU p 2 6 = 0 → s.dev.daond.open_ = some tx →
      let m := if tx.ops = [] then smErase (fieldU p 0 2) x.presets else smPut (fieldU p 0 2) tx.ops x.presets
      (({ x with presets := m } : Sections).poolUsed ≤ presetPool →
        exec (.setPresetSave t d) s = .next (s.served setPresetSaveRow t d (Dev.changeSettings fun y => { y with presets := m }) fun _ => .ok [])) ∧
      (presetPool < ({ x with presets := m } : Sections).poolUsed →
        exec (.setPresetSave t d) s = .next (s.served setPresetSaveRow t d (fun v => v) fun _ => .fail { status := .badParam, check := 1 }))) ∧
    (s.Admits setPresetLoadRow d → presetLoadBad p = none → x.preset (fieldU p 0 2) ≠ [] →
      let b := s.begun setPresetLoadRow t d
      let os := x.preset (fieldU p 0 2)
      let done (s1 : State) (us : List UnitOp) (e : Nat) (st : Status) : State :=
        let k := s1.dev.newCommit e os.length us
        (s1.onDev fun v => v.countAdmission.enqueue k).answered setPresetLoadRow s.me d (.done st (commitRecord k e) false)
      (fieldU p 2 1 = 0 → ∀ s1 us, admitOps (settleU + b.dev.nowU) true os b = (s1, .ok us) →
        exec (.setPresetLoad t d) s = .next (done s1 us (settleU + b.dev.nowU) .ok)) ∧
      (fieldU p 2 1 ≠ 0 → b.dev.timeVerdict (fieldT p 4) = none → ∀ s1 us, admitOps (fieldT p 4) true os b = (s1, .ok us) →
        exec (.setPresetLoad t d) s = .next (done s1 us (fieldT p 4) .accepted))) ∧
    (s.dev.alive = true →
      let due := s.dev.settings.writeFrom
      let b := (s.arrive due).dev
      (due ≤ t → b.coreUp .c = true → b.settings.pending = true → b.storeOpen = true → b.writeReady = true →
        exec (.settingsWriteStart t) s = .next (s.happens due Dev.startWrite)) ∧
      (due ≤ t → s.dev.settings.pending = false → exec (.settingsWriteStart t) s = .next (s.arrive due)) ∧
      (t < due → exec (.settingsWriteStart t) s = .next (s.arrive t)) ∧
      (s.dev.settings.writing.isSome = true → ∀ w, s.dev.settings.lastWriteT = some w →
        exec (.settingsWriteComplete t) s = .next (s.happens (min t (w + 200 * msQ)) fun v => v.writeDone.attestGoes).resume) ∧
      (s.dev.settings.writing = none → exec (.settingsWriteComplete t) s = .next (s.arrive t)))

/-- SEC commands unlock, seal, set the password, challenge and attest as R495 to R502 say (R495, R496, R497, R498, R499, R501, R502).
Admitted with good fields: SEC.STATUS replies with its record; SEC.UNLOCK PASSWORD with the right password and no back-off opens the
scopes and clears the failures, a wrong one counts and is ST_AUTH_FAILED, and during a back-off it is ST_BACKOFF; RESPONSE consumes the
challenge, whatever comes of it (a parameter out of its rule included: the model's reading, log entry 52), and opens the scopes when it
verifies; SEC.SEAL seals; SEC.PASSWORD set stores a fresh salt and the hash, clear removes them, each only while none is set or REGISTERS
is open; SEC.CHALLENGE replaces the challenge by a fresh nonce; SEC.ATTEST signs with an index of the reserved block. A challenge expires
after 300 s, a back-off and an open service plane at their instants. -/
def Obligations.SecurityCommandsRun : Prop :=
  ∀ (s : State) (t : Nat) (d : Datagram),
    let x := s.dev.settings.live
    (s.Admits secStatusRow d → exec (.secStatus t d) s = .next (s.served secStatusRow t d (fun v => v) fun v => .ok (secRecord v))) ∧
    (let p := ((secUnlockRow 0 72).apply d).params
     s.Admits (secUnlockRow 0 72) d → unlockPasswordBad p = none → s.dev.hasPassword = true →
      let right := fitBytes 32 (Config.shake256 (x.salt ++ sliceB p 8 (fieldU p 2 1))) = x.hash
      ((s.arrive t).dev.backingOff = true → exec (.secUnlockPassword t d) s = .next (s.served (secUnlockRow 0 72) t d (fun v => v) fun _ => .fail (plainFail .backoff))) ∧
      ((s.arrive t).dev.backingOff = false → right → exec (.secUnlockPassword t d) s = .next (s.served (secUnlockRow 0 72) t d
        (fun v => (v.onSec fun q => { q with failures := 0, backoffLen := 0 }).openPlane (fieldU p 1 1) (fieldU p 4 4)) fun _ => .ok [])) ∧
      ((s.arrive t).dev.backingOff = false → ¬ right → exec (.secUnlockPassword t d) s = .next (s.served (secUnlockRow 0 72) t d
        (Dev.wrongPassword (fieldU p 1 1)) fun _ => .fail (plainFail .authFailed)))) ∧
    (let p := ((secUnlockRow 1 2960).apply d).params
     (∀ o, s.Admits (secUnlockRow 1 2960) d → unlockResponseBad p = some o → exec (.secUnlockResponse t d) s = .next (s.served (secUnlockRow 1 2960) t d
       (fun v => v.onSec fun q => { q with challenge := none }) fun _ => .fail (badField o))) ∧
     (s.Admits (secUnlockRow 1 2960) d → unlockResponseBad p = none →
      exec (.secUnlockResponse t d) s = .next (if (s.begun (secUnlockRow 1 2960) t d).dev.responseOk p = true
        then s.served (secUnlockRow 1 2960) t d
          (fun v => (v.onSec fun q => { q with challenge := none }).openPlane (fieldU p 1 1) (fieldU p 4 4)) fun _ => .ok []
        else s.served (secUnlockRow 1 2960) t d
          (fun v => (v.onSec fun q => { q with challenge := none }).secEvent 2 (fieldU p 1 1)) fun _ => .fail (plainFail .authFailed)))) ∧
    (s.Admits secSealRow d → exec (.secSeal t d) s = .next (s.served secSealRow t d Dev.sealPlane fun _ => .ok [])) ∧
    (let p := ((secPasswordRow 0).apply d).params
     s.Admits (secPasswordRow 0) d → passwordBad true p = none →
      (s.dev.passwordFree = true →
        let salt := fitBytes 16 (Config.random s.dev.sec.draws)
        let hash := fitBytes 32 (Config.shake256 (salt ++ sliceB p 4 (fieldU p 1 1)))
        exec (.secPasswordSet t d) s = .next (s.served (secPasswordRow 0) t d (fun v =>
          ((v.onSec fun q => { q with draws := q.draws + 1 }).changeSettings fun y => { y with salt := salt, hash := hash }).secEvent 4 v.sec.scope) fun _ => .ok [])) ∧
      (s.dev.passwordFree = false →
        exec (.secPasswordSet t d) s = .next (s.served (secPasswordRow 0) t d (fun v => v) fun _ => .fail (plainFail .locked)))) ∧
    (s.Admits (secPasswordRow 1) d → passwordBad false ((secPasswordRow 1).apply d).params = none → s.dev.passwordFree = true →
      exec (.secPasswordClear t d) s = .next (s.served (secPasswordRow 1) t d
        (fun v => (v.changeSettings fun y => { y with salt := [], hash := [] }).secEvent 5 v.sec.scope) fun _ => .ok [])) ∧
    (s.Admits secChallengeRow d →
      let nonce := fitBytes 32 (Config.random s.dev.sec.draws)
      exec (.secChallenge t d) s = .next (s.served secChallengeRow t d
        (fun v => v.onSec fun q => { q with draws := q.draws + 1, challenge := some (nonce, v.clk.now) })
        fun _ => .ok (nonce ++ fitBytes 16 serialBytes ++ identityHash))) ∧
    (s.Admits secAttestRow d → fieldU d.params 32 4 = 0 → x.retired = false →
      (s.dev.sec.nextIndex < x.reservedEnd →
        exec (.secAttest t d) s = .next (s.served secAttestRow t d (Dev.signReport (d.params.take 32)) fun _ => attestReply)) ∧
      (x.reservedEnd ≤ s.dev.sec.nextIndex → (s.arrive t).dev.writeReady = true →
        exec (.secAttest t d) s = .next (s.served secAttestRow t d
          (fun v => (v.changeSettings fun y => { y with reservedEnd := v.sec.nextIndex + 1024 }).startWrite) fun _ => .later .attest)) ∧
      (x.reservedEnd ≤ s.dev.sec.nextIndex → (s.arrive t).dev.writeReady = false →
        exec (.secAttest t d) s = .next (s.served secAttestRow t d (fun v => v) fun _ => .fail (plainFail .busy)))) ∧
    (∀ nonce issued, s.dev.sec.challenge = some (nonce, issued) →
      (300 * secQ + issued ≤ t →
        exec (.nonceExpiry t) s = .next (s.happens (300 * secQ + issued) fun v => v.onSec fun q => { q with challenge := none })) ∧
      (t < 300 * secQ + issued → exec (.nonceExpiry t) s = .next (s.arrive t))) ∧
    (∀ e, s.dev.sec.backoff = some e →
      (e ≤ t → exec (.backoffEnd t) s = .next (s.happens e fun v => v.onSec fun q => { q with backoff := none })) ∧
      (t < e → exec (.backoffEnd t) s = .next (s.arrive t))) ∧
    (s.dev.sec.scope ≠ 0 → s.dev.sec.openUntil ≤ t → exec (.servicePlaneExpiry t) s = .next (s.happens s.dev.sec.openUntil Dev.sealPlane)) ∧
    (s.dev.sec.scope = 0 ∨ t < s.dev.sec.openUntil → exec (.servicePlaneExpiry t) s = .next (s.arrive t)) ∧
    (s.dev.sec.challenge = none → exec (.nonceExpiry t) s = .next (s.arrive t)) ∧ (s.dev.sec.backoff = none → exec (.backoffEnd t) s = .next (s.arrive t))

/-- SVC operations read and write registers and give measured values, and the TAP answers as R544 says (R495, R500, R544). Admitted with
good fields (the scope open is among what R411 checks): SVC.REG_READ replies with the words as written or as the device has them;
SVC.REG_WRITE changes exactly the words it names; SVC.EYE and SVC.MARGIN reply with free values and change only the count of draws. A TAP
access shifts out what the instruction selects: the identity after IDCODE, the bypass bit otherwise, and with scope bit 2 open, free
values for any other instruction. -/
def Obligations.ServicePlaneRuns : Prop :=
  ∀ (s : State) (t : Nat) (d : Datagram),
    let p := d.params
    (s.Admits svcRegReadRow d → svcRegBad p = none → exec (.svcRegRead t d) s = .next (s.served svcRegReadRow t d (fun v => v)
      fun v => .ok ((List.range (fieldU p 4 2)).flatMap fun i => toBE 4 (v.cfgWord (fieldU p 0 4 + 4 * i)).toNat))) ∧
    (s.Admits svcRegWriteRow d → svcRegBad p = none → exec (.svcRegWrite t d) s = .next (s.served svcRegWriteRow t d (Dev.onSec fun q =>
      { q with
        cfgTouched := true
        cfgRegs := (List.range (fieldU p 4 2)).foldl (fun m i => smPut (fieldU p 0 4 + 4 * i) (BitVec.ofNat 32 (fieldU p (8 + 4 * i) 4)) m) q.cfgRegs })
      fun _ => .ok [])) ∧
    (s.Admits svcEyeRow d → svcLaneBad p = none → exec (.svcEye t d) s = .next (s.served svcEyeRow t d (fun v => { v with draws := v.draws + 2048 })
      fun v => .ok ((List.range 2048).flatMap fun i => toBE 4 (Config.freeNat (v.draws + i) % 10000001)))) ∧
    (s.Admits svcMarginRow d → svcLaneBad p = none → exec (.svcMargin t d) s = .next (s.served svcMarginRow t d (fun v => { v with draws := v.draws + 4 })
      fun v => .ok ((List.range 4).flatMap fun i => toBE 2 (Config.freeNat (v.draws + i))))) ∧
    (∀ tdi, exec (.jtagTapAccess t 0 tdi) s = .next (s.happens t fun v => (v.onSec fun q => { q with tapIr := 0 }).emit (.tdo (v.tapOut 0 tdi))) ∧
      exec (.jtagTapAccess t 1 tdi) s = .next (s.happens t fun v => (v.onSec fun q => { q with tapIr := 1 }).emit (.tdo (v.tapOut 1 tdi))) ∧
      ∀ ir, 2 ≤ ir →
        (s.dev.sec.scope.testBit 2 = false → exec (.jtagTapAccess t ir tdi) s = .next (s.happens t fun v =>
          (v.onSec fun q => { q with tapIr := 1 }).emit (.tdo (v.tapOut ir tdi)))) ∧
        (s.dev.sec.scope.testBit 2 = true → exec (.jtagTapAccess t ir tdi) s = .next (s.happens t fun v =>
          ({ v.onSec fun q => { q with tapIr := 2 } with draws := v.draws + tdi.length }).emit (.tdo (v.tapOut ir tdi)))))

/-- POWER.SLEEP, POWER.DOMAIN and SYS.WAKE run as R507 to R514 say, and answer when the hardware has followed (R507, R508, R511, R512,
R514, R522, R523). Admitted with good fields: POWER.STATUS and POWER.DOMAIN read reply with their records; POWER.DOMAIN in the state it
has already answers ST_OK and changes nothing, a domain in use is refused when it should go off, and otherwise the reply follows the
switch, which in sleep is done at once; POWER.SLEEP with no commit queued or prepared starts the entry and answers later; SYS.WAKE in
sleep starts the wake, unless the device is held. DOMAIN_SWITCHED, SLEEP_ENTRY_COMPLETE and WAKE_COMPLETE complete what waits for them, at
the latest when the time the rules give them is over. THERMAL_CRITICAL acts after 10 ms above the limit. -/
def Obligations.PowerCommandsRun : Prop :=
  ∀ (s : State) (t : Nat) (d : Datagram),
    (s.Admits powerStatusRow d → exec (.powerStatus t d) s = .next (s.served powerStatusRow t d (fun v => v) fun v => .ok (powerRecord v))) ∧
    (∀ (on : Bool) (i : Instr) (r : OpRow), (on, i, r) = (true, .powerDomainOn t d, powerDomainRow 0) ∨ (on, i, r) = (false, .powerDomainOff t d, powerDomainRow 1) →
      s.Admits r d → powerDomainBad (r.apply d).params = none →
      let n := fieldU (r.apply d).params 0 1
      (s.dev.domainOff n ≠ on → exec i s = .next (s.served r t d (fun v => v) fun _ => .ok [])) ∧
      (s.dev.domainOff n = on → on = true ∨ (s.begun r t d).dev.domainServes n = none →
        (s.dev.mediaOn = true → exec i s = .next (s.served r t d (fun v => v) fun _ => .later (.domain n))) ∧
        (s.dev.mediaOn = false → exec i s = .next (((s.begun r t d).switchDomain n on).answered r s.me d (.ok [])))) ∧
      (∀ k x, s.dev.domainOff n = on → on = false → (s.begun r t d).dev.domainServes n = some (k, x) →
        exec i s = .next (s.served r t d (fun v => v) fun _ => .fail (busyWith k x)))) ∧
    (s.Admits (powerDomainRow 2) d → powerDomainBad ((powerDomainRow 2).apply d).params = none →
      exec (.powerDomainRead t d) s = .next (s.served (powerDomainRow 2) t d (fun v => v) fun v =>
        let n := fieldU ((powerDomainRow 2).apply d).params 0 1
        .ok (toBE 1 n ++ toBE 1 (if v.domainOff n then 0 else 1) ++ zeros 6))) ∧
    (s.Admits powerSleepRow d → fieldU d.params 0 8 = 0 →
      (s.dev.pow.phase = .asleep → exec (.powerSleep t d) s = .next (s.served powerSleepRow t d (fun v => v) fun _ => .ok [])) ∧
      (s.dev.pow.phase = .running → s.dev.daond.prepared = [] → (∀ c ∈ s.dev.daond.commits, c.left = []) →
        exec (.powerSleep t d) s = .next (s.served powerSleepRow t d Dev.startSleep fun _ => .later .sleep)) ∧
      (∀ g r, s.dev.pow.phase = .running → s.dev.daond.prepared = g :: r → (∀ c ∈ s.dev.daond.commits, c.left = []) →
        exec (.powerSleep t d) s = .next (s.served powerSleepRow t d (fun v => v) fun _ => .fail (busyWith 21 g.groupId)))) ∧
    (s.Admits sysWakeRow d →
      (s.dev.pow.phase = .asleep → s.dev.pow.hold = false → exec (.sysWake t d) s = .next (s.served sysWakeRow t d Dev.startWake fun _ => .later .wake)) ∧
      (s.dev.pow.phase = .asleep → s.dev.pow.hold = true → exec (.sysWake t d) s = .next (s.served sysWakeRow t d (fun v => v) fun _ => .fail (busyWith 0 0))) ∧
      (s.dev.pow.phase = .entering ∨ s.dev.pow.phase = .waking → exec (.sysWake t d) s = .next (s.served sysWakeRow t d (fun v => v) fun _ => .later .wake)) ∧
      (s.dev.pow.phase = .running → exec (.sysWake t d) s = .next (s.served sysWakeRow t d (fun v => v) fun _ => .ok []))) ∧
    (s.dev.pow.phase = .entering → exec (.sleepEntryComplete t) s = .next (s.happens (min t (s.dev.pow.sleepReqT + 50 * msQ)) Dev.sleepDone).resume) ∧
    (s.dev.pow.phase ≠ .entering → exec (.sleepEntryComplete t) s = .next (s.arrive t)) ∧
    (s.dev.pow.phase = .waking → exec (.wakeComplete t) s = .next (s.happens (min t (s.dev.pow.wakeReqT + 120 * msQ)) Dev.wakeDone).resume) ∧
    (s.dev.pow.phase ≠ .waking → exec (.wakeComplete t) s = .next (s.arrive t)) ∧
    (∀ n : Fin 30, s.dev.alive = true → ∀ x, s.dev.daond.deferred.find? (fun x => x.kind == DeferKind.domain n) = some x →
      let on := fieldU x.dgram.params 1 1 == 0
      let len := if on then if n.val < 8 then 500 * msQ else 20 * msQ else 5 * msQ
      exec (.domainSwitched t n) s =
        .next ((((s.arrive (min t (x.since + len))).switchDomain n on).onDev (Dev.complete (· == DeferKind.domain n) (.ok []))).resume)) ∧
    (∀ n : Fin 30, s.dev.daond.deferred.find? (fun x => x.kind == DeferKind.domain n) = none → exec (.domainSwitched t n) s = .next (s.arrive t)) ∧
    (∀ w, s.dev.pow.hotSince = some w → s.dev.alive = true → s.dev.pow.hold = false →
      (10 * msQ + w ≤ t → exec (.thermalCritical t) s = .next (s.happens (10 * msQ + w) Dev.critical)) ∧
      (t < 10 * msQ + w → exec (.thermalCritical t) s = .next (s.arrive t))) ∧
    (s.dev.pow.hotSince = none ∨ s.dev.pow.hold = true → exec (.thermalCritical t) s = .next (s.arrive t))

/-- Reset, power, clocks and sensors drive the device as R474, R518 to R522 and R548 say (R474, R518, R519, R520, R522, R533, R548).
RESET_N rising samples the straps and, with power, oscillator and no thermal trip, starts the boot; BOOT_READY of a boot whose images
verify commits the preset and makes the device READY, at the latest after 6 s; a hold applied meanwhile takes it to sleep (the model's
reading, log entry 30). RESET_N falling for 1 us or more, a power loss and the loss of the oscillator reset a device that is not in reset,
with causes 1, 3 and 3; a pulse below 100 ns is ignored. Readings come 1 ms after the last at the earliest; a sensor above 120 degrees
trips the device into reset, and below the readings are recorded. -/
def Obligations.ResetAndBootRun : Prop :=
  ∀ (s : State) (t : Nat),
    let a := s.arrive t
    (∀ x : BitVec 8, (s.dev.pow.resetN = false → exec (.resetNRise t x) s = .next (s.happens t fun v =>
        (v.onPow fun p => { p with resetN := true, pwrOk := true, straps := x.toNat }).tryBoot)) ∧
      (s.dev.pow.resetN = true → exec (.resetNRise t x) s = .next a)) ∧
    (s.dev.pow.phase = .booting → s.dev.fw.bootOk = true → s.dev.fw.dead = false →
      let b := (s.arrive (min t (s.dev.clk.riseT + 6 * secQ))).bootPreset
      exec (.bootReady t) s = .next (b.onDev fun v =>
        let v := (v.withState fun v => v.onPow fun p => { p with phase := .running }).reportBoot
        if v.pow.hold then v.forceSleep else v)) ∧
    (s.dev.pow.phase ≠ .booting → exec (.bootReady t) s = .next a) ∧
    (∀ w, w < 100 → exec (.resetNFall t w) s = .next a) ∧
    (∀ w, 1000 ≤ w → s.dev.pow.phase ≠ .reset → exec (.resetNFall t w) s = .next ((a.resetDevice 1).onDev fun v => v.onPow fun p => { p with resetN := false })) ∧
    (∀ w, 1000 ≤ w → s.dev.pow.phase = .reset → exec (.resetNFall t w) s = .next (a.onDev fun v => v.onPow fun p => { p with resetN := false })) ∧
    (s.dev.pow.resetN = true → s.dev.pow.phase ≠ .reset →
      exec (.pwrOkFall t) s = .next ((a.resetDevice 3).onDev fun v => v.onPow fun p => { p with pwrOk := false })) ∧
    (s.dev.pow.resetN = false → exec (.pwrOkFall t) s = .next (a.onDev fun v => v.onPow fun p => { p with pwrOk := false })) ∧
    (s.dev.pow.phase ≠ .reset → exec (.oscLoss t) s = .next ((a.resetDevice 3).onDev fun v => v.onPow fun p => { p with osc := false })) ∧
    exec (.oscRestored t) s = .next (s.happens t fun v => (v.onPow fun p => { p with osc := true }).tryBoot) ∧
    exec (.ethRefclkLoss t) s = .next (s.happens t Dev.ethStops) ∧
    (∀ die hbm, t < s.dev.pow.sampleT + msQ → exec (.thermalSample t die hbm) s = .next a) ∧
    (∀ die hbm, s.dev.pow.sampleT + msQ ≤ t →
      let c := s.happens (s.dev.pow.sampleT + msQ) fun v => v.onPow fun p => { p with sampleT := v.clk.now }
      let b := c.onDev fun v => v.onPow fun p => { p with dieQ := readings 16 die, hbmQ := readings 4 hbm }
      let hot := ((readings 16 die) ++ (readings 4 hbm)).any fun x => decide (480 < x)
      (hot = true → s.dev.pow.phase ≠ .reset →
        exec (.thermalSample t die hbm) s = .next ((b.resetDevice 2).onDev fun v => v.onPow fun p => { p with tripHold := true })) ∧
      (hot = false → s.dev.alive = true → exec (.thermalSample t die hbm) s = .next (b.onDev Dev.thermalSample)))

/-- Discarded frames, overflows, links and services are counted and answered as R402, R403 and R444 say, and an unknown opcode is refused
(R402, R403, R408, R411, R444). While the device is alive: a frame with a bad FCS counts in fcs_errors and every other discarded frame in
rx_dropped; an overflow counts; a link that changes is reported. With CORE.C running, an ARP request for the address in use and an echo
request are answered; while it restarts they wait in the receive queue (the model's reading, log entry 20). A command of a table opcode
that no row has is refused ST_UNKNOWN_OPCODE once its header checks pass. -/
def Obligations.EthernetHappeningsRun : Prop :=
  ∀ (s : State) (t : Nat), s.dev.alive = true →
    exec (.ethernetFrameDiscarded t .fcs) s = .next (s.happens t fun v => { v with daond := { v.daond with fcsErrors := v.daond.fcsErrors + 1 } }) ∧
    (∀ c, c ≠ .fcs → exec (.ethernetFrameDiscarded t c) s = .next (s.happens t fun v =>
      { v with daond := { v.daond with rxFrames := v.daond.rxFrames + 1, rxDropped := v.daond.rxDropped + 1 } })) ∧
    exec (.rxOverflow t) s = .next (s.happens t fun v => { v with daond := { v.daond with rxOverflow := v.daond.rxOverflow + 1 } }) ∧
    (∀ up, exec (.ethernetLinkChange t up) s = .next (s.happens t fun v =>
      { v with
        daond := { v.daond with net := { v.daond.net with linkUp := up } }
        pow := { v.pow with ethRef := v.pow.ethRef || up } }.raiseIf (s.dev.daond.net.linkUp != up) evLink (b01 up))) ∧
    (s.dev.coreUp .c = false →
      (∀ f, exec (.serviceFrame t f) s = .next (s.happens t (Dev.queueRx (.serviceFrame t f)))) ∧
      (∀ x d, exec (.unknownOpcode t x d) s = .next (s.happens t (Dev.queueRx (.unknownOpcode t x d))))) ∧
    (s.dev.coreUp .c = true →
      (bit s.dev.daond.net.cfg.ipMode 0 = true → exec (.serviceFrame t (.arpRequest s.dev.daond.net.ipv4InUse)) s =
        .next (s.happens t fun v => v.countRx.emit (.service 0 s.dev.daond.net.ipv4InUse []))) ∧
      (∀ v6 data, exec (.serviceFrame t (.echoRequest v6 data)) s = .next (s.happens t fun v => v.countRx.emit (.service 4 (if v6 then 6 else 4) data))) ∧
      (∀ x d, isCommand d (s.arrive t).dev.countRx = true → headerCheck x d = none → exec (.unknownOpcode t x d) s = .next (s.happens t fun v =>
        v.countRx.refuse x d { status := .unknownOpcode, opIndex := 0xFFFF })) ∧
      (∀ x d, isCommand d (s.arrive t).dev.countRx = false → exec (.unknownOpcode t x d) s = .next (s.happens t fun v => v.countRx.dropRx)))
end

