-- ==== Sys2Proof/Laws/Table.lean ====
section
/-! SUPPORT. Reading a sparse table, and frame memory, after a write; the canonical form of frame memory is kept by every write. -/
namespace Sys2Proof.Machine
open Sys2Proof

/-! ### Sparse tables -/

/-- A read after a write of a table. -/
theorem smGet_smPut {α : Type} (d v : α) (k m : Nat) (t : SMap α) : smGet d m (smPut k v t) = if k = m then v else smGet d m t := by
  induction t with
  | nil => simp [smPut, smGet]
  | cons e r ih =>
    obtain ⟨j, w⟩ := e
    simp only [smPut]
    split
    · simp [smGet]
    · split
      · next hj =>
        rw [← hj]
        by_cases h : j = m <;> simp [smGet, h]
      · simp only [smGet, ih]
        by_cases h : j = m
        · have : k ≠ m := by omega
          simp [h, this]
        · simp [h]

/-- What a search of a table finds after a write. -/
theorem smFind_smPut {α : Type} (v : α) (k m : Nat) (t : SMap α) : smFind m (smPut k v t) = if k = m then some v else smFind m t := by
  induction t with
  | nil => simp [smPut, smFind]
  | cons e r ih =>
    obtain ⟨j, w⟩ := e
    simp only [smPut]
    split
    · simp [smFind]
    · split
      · next hj =>
        rw [← hj]
        by_cases h : j = m <;> simp [smFind, h]
      · simp only [smFind, ih]
        by_cases h : j = m
        · have : k ≠ m := by omega
          simp [h, this]
        · simp [h]

/-- A read after a removal. -/
theorem smGet_smErase {α : Type} (d : α) (k m : Nat) (t : SMap α) : smGet d m (smErase k t) = if k = m then d else smGet d m t := by
  induction t with
  | nil => simp [smErase, smGet]
  | cons e r ih =>
    obtain ⟨j, w⟩ := e
    simp only [smErase, List.filter_cons] at *
    by_cases h : j = k
    · subst h
      simp only [bne_self_eq_false, Bool.false_eq_true, if_false, ih, smGet]
      by_cases g : j = m <;> simp [g]
    · simp only [bne_iff_ne, ne_eq, h, not_false_eq_true, if_true, smGet, ih]
      by_cases g : j = m
      · have : k ≠ m := by omega
        simp [g, this]
      · simp [g]

/-! ### Frame memory -/

/-- A canonical memory that starts later is one that starts sooner. -/
theorem memWfFrom_mono {lo hi : Nat} {m : List Host.Cell} (h : lo ≤ hi) (w : memWfFrom hi m = true) : memWfFrom lo m = true := by
  cases m with
  | nil => rfl
  | cons e r =>
    obtain ⟨x, b⟩ := e
    simp only [memWfFrom, Bool.and_eq_true, decide_eq_true_eq] at *
    exact ⟨⟨⟨by omega, w.1.1.2⟩, w.1.2⟩, w.2⟩

/-- Nothing is listed below the start of a canonical memory. -/
theorem memGet_below {lo a : Nat} {m : List Host.Cell} (w : memWfFrom lo m = true) (h : a < lo) : memGet a m = memDefault := by
  induction m generalizing lo with
  | nil => rfl
  | cons e r ih =>
    obtain ⟨x, b⟩ := e
    simp only [memWfFrom, Bool.and_eq_true, decide_eq_true_eq] at w
    simp only [memGet]
    rw [if_neg (by omega)]
    exact ih w.2 (by omega)

/-- A write inside the store keeps the canonical form. -/
theorem memWfFrom_memPut {lo a : Nat} {v : Byte} {m : List Host.Cell} (w : memWfFrom lo m = true) (h : lo ≤ a) (b : a < memSize) :
    memWfFrom lo (memPut a v m) = true := by
  induction m generalizing lo with
  | nil =>
    simp only [memPut]
    split
    · rfl
    · next hv =>
      simp only [memWfFrom, Bool.and_eq_true, decide_eq_true_eq, bne_iff_ne]
      exact ⟨⟨⟨h, b⟩, hv⟩, trivial⟩
  | cons e r ih =>
    obtain ⟨x, c⟩ := e
    have w' := w
    simp only [memWfFrom, Bool.and_eq_true, decide_eq_true_eq, bne_iff_ne] at w
    obtain ⟨⟨⟨w1, w2⟩, w3⟩, w4⟩ := w
    simp only [memPut]
    split
    · split
      · exact w'
      · next hx hv =>
        simp only [memWfFrom, Bool.and_eq_true, decide_eq_true_eq, bne_iff_ne]
        exact ⟨⟨⟨h, b⟩, hv⟩, ⟨⟨⟨by omega, w2⟩, w3⟩, w4⟩⟩
    · split
      · subst_vars
        split
        · exact memWfFrom_mono (by omega) w4
        · next hv =>
          simp only [memWfFrom, Bool.and_eq_true, decide_eq_true_eq, bne_iff_ne]
          exact ⟨⟨⟨h, b⟩, hv⟩, w4⟩
      · simp only [memWfFrom, Bool.and_eq_true, decide_eq_true_eq, bne_iff_ne]
        exact ⟨⟨⟨w1, w2⟩, w3⟩, ih w4 (by omega)⟩

/-- A read after a write of one byte of a canonical memory. -/
theorem memGet_memPut {lo a x : Nat} {v : Byte} {m : List Host.Cell} (w : memWfFrom lo m = true) :
    memGet x (memPut a v m) = if a = x then v else memGet x m := by
  induction m generalizing lo with
  | nil =>
    simp only [memPut]
    split
    · next h => simp [memGet, h]
    · simp [memGet]
  | cons e r ih =>
    obtain ⟨y, c⟩ := e
    have w' := w
    simp only [memWfFrom, Bool.and_eq_true, decide_eq_true_eq] at w
    simp only [memPut]
    split
    · split
      · next hy hv =>
        by_cases g : a = x
        · subst g
          simp only [if_true, hv]
          exact memGet_below (lo := a + 1) (by
            simp only [memWfFrom, Bool.and_eq_true, decide_eq_true_eq]
            exact ⟨⟨⟨by omega, w.1.1.2⟩, w.1.2⟩, w.2⟩) (by omega)
        · rw [if_neg g]
      · simp only [memGet]
    · split
      · next hj =>
        rw [← hj]
        split
        · next hv =>
          by_cases g : y = x
          · rw [if_pos g, hv, ← g]
            exact memGet_below w.2 (by omega)
          · simp [memGet, g]
        · by_cases g : y = x <;> simp [memGet, g]
      · simp only [memGet, ih w.2]
        by_cases g : y = x
        · have : a ≠ x := by omega
          simp [g, this]
        · simp [g]

/-- A write of bytes keeps the canonical form. -/
theorem memWf_memWrite {a : Nat} {m : List Host.Cell} (bs : List Byte) (w : memWf m = true) : memWf (memWrite m a bs) = true := by
  induction bs generalizing a m with
  | nil => exact w
  | cons b r ih =>
    simp only [memWrite]
    apply ih
    split
    · exact memWfFrom_memPut w (Nat.zero_le _) (by assumption)
    · exact w

/-- A read after a write of bytes: the byte written where the address lies among those written, the old byte everywhere else. -/
theorem memGet_memWrite {a x : Nat} {m : List Host.Cell} (bs : List Byte) (w : memWf m = true) (h : a + bs.length ≤ memSize) :
    memGet x (memWrite m a bs) = if a ≤ x ∧ x < a + bs.length then bs.getD (x - a) 0 else memGet x m := by
  induction bs generalizing a m with
  | nil =>
    simp only [memWrite, List.length_nil, Nat.add_zero]
    rw [if_neg (by omega)]
  | cons b r ih =>
    simp only [List.length_cons] at h
    simp only [memWrite, if_pos (show a < memSize by omega)]
    rw [ih (memWfFrom_memPut w (Nat.zero_le _) (by omega)) (by omega), memGet_memPut w]
    simp only [List.length_cons]
    by_cases g : a = x
    · subst g
      rw [if_neg (by omega), if_pos rfl, if_pos (by omega), Nat.sub_self]
      rfl
    · by_cases k : a + 1 ≤ x ∧ x < a + 1 + r.length
      · rw [if_pos k, if_pos (by omega)]
        have : x - a = (x - (a + 1)) + 1 := by omega
        rw [this]
        rfl
      · rw [if_neg k, if_neg g, if_neg (by omega)]

/-- Cells left out of a canonical memory leave it canonical. -/
theorem memWfFrom_filter {lo : Nat} {m : List Host.Cell} (p : Host.Cell → Bool) (w : memWfFrom lo m = true) : memWfFrom lo (m.filter p) = true := by
  induction m generalizing lo with
  | nil => rfl
  | cons e r ih =>
    obtain ⟨x, c⟩ := e
    simp only [memWfFrom, Bool.and_eq_true, decide_eq_true_eq, bne_iff_ne] at w
    simp only [List.filter_cons]
    split
    · simp only [memWfFrom, Bool.and_eq_true, decide_eq_true_eq, bne_iff_ne]
      exact ⟨w.1, ih w.2⟩
    · exact memWfFrom_mono (by omega) (ih w.2)

end Sys2Proof.Machine
end

