-- ==== Sys2Proof/Laws/State.lean ====
section
/-! SUPPORT. What each named update of the device leaves as it was, and what a unit's record reads after it: one lemma per field per update. -/
namespace Sys2Proof.Machine
open Sys2Proof

/-! ### The state -/

@[simp] theorem State.onDev_mem (f : Dev → Dev) (s : State) : (s.onDev f).mem = s.mem := rfl
@[simp] theorem State.onDev_pending (f : Dev → Dev) (s : State) : (s.onDev f).pending = s.pending := rfl
@[simp] theorem State.onDev_dev (f : Dev → Dev) (s : State) : (s.onDev f).dev = f s.dev := rfl
@[simp] theorem State.arrive_mem (t : Nat) (s : State) : (s.arrive t).mem = s.mem := rfl
@[simp] theorem State.arrive_pending (t : Nat) (s : State) : (s.arrive t).pending = s.pending := rfl
@[simp] theorem State.arrive_dev (t : Nat) (s : State) : (s.arrive t).dev = s.dev.arrive t := rfl

/-! ### The instant, outputs, events and the ledger -/

@[simp] theorem Dev.arrive_daond (t : Nat) (d : Dev) : (d.arrive t).daond = d.daond := rfl
@[simp] theorem Dev.arrive_ev (t : Nat) (d : Dev) : (d.arrive t).ev = d.ev := rfl
@[simp] theorem Dev.arrive_cfg (t : Nat) (d : Dev) : (d.arrive t).cfg = d.cfg := rfl
@[simp] theorem Dev.arrive_blocks (t : Nat) (d : Dev) : (d.arrive t).blocks = d.blocks := rfl
@[simp] theorem Dev.arrive_lanes (t : Nat) (d : Dev) : (d.arrive t).lanes = d.lanes := rfl
@[simp] theorem Dev.arrive_ingress (t : Nat) (d : Dev) : (d.arrive t).ingress = d.ingress := rfl
@[simp] theorem Dev.arrive_egress (t : Nat) (d : Dev) : (d.arrive t).egress = d.egress := rfl
@[simp] theorem Dev.arrive_caps (t : Nat) (d : Dev) : (d.arrive t).caps = d.caps := rfl
@[simp] theorem Dev.arrive_rings (t : Nat) (d : Dev) : (d.arrive t).rings = d.rings := rfl
@[simp] theorem Dev.arrive_layers (t : Nat) (d : Dev) : (d.arrive t).layers = d.layers := rfl
@[simp] theorem Dev.arrive_heads (t : Nat) (d : Dev) : (d.arrive t).heads = d.heads := rfl
@[simp] theorem Dev.arrive_xchans (t : Nat) (d : Dev) : (d.arrive t).xchans = d.xchans := rfl
@[simp] theorem Dev.arrive_audio (t : Nat) (d : Dev) : (d.arrive t).audio = d.audio := rfl
@[simp] theorem Dev.arrive_refs (t : Nat) (d : Dev) : (d.arrive t).refs = d.refs := rfl
@[simp] theorem Dev.arrive_tcs (t : Nat) (d : Dev) : (d.arrive t).tcs = d.tcs := rfl
@[simp] theorem Dev.arrive_ckos (t : Nat) (d : Dev) : (d.arrive t).ckos = d.ckos := rfl
@[simp] theorem Dev.arrive_fpos (t : Nat) (d : Dev) : (d.arrive t).fpos = d.fpos := rfl
@[simp] theorem Dev.arrive_tpins (t : Nat) (d : Dev) : (d.arrive t).tpins = d.tpins := rfl
@[simp] theorem Dev.arrive_probes (t : Nat) (d : Dev) : (d.arrive t).probes = d.probes := rfl
@[simp] theorem Dev.arrive_freeze (t : Nat) (d : Dev) : (d.arrive t).freeze = d.freeze := rfl
@[simp] theorem Dev.arrive_fabric (t : Nat) (d : Dev) : (d.arrive t).fabric = d.fabric := rfl
@[simp] theorem Dev.arrive_fw (t : Nat) (d : Dev) : (d.arrive t).fw = d.fw := rfl
@[simp] theorem Dev.arrive_settings (t : Nat) (d : Dev) : (d.arrive t).settings = d.settings := rfl
@[simp] theorem Dev.arrive_sec (t : Nat) (d : Dev) : (d.arrive t).sec = d.sec := rfl
@[simp] theorem Dev.arrive_pow (t : Nat) (d : Dev) : (d.arrive t).pow = d.pow := rfl
@[simp] theorem Dev.arrive_draws (t : Nat) (d : Dev) : (d.arrive t).draws = d.draws := rfl
/-- What an arrival leaves in `out` is what the TX directions have sent up to it, and nothing that left before. -/
theorem Dev.arrive_out (t : Nat) (d : Dev) : (d.arrive t).out = (Dev.sendTo t { d with out := [] }).out.reverse := rfl
@[simp] theorem Dev.arrive_now (t : Nat) (d : Dev) : (d.arrive t).clk.now = max d.clk.now t := rfl
@[simp] theorem Dev.emit_clk (o : Output) (d : Dev) : (d.emit o).clk = d.clk := rfl
@[simp] theorem Dev.emit_daond (o : Output) (d : Dev) : (d.emit o).daond = d.daond := rfl
@[simp] theorem Dev.emit_ev (o : Output) (d : Dev) : (d.emit o).ev = d.ev := rfl
@[simp] theorem Dev.emit_cfg (o : Output) (d : Dev) : (d.emit o).cfg = d.cfg := rfl
@[simp] theorem Dev.emit_blocks (o : Output) (d : Dev) : (d.emit o).blocks = d.blocks := rfl
@[simp] theorem Dev.emit_lanes (o : Output) (d : Dev) : (d.emit o).lanes = d.lanes := rfl
@[simp] theorem Dev.emit_ingress (o : Output) (d : Dev) : (d.emit o).ingress = d.ingress := rfl
@[simp] theorem Dev.emit_egress (o : Output) (d : Dev) : (d.emit o).egress = d.egress := rfl
@[simp] theorem Dev.emit_caps (o : Output) (d : Dev) : (d.emit o).caps = d.caps := rfl
@[simp] theorem Dev.emit_rings (o : Output) (d : Dev) : (d.emit o).rings = d.rings := rfl
@[simp] theorem Dev.emit_layers (o : Output) (d : Dev) : (d.emit o).layers = d.layers := rfl
@[simp] theorem Dev.emit_heads (o : Output) (d : Dev) : (d.emit o).heads = d.heads := rfl
@[simp] theorem Dev.emit_xchans (o : Output) (d : Dev) : (d.emit o).xchans = d.xchans := rfl
@[simp] theorem Dev.emit_audio (o : Output) (d : Dev) : (d.emit o).audio = d.audio := rfl
@[simp] theorem Dev.emit_refs (o : Output) (d : Dev) : (d.emit o).refs = d.refs := rfl
@[simp] theorem Dev.emit_tcs (o : Output) (d : Dev) : (d.emit o).tcs = d.tcs := rfl
@[simp] theorem Dev.emit_ckos (o : Output) (d : Dev) : (d.emit o).ckos = d.ckos := rfl
@[simp] theorem Dev.emit_fpos (o : Output) (d : Dev) : (d.emit o).fpos = d.fpos := rfl
@[simp] theorem Dev.emit_tpins (o : Output) (d : Dev) : (d.emit o).tpins = d.tpins := rfl
@[simp] theorem Dev.emit_probes (o : Output) (d : Dev) : (d.emit o).probes = d.probes := rfl
@[simp] theorem Dev.emit_freeze (o : Output) (d : Dev) : (d.emit o).freeze = d.freeze := rfl
@[simp] theorem Dev.emit_fabric (o : Output) (d : Dev) : (d.emit o).fabric = d.fabric := rfl
@[simp] theorem Dev.emit_fw (o : Output) (d : Dev) : (d.emit o).fw = d.fw := rfl
@[simp] theorem Dev.emit_settings (o : Output) (d : Dev) : (d.emit o).settings = d.settings := rfl
@[simp] theorem Dev.emit_sec (o : Output) (d : Dev) : (d.emit o).sec = d.sec := rfl
@[simp] theorem Dev.emit_pow (o : Output) (d : Dev) : (d.emit o).pow = d.pow := rfl
@[simp] theorem Dev.emit_draws (o : Output) (d : Dev) : (d.emit o).draws = d.draws := rfl
@[simp] theorem Dev.emit_out (o : Output) (d : Dev) : (d.emit o).out = d.out ++ [o] := rfl
@[simp] theorem Dev.raise_clk (a b : Nat) (d : Dev) : (d.raise a b).clk = d.clk := rfl
@[simp] theorem Dev.raise_daond (a b : Nat) (d : Dev) : (d.raise a b).daond = d.daond := rfl
@[simp] theorem Dev.raise_cfg (a b : Nat) (d : Dev) : (d.raise a b).cfg = d.cfg := rfl
@[simp] theorem Dev.raise_blocks (a b : Nat) (d : Dev) : (d.raise a b).blocks = d.blocks := rfl
@[simp] theorem Dev.raise_lanes (a b : Nat) (d : Dev) : (d.raise a b).lanes = d.lanes := rfl
@[simp] theorem Dev.raise_ingress (a b : Nat) (d : Dev) : (d.raise a b).ingress = d.ingress := rfl
@[simp] theorem Dev.raise_egress (a b : Nat) (d : Dev) : (d.raise a b).egress = d.egress := rfl
@[simp] theorem Dev.raise_caps (a b : Nat) (d : Dev) : (d.raise a b).caps = d.caps := rfl
@[simp] theorem Dev.raise_rings (a b : Nat) (d : Dev) : (d.raise a b).rings = d.rings := rfl
@[simp] theorem Dev.raise_layers (a b : Nat) (d : Dev) : (d.raise a b).layers = d.layers := rfl
@[simp] theorem Dev.raise_heads (a b : Nat) (d : Dev) : (d.raise a b).heads = d.heads := rfl
@[simp] theorem Dev.raise_xchans (a b : Nat) (d : Dev) : (d.raise a b).xchans = d.xchans := rfl
@[simp] theorem Dev.raise_audio (a b : Nat) (d : Dev) : (d.raise a b).audio = d.audio := rfl
@[simp] theorem Dev.raise_refs (a b : Nat) (d : Dev) : (d.raise a b).refs = d.refs := rfl
@[simp] theorem Dev.raise_tcs (a b : Nat) (d : Dev) : (d.raise a b).tcs = d.tcs := rfl
@[simp] theorem Dev.raise_ckos (a b : Nat) (d : Dev) : (d.raise a b).ckos = d.ckos := rfl
@[simp] theorem Dev.raise_fpos (a b : Nat) (d : Dev) : (d.raise a b).fpos = d.fpos := rfl
@[simp] theorem Dev.raise_tpins (a b : Nat) (d : Dev) : (d.raise a b).tpins = d.tpins := rfl
@[simp] theorem Dev.raise_probes (a b : Nat) (d : Dev) : (d.raise a b).probes = d.probes := rfl
@[simp] theorem Dev.raise_freeze (a b : Nat) (d : Dev) : (d.raise a b).freeze = d.freeze := rfl
@[simp] theorem Dev.raise_fabric (a b : Nat) (d : Dev) : (d.raise a b).fabric = d.fabric := rfl
@[simp] theorem Dev.raise_fw (a b : Nat) (d : Dev) : (d.raise a b).fw = d.fw := rfl
@[simp] theorem Dev.raise_settings (a b : Nat) (d : Dev) : (d.raise a b).settings = d.settings := rfl
@[simp] theorem Dev.raise_sec (a b : Nat) (d : Dev) : (d.raise a b).sec = d.sec := rfl
@[simp] theorem Dev.raise_pow (a b : Nat) (d : Dev) : (d.raise a b).pow = d.pow := rfl
@[simp] theorem Dev.raise_draws (a b : Nat) (d : Dev) : (d.raise a b).draws = d.draws := rfl
@[simp] theorem Dev.raise_out (a b : Nat) (d : Dev) : (d.raise a b).out = d.out := rfl
@[simp] theorem Dev.raiseIf_clk (c : Bool) (a b : Nat) (d : Dev) : (d.raiseIf c a b).clk = d.clk := by cases c <;> rfl
@[simp] theorem Dev.raiseIf_daond (c : Bool) (a b : Nat) (d : Dev) : (d.raiseIf c a b).daond = d.daond := by cases c <;> rfl
@[simp] theorem Dev.raiseIf_cfg (c : Bool) (a b : Nat) (d : Dev) : (d.raiseIf c a b).cfg = d.cfg := by cases c <;> rfl
@[simp] theorem Dev.raiseIf_blocks (c : Bool) (a b : Nat) (d : Dev) : (d.raiseIf c a b).blocks = d.blocks := by cases c <;> rfl
@[simp] theorem Dev.raiseIf_lanes (c : Bool) (a b : Nat) (d : Dev) : (d.raiseIf c a b).lanes = d.lanes := by cases c <;> rfl
@[simp] theorem Dev.raiseIf_ingress (c : Bool) (a b : Nat) (d : Dev) : (d.raiseIf c a b).ingress = d.ingress := by cases c <;> rfl
@[simp] theorem Dev.raiseIf_egress (c : Bool) (a b : Nat) (d : Dev) : (d.raiseIf c a b).egress = d.egress := by cases c <;> rfl
@[simp] theorem Dev.raiseIf_caps (c : Bool) (a b : Nat) (d : Dev) : (d.raiseIf c a b).caps = d.caps := by cases c <;> rfl
@[simp] theorem Dev.raiseIf_rings (c : Bool) (a b : Nat) (d : Dev) : (d.raiseIf c a b).rings = d.rings := by cases c <;> rfl
@[simp] theorem Dev.raiseIf_layers (c : Bool) (a b : Nat) (d : Dev) : (d.raiseIf c a b).layers = d.layers := by cases c <;> rfl
@[simp] theorem Dev.raiseIf_heads (c : Bool) (a b : Nat) (d : Dev) : (d.raiseIf c a b).heads = d.heads := by cases c <;> rfl
@[simp] theorem Dev.raiseIf_xchans (c : Bool) (a b : Nat) (d : Dev) : (d.raiseIf c a b).xchans = d.xchans := by cases c <;> rfl
@[simp] theorem Dev.raiseIf_audio (c : Bool) (a b : Nat) (d : Dev) : (d.raiseIf c a b).audio = d.audio := by cases c <;> rfl
@[simp] theorem Dev.raiseIf_refs (c : Bool) (a b : Nat) (d : Dev) : (d.raiseIf c a b).refs = d.refs := by cases c <;> rfl
@[simp] theorem Dev.raiseIf_tcs (c : Bool) (a b : Nat) (d : Dev) : (d.raiseIf c a b).tcs = d.tcs := by cases c <;> rfl
@[simp] theorem Dev.raiseIf_ckos (c : Bool) (a b : Nat) (d : Dev) : (d.raiseIf c a b).ckos = d.ckos := by cases c <;> rfl
@[simp] theorem Dev.raiseIf_fpos (c : Bool) (a b : Nat) (d : Dev) : (d.raiseIf c a b).fpos = d.fpos := by cases c <;> rfl
@[simp] theorem Dev.raiseIf_tpins (c : Bool) (a b : Nat) (d : Dev) : (d.raiseIf c a b).tpins = d.tpins := by cases c <;> rfl
@[simp] theorem Dev.raiseIf_probes (c : Bool) (a b : Nat) (d : Dev) : (d.raiseIf c a b).probes = d.probes := by cases c <;> rfl
@[simp] theorem Dev.raiseIf_freeze (c : Bool) (a b : Nat) (d : Dev) : (d.raiseIf c a b).freeze = d.freeze := by cases c <;> rfl
@[simp] theorem Dev.raiseIf_fabric (c : Bool) (a b : Nat) (d : Dev) : (d.raiseIf c a b).fabric = d.fabric := by cases c <;> rfl
@[simp] theorem Dev.raiseIf_fw (c : Bool) (a b : Nat) (d : Dev) : (d.raiseIf c a b).fw = d.fw := by cases c <;> rfl
@[simp] theorem Dev.raiseIf_settings (c : Bool) (a b : Nat) (d : Dev) : (d.raiseIf c a b).settings = d.settings := by cases c <;> rfl
@[simp] theorem Dev.raiseIf_sec (c : Bool) (a b : Nat) (d : Dev) : (d.raiseIf c a b).sec = d.sec := by cases c <;> rfl
@[simp] theorem Dev.raiseIf_pow (c : Bool) (a b : Nat) (d : Dev) : (d.raiseIf c a b).pow = d.pow := by cases c <;> rfl
@[simp] theorem Dev.raiseIf_draws (c : Bool) (a b : Nat) (d : Dev) : (d.raiseIf c a b).draws = d.draws := by cases c <;> rfl
@[simp] theorem Dev.raiseIf_out (c : Bool) (a b : Nat) (d : Dev) : (d.raiseIf c a b).out = d.out := by cases c <;> rfl
@[simp] theorem Dev.ledger_clk (g : U32) (k o u b : Nat) (n : U32) (d : Dev) : (d.ledger g k o u b n).clk = d.clk := rfl
@[simp] theorem Dev.ledger_daond (g : U32) (k o u b : Nat) (n : U32) (d : Dev) : (d.ledger g k o u b n).daond = d.daond := rfl
@[simp] theorem Dev.ledger_cfg (g : U32) (k o u b : Nat) (n : U32) (d : Dev) : (d.ledger g k o u b n).cfg = d.cfg := rfl
@[simp] theorem Dev.ledger_blocks (g : U32) (k o u b : Nat) (n : U32) (d : Dev) : (d.ledger g k o u b n).blocks = d.blocks := rfl
@[simp] theorem Dev.ledger_lanes (g : U32) (k o u b : Nat) (n : U32) (d : Dev) : (d.ledger g k o u b n).lanes = d.lanes := rfl
@[simp] theorem Dev.ledger_ingress (g : U32) (k o u b : Nat) (n : U32) (d : Dev) : (d.ledger g k o u b n).ingress = d.ingress := rfl
@[simp] theorem Dev.ledger_egress (g : U32) (k o u b : Nat) (n : U32) (d : Dev) : (d.ledger g k o u b n).egress = d.egress := rfl
@[simp] theorem Dev.ledger_caps (g : U32) (k o u b : Nat) (n : U32) (d : Dev) : (d.ledger g k o u b n).caps = d.caps := rfl
@[simp] theorem Dev.ledger_rings (g : U32) (k o u b : Nat) (n : U32) (d : Dev) : (d.ledger g k o u b n).rings = d.rings := rfl
@[simp] theorem Dev.ledger_layers (g : U32) (k o u b : Nat) (n : U32) (d : Dev) : (d.ledger g k o u b n).layers = d.layers := rfl
@[simp] theorem Dev.ledger_heads (g : U32) (k o u b : Nat) (n : U32) (d : Dev) : (d.ledger g k o u b n).heads = d.heads := rfl
@[simp] theorem Dev.ledger_xchans (g : U32) (k o u b : Nat) (n : U32) (d : Dev) : (d.ledger g k o u b n).xchans = d.xchans := rfl
@[simp] theorem Dev.ledger_audio (g : U32) (k o u b : Nat) (n : U32) (d : Dev) : (d.ledger g k o u b n).audio = d.audio := rfl
@[simp] theorem Dev.ledger_refs (g : U32) (k o u b : Nat) (n : U32) (d : Dev) : (d.ledger g k o u b n).refs = d.refs := rfl
@[simp] theorem Dev.ledger_tcs (g : U32) (k o u b : Nat) (n : U32) (d : Dev) : (d.ledger g k o u b n).tcs = d.tcs := rfl
@[simp] theorem Dev.ledger_ckos (g : U32) (k o u b : Nat) (n : U32) (d : Dev) : (d.ledger g k o u b n).ckos = d.ckos := rfl
@[simp] theorem Dev.ledger_fpos (g : U32) (k o u b : Nat) (n : U32) (d : Dev) : (d.ledger g k o u b n).fpos = d.fpos := rfl
@[simp] theorem Dev.ledger_tpins (g : U32) (k o u b : Nat) (n : U32) (d : Dev) : (d.ledger g k o u b n).tpins = d.tpins := rfl
@[simp] theorem Dev.ledger_probes (g : U32) (k o u b : Nat) (n : U32) (d : Dev) : (d.ledger g k o u b n).probes = d.probes := rfl
@[simp] theorem Dev.ledger_freeze (g : U32) (k o u b : Nat) (n : U32) (d : Dev) : (d.ledger g k o u b n).freeze = d.freeze := rfl
@[simp] theorem Dev.ledger_fabric (g : U32) (k o u b : Nat) (n : U32) (d : Dev) : (d.ledger g k o u b n).fabric = d.fabric := rfl
@[simp] theorem Dev.ledger_fw (g : U32) (k o u b : Nat) (n : U32) (d : Dev) : (d.ledger g k o u b n).fw = d.fw := rfl
@[simp] theorem Dev.ledger_settings (g : U32) (k o u b : Nat) (n : U32) (d : Dev) : (d.ledger g k o u b n).settings = d.settings := rfl
@[simp] theorem Dev.ledger_sec (g : U32) (k o u b : Nat) (n : U32) (d : Dev) : (d.ledger g k o u b n).sec = d.sec := rfl
@[simp] theorem Dev.ledger_pow (g : U32) (k o u b : Nat) (n : U32) (d : Dev) : (d.ledger g k o u b n).pow = d.pow := rfl
@[simp] theorem Dev.ledger_draws (g : U32) (k o u b : Nat) (n : U32) (d : Dev) : (d.ledger g k o u b n).draws = d.draws := rfl
@[simp] theorem Dev.ledger_out (g : U32) (k o u b : Nat) (n : U32) (d : Dev) : (d.ledger g k o u b n).out = d.out := rfl

/-! ### Records of `blocks` -/

@[simp] theorem Dev.modBlock_eq (n : Nat) (f : BlockSt → BlockSt) (d : Dev) : d.modBlock n f = d.setBlock n (f (d.block n)) := rfl
theorem Dev.block_setBlock (n m : Nat) (x : BlockSt) (d : Dev) : (d.setBlock n x).block m = if n = m then x else d.block m := smGet_smPut ..
@[simp] theorem Dev.block_setBlock_self (n : Nat) (x : BlockSt) (d : Dev) : (d.setBlock n x).block n = x := by rw [Dev.block_setBlock, if_pos rfl]
@[simp] theorem Dev.setBlock_clk (n : Nat) (x : BlockSt) (d : Dev) : (d.setBlock n x).clk = d.clk := rfl
@[simp] theorem Dev.setBlock_daond (n : Nat) (x : BlockSt) (d : Dev) : (d.setBlock n x).daond = d.daond := rfl
@[simp] theorem Dev.setBlock_ev (n : Nat) (x : BlockSt) (d : Dev) : (d.setBlock n x).ev = d.ev := rfl
@[simp] theorem Dev.setBlock_cfg (n : Nat) (x : BlockSt) (d : Dev) : (d.setBlock n x).cfg = d.cfg := rfl
@[simp] theorem Dev.setBlock_lanes (n : Nat) (x : BlockSt) (d : Dev) : (d.setBlock n x).lanes = d.lanes := rfl
@[simp] theorem Dev.setBlock_ingress (n : Nat) (x : BlockSt) (d : Dev) : (d.setBlock n x).ingress = d.ingress := rfl
@[simp] theorem Dev.setBlock_egress (n : Nat) (x : BlockSt) (d : Dev) : (d.setBlock n x).egress = d.egress := rfl
@[simp] theorem Dev.setBlock_caps (n : Nat) (x : BlockSt) (d : Dev) : (d.setBlock n x).caps = d.caps := rfl
@[simp] theorem Dev.setBlock_rings (n : Nat) (x : BlockSt) (d : Dev) : (d.setBlock n x).rings = d.rings := rfl
@[simp] theorem Dev.setBlock_layers (n : Nat) (x : BlockSt) (d : Dev) : (d.setBlock n x).layers = d.layers := rfl
@[simp] theorem Dev.setBlock_heads (n : Nat) (x : BlockSt) (d : Dev) : (d.setBlock n x).heads = d.heads := rfl
@[simp] theorem Dev.setBlock_xchans (n : Nat) (x : BlockSt) (d : Dev) : (d.setBlock n x).xchans = d.xchans := rfl
@[simp] theorem Dev.setBlock_audio (n : Nat) (x : BlockSt) (d : Dev) : (d.setBlock n x).audio = d.audio := rfl
@[simp] theorem Dev.setBlock_refs (n : Nat) (x : BlockSt) (d : Dev) : (d.setBlock n x).refs = d.refs := rfl
@[simp] theorem Dev.setBlock_tcs (n : Nat) (x : BlockSt) (d : Dev) : (d.setBlock n x).tcs = d.tcs := rfl
@[simp] theorem Dev.setBlock_ckos (n : Nat) (x : BlockSt) (d : Dev) : (d.setBlock n x).ckos = d.ckos := rfl
@[simp] theorem Dev.setBlock_fpos (n : Nat) (x : BlockSt) (d : Dev) : (d.setBlock n x).fpos = d.fpos := rfl
@[simp] theorem Dev.setBlock_tpins (n : Nat) (x : BlockSt) (d : Dev) : (d.setBlock n x).tpins = d.tpins := rfl
@[simp] theorem Dev.setBlock_probes (n : Nat) (x : BlockSt) (d : Dev) : (d.setBlock n x).probes = d.probes := rfl
@[simp] theorem Dev.setBlock_freeze (n : Nat) (x : BlockSt) (d : Dev) : (d.setBlock n x).freeze = d.freeze := rfl
@[simp] theorem Dev.setBlock_fabric (n : Nat) (x : BlockSt) (d : Dev) : (d.setBlock n x).fabric = d.fabric := rfl
@[simp] theorem Dev.setBlock_fw (n : Nat) (x : BlockSt) (d : Dev) : (d.setBlock n x).fw = d.fw := rfl
@[simp] theorem Dev.setBlock_settings (n : Nat) (x : BlockSt) (d : Dev) : (d.setBlock n x).settings = d.settings := rfl
@[simp] theorem Dev.setBlock_sec (n : Nat) (x : BlockSt) (d : Dev) : (d.setBlock n x).sec = d.sec := rfl
@[simp] theorem Dev.setBlock_pow (n : Nat) (x : BlockSt) (d : Dev) : (d.setBlock n x).pow = d.pow := rfl
@[simp] theorem Dev.setBlock_draws (n : Nat) (x : BlockSt) (d : Dev) : (d.setBlock n x).draws = d.draws := rfl
@[simp] theorem Dev.setBlock_out (n : Nat) (x : BlockSt) (d : Dev) : (d.setBlock n x).out = d.out := rfl

/-! ### Records of `lanes` -/

@[simp] theorem Dev.modLane_eq (n : Nat) (f : LaneSt → LaneSt) (d : Dev) : d.modLane n f = d.setLane n (f (d.lane n)) := rfl
theorem Dev.lane_setLane (n m : Nat) (x : LaneSt) (d : Dev) : (d.setLane n x).lane m = if n = m then x else d.lane m := smGet_smPut ..
@[simp] theorem Dev.lane_setLane_self (n : Nat) (x : LaneSt) (d : Dev) : (d.setLane n x).lane n = x := by rw [Dev.lane_setLane, if_pos rfl]
@[simp] theorem Dev.setLane_clk (n : Nat) (x : LaneSt) (d : Dev) : (d.setLane n x).clk = d.clk := rfl
@[simp] theorem Dev.setLane_daond (n : Nat) (x : LaneSt) (d : Dev) : (d.setLane n x).daond = d.daond := rfl
@[simp] theorem Dev.setLane_ev (n : Nat) (x : LaneSt) (d : Dev) : (d.setLane n x).ev = d.ev := rfl
@[simp] theorem Dev.setLane_cfg (n : Nat) (x : LaneSt) (d : Dev) : (d.setLane n x).cfg = d.cfg := rfl
@[simp] theorem Dev.setLane_blocks (n : Nat) (x : LaneSt) (d : Dev) : (d.setLane n x).blocks = d.blocks := rfl
@[simp] theorem Dev.setLane_ingress (n : Nat) (x : LaneSt) (d : Dev) : (d.setLane n x).ingress = d.ingress := rfl
@[simp] theorem Dev.setLane_egress (n : Nat) (x : LaneSt) (d : Dev) : (d.setLane n x).egress = d.egress := rfl
@[simp] theorem Dev.setLane_caps (n : Nat) (x : LaneSt) (d : Dev) : (d.setLane n x).caps = d.caps := rfl
@[simp] theorem Dev.setLane_rings (n : Nat) (x : LaneSt) (d : Dev) : (d.setLane n x).rings = d.rings := rfl
@[simp] theorem Dev.setLane_layers (n : Nat) (x : LaneSt) (d : Dev) : (d.setLane n x).layers = d.layers := rfl
@[simp] theorem Dev.setLane_heads (n : Nat) (x : LaneSt) (d : Dev) : (d.setLane n x).heads = d.heads := rfl
@[simp] theorem Dev.setLane_xchans (n : Nat) (x : LaneSt) (d : Dev) : (d.setLane n x).xchans = d.xchans := rfl
@[simp] theorem Dev.setLane_audio (n : Nat) (x : LaneSt) (d : Dev) : (d.setLane n x).audio = d.audio := rfl
@[simp] theorem Dev.setLane_refs (n : Nat) (x : LaneSt) (d : Dev) : (d.setLane n x).refs = d.refs := rfl
@[simp] theorem Dev.setLane_tcs (n : Nat) (x : LaneSt) (d : Dev) : (d.setLane n x).tcs = d.tcs := rfl
@[simp] theorem Dev.setLane_ckos (n : Nat) (x : LaneSt) (d : Dev) : (d.setLane n x).ckos = d.ckos := rfl
@[simp] theorem Dev.setLane_fpos (n : Nat) (x : LaneSt) (d : Dev) : (d.setLane n x).fpos = d.fpos := rfl
@[simp] theorem Dev.setLane_tpins (n : Nat) (x : LaneSt) (d : Dev) : (d.setLane n x).tpins = d.tpins := rfl
@[simp] theorem Dev.setLane_probes (n : Nat) (x : LaneSt) (d : Dev) : (d.setLane n x).probes = d.probes := rfl
@[simp] theorem Dev.setLane_freeze (n : Nat) (x : LaneSt) (d : Dev) : (d.setLane n x).freeze = d.freeze := rfl
@[simp] theorem Dev.setLane_fabric (n : Nat) (x : LaneSt) (d : Dev) : (d.setLane n x).fabric = d.fabric := rfl
@[simp] theorem Dev.setLane_fw (n : Nat) (x : LaneSt) (d : Dev) : (d.setLane n x).fw = d.fw := rfl
@[simp] theorem Dev.setLane_settings (n : Nat) (x : LaneSt) (d : Dev) : (d.setLane n x).settings = d.settings := rfl
@[simp] theorem Dev.setLane_sec (n : Nat) (x : LaneSt) (d : Dev) : (d.setLane n x).sec = d.sec := rfl
@[simp] theorem Dev.setLane_pow (n : Nat) (x : LaneSt) (d : Dev) : (d.setLane n x).pow = d.pow := rfl
@[simp] theorem Dev.setLane_draws (n : Nat) (x : LaneSt) (d : Dev) : (d.setLane n x).draws = d.draws := rfl
@[simp] theorem Dev.setLane_out (n : Nat) (x : LaneSt) (d : Dev) : (d.setLane n x).out = d.out := rfl

/-! ### Records of `ingress` -/

@[simp] theorem Dev.modIs_eq (n : Nat) (f : IngressSt → IngressSt) (d : Dev) : d.modIs n f = d.setIs n (f (d.is n)) := rfl
theorem Dev.is_setIs (n m : Nat) (x : IngressSt) (d : Dev) : (d.setIs n x).is m = if n = m then x else d.is m := smGet_smPut ..
@[simp] theorem Dev.is_setIs_self (n : Nat) (x : IngressSt) (d : Dev) : (d.setIs n x).is n = x := by rw [Dev.is_setIs, if_pos rfl]
@[simp] theorem Dev.setIs_clk (n : Nat) (x : IngressSt) (d : Dev) : (d.setIs n x).clk = d.clk := rfl
@[simp] theorem Dev.setIs_daond (n : Nat) (x : IngressSt) (d : Dev) : (d.setIs n x).daond = d.daond := rfl
@[simp] theorem Dev.setIs_ev (n : Nat) (x : IngressSt) (d : Dev) : (d.setIs n x).ev = d.ev := rfl
@[simp] theorem Dev.setIs_cfg (n : Nat) (x : IngressSt) (d : Dev) : (d.setIs n x).cfg = d.cfg := rfl
@[simp] theorem Dev.setIs_blocks (n : Nat) (x : IngressSt) (d : Dev) : (d.setIs n x).blocks = d.blocks := rfl
@[simp] theorem Dev.setIs_lanes (n : Nat) (x : IngressSt) (d : Dev) : (d.setIs n x).lanes = d.lanes := rfl
@[simp] theorem Dev.setIs_egress (n : Nat) (x : IngressSt) (d : Dev) : (d.setIs n x).egress = d.egress := rfl
@[simp] theorem Dev.setIs_caps (n : Nat) (x : IngressSt) (d : Dev) : (d.setIs n x).caps = d.caps := rfl
@[simp] theorem Dev.setIs_rings (n : Nat) (x : IngressSt) (d : Dev) : (d.setIs n x).rings = d.rings := rfl
@[simp] theorem Dev.setIs_layers (n : Nat) (x : IngressSt) (d : Dev) : (d.setIs n x).layers = d.layers := rfl
@[simp] theorem Dev.setIs_heads (n : Nat) (x : IngressSt) (d : Dev) : (d.setIs n x).heads = d.heads := rfl
@[simp] theorem Dev.setIs_xchans (n : Nat) (x : IngressSt) (d : Dev) : (d.setIs n x).xchans = d.xchans := rfl
@[simp] theorem Dev.setIs_audio (n : Nat) (x : IngressSt) (d : Dev) : (d.setIs n x).audio = d.audio := rfl
@[simp] theorem Dev.setIs_refs (n : Nat) (x : IngressSt) (d : Dev) : (d.setIs n x).refs = d.refs := rfl
@[simp] theorem Dev.setIs_tcs (n : Nat) (x : IngressSt) (d : Dev) : (d.setIs n x).tcs = d.tcs := rfl
@[simp] theorem Dev.setIs_ckos (n : Nat) (x : IngressSt) (d : Dev) : (d.setIs n x).ckos = d.ckos := rfl
@[simp] theorem Dev.setIs_fpos (n : Nat) (x : IngressSt) (d : Dev) : (d.setIs n x).fpos = d.fpos := rfl
@[simp] theorem Dev.setIs_tpins (n : Nat) (x : IngressSt) (d : Dev) : (d.setIs n x).tpins = d.tpins := rfl
@[simp] theorem Dev.setIs_probes (n : Nat) (x : IngressSt) (d : Dev) : (d.setIs n x).probes = d.probes := rfl
@[simp] theorem Dev.setIs_freeze (n : Nat) (x : IngressSt) (d : Dev) : (d.setIs n x).freeze = d.freeze := rfl
@[simp] theorem Dev.setIs_fabric (n : Nat) (x : IngressSt) (d : Dev) : (d.setIs n x).fabric = d.fabric := rfl
@[simp] theorem Dev.setIs_fw (n : Nat) (x : IngressSt) (d : Dev) : (d.setIs n x).fw = d.fw := rfl
@[simp] theorem Dev.setIs_settings (n : Nat) (x : IngressSt) (d : Dev) : (d.setIs n x).settings = d.settings := rfl
@[simp] theorem Dev.setIs_sec (n : Nat) (x : IngressSt) (d : Dev) : (d.setIs n x).sec = d.sec := rfl
@[simp] theorem Dev.setIs_pow (n : Nat) (x : IngressSt) (d : Dev) : (d.setIs n x).pow = d.pow := rfl
@[simp] theorem Dev.setIs_draws (n : Nat) (x : IngressSt) (d : Dev) : (d.setIs n x).draws = d.draws := rfl
@[simp] theorem Dev.setIs_out (n : Nat) (x : IngressSt) (d : Dev) : (d.setIs n x).out = d.out := rfl

/-! ### Records of `egress` -/

@[simp] theorem Dev.modEs_eq (n : Nat) (f : EgressSt → EgressSt) (d : Dev) : d.modEs n f = d.setEs n (f (d.es n)) := rfl
theorem Dev.es_setEs (n m : Nat) (x : EgressSt) (d : Dev) : (d.setEs n x).es m = if n = m then x else d.es m := smGet_smPut ..
@[simp] theorem Dev.es_setEs_self (n : Nat) (x : EgressSt) (d : Dev) : (d.setEs n x).es n = x := by rw [Dev.es_setEs, if_pos rfl]
@[simp] theorem Dev.setEs_clk (n : Nat) (x : EgressSt) (d : Dev) : (d.setEs n x).clk = d.clk := rfl
@[simp] theorem Dev.setEs_daond (n : Nat) (x : EgressSt) (d : Dev) : (d.setEs n x).daond = d.daond := rfl
@[simp] theorem Dev.setEs_ev (n : Nat) (x : EgressSt) (d : Dev) : (d.setEs n x).ev = d.ev := rfl
@[simp] theorem Dev.setEs_cfg (n : Nat) (x : EgressSt) (d : Dev) : (d.setEs n x).cfg = d.cfg := rfl
@[simp] theorem Dev.setEs_blocks (n : Nat) (x : EgressSt) (d : Dev) : (d.setEs n x).blocks = d.blocks := rfl
@[simp] theorem Dev.setEs_lanes (n : Nat) (x : EgressSt) (d : Dev) : (d.setEs n x).lanes = d.lanes := rfl
@[simp] theorem Dev.setEs_ingress (n : Nat) (x : EgressSt) (d : Dev) : (d.setEs n x).ingress = d.ingress := rfl
@[simp] theorem Dev.setEs_caps (n : Nat) (x : EgressSt) (d : Dev) : (d.setEs n x).caps = d.caps := rfl
@[simp] theorem Dev.setEs_rings (n : Nat) (x : EgressSt) (d : Dev) : (d.setEs n x).rings = d.rings := rfl
@[simp] theorem Dev.setEs_layers (n : Nat) (x : EgressSt) (d : Dev) : (d.setEs n x).layers = d.layers := rfl
@[simp] theorem Dev.setEs_heads (n : Nat) (x : EgressSt) (d : Dev) : (d.setEs n x).heads = d.heads := rfl
@[simp] theorem Dev.setEs_xchans (n : Nat) (x : EgressSt) (d : Dev) : (d.setEs n x).xchans = d.xchans := rfl
@[simp] theorem Dev.setEs_audio (n : Nat) (x : EgressSt) (d : Dev) : (d.setEs n x).audio = d.audio := rfl
@[simp] theorem Dev.setEs_refs (n : Nat) (x : EgressSt) (d : Dev) : (d.setEs n x).refs = d.refs := rfl
@[simp] theorem Dev.setEs_tcs (n : Nat) (x : EgressSt) (d : Dev) : (d.setEs n x).tcs = d.tcs := rfl
@[simp] theorem Dev.setEs_ckos (n : Nat) (x : EgressSt) (d : Dev) : (d.setEs n x).ckos = d.ckos := rfl
@[simp] theorem Dev.setEs_fpos (n : Nat) (x : EgressSt) (d : Dev) : (d.setEs n x).fpos = d.fpos := rfl
@[simp] theorem Dev.setEs_tpins (n : Nat) (x : EgressSt) (d : Dev) : (d.setEs n x).tpins = d.tpins := rfl
@[simp] theorem Dev.setEs_probes (n : Nat) (x : EgressSt) (d : Dev) : (d.setEs n x).probes = d.probes := rfl
@[simp] theorem Dev.setEs_freeze (n : Nat) (x : EgressSt) (d : Dev) : (d.setEs n x).freeze = d.freeze := rfl
@[simp] theorem Dev.setEs_fabric (n : Nat) (x : EgressSt) (d : Dev) : (d.setEs n x).fabric = d.fabric := rfl
@[simp] theorem Dev.setEs_fw (n : Nat) (x : EgressSt) (d : Dev) : (d.setEs n x).fw = d.fw := rfl
@[simp] theorem Dev.setEs_settings (n : Nat) (x : EgressSt) (d : Dev) : (d.setEs n x).settings = d.settings := rfl
@[simp] theorem Dev.setEs_sec (n : Nat) (x : EgressSt) (d : Dev) : (d.setEs n x).sec = d.sec := rfl
@[simp] theorem Dev.setEs_pow (n : Nat) (x : EgressSt) (d : Dev) : (d.setEs n x).pow = d.pow := rfl
@[simp] theorem Dev.setEs_draws (n : Nat) (x : EgressSt) (d : Dev) : (d.setEs n x).draws = d.draws := rfl
@[simp] theorem Dev.setEs_out (n : Nat) (x : EgressSt) (d : Dev) : (d.setEs n x).out = d.out := rfl

/-! ### Records of `caps` -/

@[simp] theorem Dev.modCap_eq (n : Nat) (f : CapSt → CapSt) (d : Dev) : d.modCap n f = d.setCap n (f (d.cap n)) := rfl
theorem Dev.cap_setCap (n m : Nat) (x : CapSt) (d : Dev) : (d.setCap n x).cap m = if n = m then x else d.cap m := smGet_smPut ..
@[simp] theorem Dev.cap_setCap_self (n : Nat) (x : CapSt) (d : Dev) : (d.setCap n x).cap n = x := by rw [Dev.cap_setCap, if_pos rfl]
@[simp] theorem Dev.setCap_clk (n : Nat) (x : CapSt) (d : Dev) : (d.setCap n x).clk = d.clk := rfl
@[simp] theorem Dev.setCap_daond (n : Nat) (x : CapSt) (d : Dev) : (d.setCap n x).daond = d.daond := rfl
@[simp] theorem Dev.setCap_ev (n : Nat) (x : CapSt) (d : Dev) : (d.setCap n x).ev = d.ev := rfl
@[simp] theorem Dev.setCap_cfg (n : Nat) (x : CapSt) (d : Dev) : (d.setCap n x).cfg = d.cfg := rfl
@[simp] theorem Dev.setCap_blocks (n : Nat) (x : CapSt) (d : Dev) : (d.setCap n x).blocks = d.blocks := rfl
@[simp] theorem Dev.setCap_lanes (n : Nat) (x : CapSt) (d : Dev) : (d.setCap n x).lanes = d.lanes := rfl
@[simp] theorem Dev.setCap_ingress (n : Nat) (x : CapSt) (d : Dev) : (d.setCap n x).ingress = d.ingress := rfl
@[simp] theorem Dev.setCap_egress (n : Nat) (x : CapSt) (d : Dev) : (d.setCap n x).egress = d.egress := rfl
@[simp] theorem Dev.setCap_rings (n : Nat) (x : CapSt) (d : Dev) : (d.setCap n x).rings = d.rings := rfl
@[simp] theorem Dev.setCap_layers (n : Nat) (x : CapSt) (d : Dev) : (d.setCap n x).layers = d.layers := rfl
@[simp] theorem Dev.setCap_heads (n : Nat) (x : CapSt) (d : Dev) : (d.setCap n x).heads = d.heads := rfl
@[simp] theorem Dev.setCap_xchans (n : Nat) (x : CapSt) (d : Dev) : (d.setCap n x).xchans = d.xchans := rfl
@[simp] theorem Dev.setCap_audio (n : Nat) (x : CapSt) (d : Dev) : (d.setCap n x).audio = d.audio := rfl
@[simp] theorem Dev.setCap_refs (n : Nat) (x : CapSt) (d : Dev) : (d.setCap n x).refs = d.refs := rfl
@[simp] theorem Dev.setCap_tcs (n : Nat) (x : CapSt) (d : Dev) : (d.setCap n x).tcs = d.tcs := rfl
@[simp] theorem Dev.setCap_ckos (n : Nat) (x : CapSt) (d : Dev) : (d.setCap n x).ckos = d.ckos := rfl
@[simp] theorem Dev.setCap_fpos (n : Nat) (x : CapSt) (d : Dev) : (d.setCap n x).fpos = d.fpos := rfl
@[simp] theorem Dev.setCap_tpins (n : Nat) (x : CapSt) (d : Dev) : (d.setCap n x).tpins = d.tpins := rfl
@[simp] theorem Dev.setCap_probes (n : Nat) (x : CapSt) (d : Dev) : (d.setCap n x).probes = d.probes := rfl
@[simp] theorem Dev.setCap_freeze (n : Nat) (x : CapSt) (d : Dev) : (d.setCap n x).freeze = d.freeze := rfl
@[simp] theorem Dev.setCap_fabric (n : Nat) (x : CapSt) (d : Dev) : (d.setCap n x).fabric = d.fabric := rfl
@[simp] theorem Dev.setCap_fw (n : Nat) (x : CapSt) (d : Dev) : (d.setCap n x).fw = d.fw := rfl
@[simp] theorem Dev.setCap_settings (n : Nat) (x : CapSt) (d : Dev) : (d.setCap n x).settings = d.settings := rfl
@[simp] theorem Dev.setCap_sec (n : Nat) (x : CapSt) (d : Dev) : (d.setCap n x).sec = d.sec := rfl
@[simp] theorem Dev.setCap_pow (n : Nat) (x : CapSt) (d : Dev) : (d.setCap n x).pow = d.pow := rfl
@[simp] theorem Dev.setCap_draws (n : Nat) (x : CapSt) (d : Dev) : (d.setCap n x).draws = d.draws := rfl
@[simp] theorem Dev.setCap_out (n : Nat) (x : CapSt) (d : Dev) : (d.setCap n x).out = d.out := rfl

/-! ### Records of `rings` -/

@[simp] theorem Dev.modRing_eq (n : Nat) (f : SurfaceSt → SurfaceSt) (d : Dev) : d.modRing n f = d.setRing n (f (d.ring n)) := rfl
theorem Dev.ring_setRing (n m : Nat) (x : SurfaceSt) (d : Dev) : (d.setRing n x).ring m = if n = m then x else d.ring m := smGet_smPut ..
@[simp] theorem Dev.ring_setRing_self (n : Nat) (x : SurfaceSt) (d : Dev) : (d.setRing n x).ring n = x := by rw [Dev.ring_setRing, if_pos rfl]
@[simp] theorem Dev.setRing_clk (n : Nat) (x : SurfaceSt) (d : Dev) : (d.setRing n x).clk = d.clk := rfl
@[simp] theorem Dev.setRing_daond (n : Nat) (x : SurfaceSt) (d : Dev) : (d.setRing n x).daond = d.daond := rfl
@[simp] theorem Dev.setRing_ev (n : Nat) (x : SurfaceSt) (d : Dev) : (d.setRing n x).ev = d.ev := rfl
@[simp] theorem Dev.setRing_cfg (n : Nat) (x : SurfaceSt) (d : Dev) : (d.setRing n x).cfg = d.cfg := rfl
@[simp] theorem Dev.setRing_blocks (n : Nat) (x : SurfaceSt) (d : Dev) : (d.setRing n x).blocks = d.blocks := rfl
@[simp] theorem Dev.setRing_lanes (n : Nat) (x : SurfaceSt) (d : Dev) : (d.setRing n x).lanes = d.lanes := rfl
@[simp] theorem Dev.setRing_ingress (n : Nat) (x : SurfaceSt) (d : Dev) : (d.setRing n x).ingress = d.ingress := rfl
@[simp] theorem Dev.setRing_egress (n : Nat) (x : SurfaceSt) (d : Dev) : (d.setRing n x).egress = d.egress := rfl
@[simp] theorem Dev.setRing_caps (n : Nat) (x : SurfaceSt) (d : Dev) : (d.setRing n x).caps = d.caps := rfl
@[simp] theorem Dev.setRing_layers (n : Nat) (x : SurfaceSt) (d : Dev) : (d.setRing n x).layers = d.layers := rfl
@[simp] theorem Dev.setRing_heads (n : Nat) (x : SurfaceSt) (d : Dev) : (d.setRing n x).heads = d.heads := rfl
@[simp] theorem Dev.setRing_xchans (n : Nat) (x : SurfaceSt) (d : Dev) : (d.setRing n x).xchans = d.xchans := rfl
@[simp] theorem Dev.setRing_audio (n : Nat) (x : SurfaceSt) (d : Dev) : (d.setRing n x).audio = d.audio := rfl
@[simp] theorem Dev.setRing_refs (n : Nat) (x : SurfaceSt) (d : Dev) : (d.setRing n x).refs = d.refs := rfl
@[simp] theorem Dev.setRing_tcs (n : Nat) (x : SurfaceSt) (d : Dev) : (d.setRing n x).tcs = d.tcs := rfl
@[simp] theorem Dev.setRing_ckos (n : Nat) (x : SurfaceSt) (d : Dev) : (d.setRing n x).ckos = d.ckos := rfl
@[simp] theorem Dev.setRing_fpos (n : Nat) (x : SurfaceSt) (d : Dev) : (d.setRing n x).fpos = d.fpos := rfl
@[simp] theorem Dev.setRing_tpins (n : Nat) (x : SurfaceSt) (d : Dev) : (d.setRing n x).tpins = d.tpins := rfl
@[simp] theorem Dev.setRing_probes (n : Nat) (x : SurfaceSt) (d : Dev) : (d.setRing n x).probes = d.probes := rfl
@[simp] theorem Dev.setRing_freeze (n : Nat) (x : SurfaceSt) (d : Dev) : (d.setRing n x).freeze = d.freeze := rfl
@[simp] theorem Dev.setRing_fabric (n : Nat) (x : SurfaceSt) (d : Dev) : (d.setRing n x).fabric = d.fabric := rfl
@[simp] theorem Dev.setRing_fw (n : Nat) (x : SurfaceSt) (d : Dev) : (d.setRing n x).fw = d.fw := rfl
@[simp] theorem Dev.setRing_settings (n : Nat) (x : SurfaceSt) (d : Dev) : (d.setRing n x).settings = d.settings := rfl
@[simp] theorem Dev.setRing_sec (n : Nat) (x : SurfaceSt) (d : Dev) : (d.setRing n x).sec = d.sec := rfl
@[simp] theorem Dev.setRing_pow (n : Nat) (x : SurfaceSt) (d : Dev) : (d.setRing n x).pow = d.pow := rfl
@[simp] theorem Dev.setRing_draws (n : Nat) (x : SurfaceSt) (d : Dev) : (d.setRing n x).draws = d.draws := rfl
@[simp] theorem Dev.setRing_out (n : Nat) (x : SurfaceSt) (d : Dev) : (d.setRing n x).out = d.out := rfl

/-! ### Records of `layers` -/

@[simp] theorem Dev.modLayer_eq (n : Nat) (f : LayerSt → LayerSt) (d : Dev) : d.modLayer n f = d.setLayer n (f (d.layer n)) := rfl
theorem Dev.layer_setLayer (n m : Nat) (x : LayerSt) (d : Dev) : (d.setLayer n x).layer m = if n = m then x else d.layer m := smGet_smPut ..
@[simp] theorem Dev.layer_setLayer_self (n : Nat) (x : LayerSt) (d : Dev) : (d.setLayer n x).layer n = x := by rw [Dev.layer_setLayer, if_pos rfl]
@[simp] theorem Dev.setLayer_clk (n : Nat) (x : LayerSt) (d : Dev) : (d.setLayer n x).clk = d.clk := rfl
@[simp] theorem Dev.setLayer_daond (n : Nat) (x : LayerSt) (d : Dev) : (d.setLayer n x).daond = d.daond := rfl
@[simp] theorem Dev.setLayer_ev (n : Nat) (x : LayerSt) (d : Dev) : (d.setLayer n x).ev = d.ev := rfl
@[simp] theorem Dev.setLayer_cfg (n : Nat) (x : LayerSt) (d : Dev) : (d.setLayer n x).cfg = d.cfg := rfl
@[simp] theorem Dev.setLayer_blocks (n : Nat) (x : LayerSt) (d : Dev) : (d.setLayer n x).blocks = d.blocks := rfl
@[simp] theorem Dev.setLayer_lanes (n : Nat) (x : LayerSt) (d : Dev) : (d.setLayer n x).lanes = d.lanes := rfl
@[simp] theorem Dev.setLayer_ingress (n : Nat) (x : LayerSt) (d : Dev) : (d.setLayer n x).ingress = d.ingress := rfl
@[simp] theorem Dev.setLayer_egress (n : Nat) (x : LayerSt) (d : Dev) : (d.setLayer n x).egress = d.egress := rfl
@[simp] theorem Dev.setLayer_caps (n : Nat) (x : LayerSt) (d : Dev) : (d.setLayer n x).caps = d.caps := rfl
@[simp] theorem Dev.setLayer_rings (n : Nat) (x : LayerSt) (d : Dev) : (d.setLayer n x).rings = d.rings := rfl
@[simp] theorem Dev.setLayer_heads (n : Nat) (x : LayerSt) (d : Dev) : (d.setLayer n x).heads = d.heads := rfl
@[simp] theorem Dev.setLayer_xchans (n : Nat) (x : LayerSt) (d : Dev) : (d.setLayer n x).xchans = d.xchans := rfl
@[simp] theorem Dev.setLayer_audio (n : Nat) (x : LayerSt) (d : Dev) : (d.setLayer n x).audio = d.audio := rfl
@[simp] theorem Dev.setLayer_refs (n : Nat) (x : LayerSt) (d : Dev) : (d.setLayer n x).refs = d.refs := rfl
@[simp] theorem Dev.setLayer_tcs (n : Nat) (x : LayerSt) (d : Dev) : (d.setLayer n x).tcs = d.tcs := rfl
@[simp] theorem Dev.setLayer_ckos (n : Nat) (x : LayerSt) (d : Dev) : (d.setLayer n x).ckos = d.ckos := rfl
@[simp] theorem Dev.setLayer_fpos (n : Nat) (x : LayerSt) (d : Dev) : (d.setLayer n x).fpos = d.fpos := rfl
@[simp] theorem Dev.setLayer_tpins (n : Nat) (x : LayerSt) (d : Dev) : (d.setLayer n x).tpins = d.tpins := rfl
@[simp] theorem Dev.setLayer_probes (n : Nat) (x : LayerSt) (d : Dev) : (d.setLayer n x).probes = d.probes := rfl
@[simp] theorem Dev.setLayer_freeze (n : Nat) (x : LayerSt) (d : Dev) : (d.setLayer n x).freeze = d.freeze := rfl
@[simp] theorem Dev.setLayer_fabric (n : Nat) (x : LayerSt) (d : Dev) : (d.setLayer n x).fabric = d.fabric := rfl
@[simp] theorem Dev.setLayer_fw (n : Nat) (x : LayerSt) (d : Dev) : (d.setLayer n x).fw = d.fw := rfl
@[simp] theorem Dev.setLayer_settings (n : Nat) (x : LayerSt) (d : Dev) : (d.setLayer n x).settings = d.settings := rfl
@[simp] theorem Dev.setLayer_sec (n : Nat) (x : LayerSt) (d : Dev) : (d.setLayer n x).sec = d.sec := rfl
@[simp] theorem Dev.setLayer_pow (n : Nat) (x : LayerSt) (d : Dev) : (d.setLayer n x).pow = d.pow := rfl
@[simp] theorem Dev.setLayer_draws (n : Nat) (x : LayerSt) (d : Dev) : (d.setLayer n x).draws = d.draws := rfl
@[simp] theorem Dev.setLayer_out (n : Nat) (x : LayerSt) (d : Dev) : (d.setLayer n x).out = d.out := rfl

/-! ### Records of `heads` -/

@[simp] theorem Dev.modHead_eq (n : Nat) (f : HeadSt → HeadSt) (d : Dev) : d.modHead n f = d.setHead n (f (d.head n)) := rfl
theorem Dev.head_setHead (n m : Nat) (x : HeadSt) (d : Dev) : (d.setHead n x).head m = if n = m then x else d.head m := smGet_smPut ..
@[simp] theorem Dev.head_setHead_self (n : Nat) (x : HeadSt) (d : Dev) : (d.setHead n x).head n = x := by rw [Dev.head_setHead, if_pos rfl]
@[simp] theorem Dev.setHead_clk (n : Nat) (x : HeadSt) (d : Dev) : (d.setHead n x).clk = d.clk := rfl
@[simp] theorem Dev.setHead_daond (n : Nat) (x : HeadSt) (d : Dev) : (d.setHead n x).daond = d.daond := rfl
@[simp] theorem Dev.setHead_ev (n : Nat) (x : HeadSt) (d : Dev) : (d.setHead n x).ev = d.ev := rfl
@[simp] theorem Dev.setHead_cfg (n : Nat) (x : HeadSt) (d : Dev) : (d.setHead n x).cfg = d.cfg := rfl
@[simp] theorem Dev.setHead_blocks (n : Nat) (x : HeadSt) (d : Dev) : (d.setHead n x).blocks = d.blocks := rfl
@[simp] theorem Dev.setHead_lanes (n : Nat) (x : HeadSt) (d : Dev) : (d.setHead n x).lanes = d.lanes := rfl
@[simp] theorem Dev.setHead_ingress (n : Nat) (x : HeadSt) (d : Dev) : (d.setHead n x).ingress = d.ingress := rfl
@[simp] theorem Dev.setHead_egress (n : Nat) (x : HeadSt) (d : Dev) : (d.setHead n x).egress = d.egress := rfl
@[simp] theorem Dev.setHead_caps (n : Nat) (x : HeadSt) (d : Dev) : (d.setHead n x).caps = d.caps := rfl
@[simp] theorem Dev.setHead_rings (n : Nat) (x : HeadSt) (d : Dev) : (d.setHead n x).rings = d.rings := rfl
@[simp] theorem Dev.setHead_layers (n : Nat) (x : HeadSt) (d : Dev) : (d.setHead n x).layers = d.layers := rfl
@[simp] theorem Dev.setHead_xchans (n : Nat) (x : HeadSt) (d : Dev) : (d.setHead n x).xchans = d.xchans := rfl
@[simp] theorem Dev.setHead_audio (n : Nat) (x : HeadSt) (d : Dev) : (d.setHead n x).audio = d.audio := rfl
@[simp] theorem Dev.setHead_refs (n : Nat) (x : HeadSt) (d : Dev) : (d.setHead n x).refs = d.refs := rfl
@[simp] theorem Dev.setHead_tcs (n : Nat) (x : HeadSt) (d : Dev) : (d.setHead n x).tcs = d.tcs := rfl
@[simp] theorem Dev.setHead_ckos (n : Nat) (x : HeadSt) (d : Dev) : (d.setHead n x).ckos = d.ckos := rfl
@[simp] theorem Dev.setHead_fpos (n : Nat) (x : HeadSt) (d : Dev) : (d.setHead n x).fpos = d.fpos := rfl
@[simp] theorem Dev.setHead_tpins (n : Nat) (x : HeadSt) (d : Dev) : (d.setHead n x).tpins = d.tpins := rfl
@[simp] theorem Dev.setHead_probes (n : Nat) (x : HeadSt) (d : Dev) : (d.setHead n x).probes = d.probes := rfl
@[simp] theorem Dev.setHead_freeze (n : Nat) (x : HeadSt) (d : Dev) : (d.setHead n x).freeze = d.freeze := rfl
@[simp] theorem Dev.setHead_fabric (n : Nat) (x : HeadSt) (d : Dev) : (d.setHead n x).fabric = d.fabric := rfl
@[simp] theorem Dev.setHead_fw (n : Nat) (x : HeadSt) (d : Dev) : (d.setHead n x).fw = d.fw := rfl
@[simp] theorem Dev.setHead_settings (n : Nat) (x : HeadSt) (d : Dev) : (d.setHead n x).settings = d.settings := rfl
@[simp] theorem Dev.setHead_sec (n : Nat) (x : HeadSt) (d : Dev) : (d.setHead n x).sec = d.sec := rfl
@[simp] theorem Dev.setHead_pow (n : Nat) (x : HeadSt) (d : Dev) : (d.setHead n x).pow = d.pow := rfl
@[simp] theorem Dev.setHead_draws (n : Nat) (x : HeadSt) (d : Dev) : (d.setHead n x).draws = d.draws := rfl
@[simp] theorem Dev.setHead_out (n : Nat) (x : HeadSt) (d : Dev) : (d.setHead n x).out = d.out := rfl

/-! ### Records of `xchans` -/

@[simp] theorem Dev.modXchan_eq (n : Nat) (f : Xc → Xc) (d : Dev) : d.modXchan n f = d.setXchan n (f (d.xchan n)) := rfl
theorem Dev.xchan_setXchan (n m : Nat) (x : Xc) (d : Dev) : (d.setXchan n x).xchan m = if n = m then x else d.xchan m := smGet_smPut ..
@[simp] theorem Dev.xchan_setXchan_self (n : Nat) (x : Xc) (d : Dev) : (d.setXchan n x).xchan n = x := by rw [Dev.xchan_setXchan, if_pos rfl]
@[simp] theorem Dev.setXchan_clk (n : Nat) (x : Xc) (d : Dev) : (d.setXchan n x).clk = d.clk := rfl
@[simp] theorem Dev.setXchan_daond (n : Nat) (x : Xc) (d : Dev) : (d.setXchan n x).daond = d.daond := rfl
@[simp] theorem Dev.setXchan_ev (n : Nat) (x : Xc) (d : Dev) : (d.setXchan n x).ev = d.ev := rfl
@[simp] theorem Dev.setXchan_cfg (n : Nat) (x : Xc) (d : Dev) : (d.setXchan n x).cfg = d.cfg := rfl
@[simp] theorem Dev.setXchan_blocks (n : Nat) (x : Xc) (d : Dev) : (d.setXchan n x).blocks = d.blocks := rfl
@[simp] theorem Dev.setXchan_lanes (n : Nat) (x : Xc) (d : Dev) : (d.setXchan n x).lanes = d.lanes := rfl
@[simp] theorem Dev.setXchan_ingress (n : Nat) (x : Xc) (d : Dev) : (d.setXchan n x).ingress = d.ingress := rfl
@[simp] theorem Dev.setXchan_egress (n : Nat) (x : Xc) (d : Dev) : (d.setXchan n x).egress = d.egress := rfl
@[simp] theorem Dev.setXchan_caps (n : Nat) (x : Xc) (d : Dev) : (d.setXchan n x).caps = d.caps := rfl
@[simp] theorem Dev.setXchan_rings (n : Nat) (x : Xc) (d : Dev) : (d.setXchan n x).rings = d.rings := rfl
@[simp] theorem Dev.setXchan_layers (n : Nat) (x : Xc) (d : Dev) : (d.setXchan n x).layers = d.layers := rfl
@[simp] theorem Dev.setXchan_heads (n : Nat) (x : Xc) (d : Dev) : (d.setXchan n x).heads = d.heads := rfl
@[simp] theorem Dev.setXchan_audio (n : Nat) (x : Xc) (d : Dev) : (d.setXchan n x).audio = d.audio := rfl
@[simp] theorem Dev.setXchan_refs (n : Nat) (x : Xc) (d : Dev) : (d.setXchan n x).refs = d.refs := rfl
@[simp] theorem Dev.setXchan_tcs (n : Nat) (x : Xc) (d : Dev) : (d.setXchan n x).tcs = d.tcs := rfl
@[simp] theorem Dev.setXchan_ckos (n : Nat) (x : Xc) (d : Dev) : (d.setXchan n x).ckos = d.ckos := rfl
@[simp] theorem Dev.setXchan_fpos (n : Nat) (x : Xc) (d : Dev) : (d.setXchan n x).fpos = d.fpos := rfl
@[simp] theorem Dev.setXchan_tpins (n : Nat) (x : Xc) (d : Dev) : (d.setXchan n x).tpins = d.tpins := rfl
@[simp] theorem Dev.setXchan_probes (n : Nat) (x : Xc) (d : Dev) : (d.setXchan n x).probes = d.probes := rfl
@[simp] theorem Dev.setXchan_freeze (n : Nat) (x : Xc) (d : Dev) : (d.setXchan n x).freeze = d.freeze := rfl
@[simp] theorem Dev.setXchan_fabric (n : Nat) (x : Xc) (d : Dev) : (d.setXchan n x).fabric = d.fabric := rfl
@[simp] theorem Dev.setXchan_fw (n : Nat) (x : Xc) (d : Dev) : (d.setXchan n x).fw = d.fw := rfl
@[simp] theorem Dev.setXchan_settings (n : Nat) (x : Xc) (d : Dev) : (d.setXchan n x).settings = d.settings := rfl
@[simp] theorem Dev.setXchan_sec (n : Nat) (x : Xc) (d : Dev) : (d.setXchan n x).sec = d.sec := rfl
@[simp] theorem Dev.setXchan_pow (n : Nat) (x : Xc) (d : Dev) : (d.setXchan n x).pow = d.pow := rfl
@[simp] theorem Dev.setXchan_draws (n : Nat) (x : Xc) (d : Dev) : (d.setXchan n x).draws = d.draws := rfl
@[simp] theorem Dev.setXchan_out (n : Nat) (x : Xc) (d : Dev) : (d.setXchan n x).out = d.out := rfl

/-! ### Records of `audio` -/

@[simp] theorem Dev.modEc_eq (n : Nat) (f : EcSt → EcSt) (d : Dev) : d.modEc n f = d.setEc n (f (d.ec n)) := rfl
theorem Dev.ec_setEc (n m : Nat) (x : EcSt) (d : Dev) : (d.setEc n x).ec m = if n = m then x else d.ec m := smGet_smPut ..
@[simp] theorem Dev.ec_setEc_self (n : Nat) (x : EcSt) (d : Dev) : (d.setEc n x).ec n = x := by rw [Dev.ec_setEc, if_pos rfl]
@[simp] theorem Dev.setEc_clk (n : Nat) (x : EcSt) (d : Dev) : (d.setEc n x).clk = d.clk := rfl
@[simp] theorem Dev.setEc_daond (n : Nat) (x : EcSt) (d : Dev) : (d.setEc n x).daond = d.daond := rfl
@[simp] theorem Dev.setEc_ev (n : Nat) (x : EcSt) (d : Dev) : (d.setEc n x).ev = d.ev := rfl
@[simp] theorem Dev.setEc_cfg (n : Nat) (x : EcSt) (d : Dev) : (d.setEc n x).cfg = d.cfg := rfl
@[simp] theorem Dev.setEc_blocks (n : Nat) (x : EcSt) (d : Dev) : (d.setEc n x).blocks = d.blocks := rfl
@[simp] theorem Dev.setEc_lanes (n : Nat) (x : EcSt) (d : Dev) : (d.setEc n x).lanes = d.lanes := rfl
@[simp] theorem Dev.setEc_ingress (n : Nat) (x : EcSt) (d : Dev) : (d.setEc n x).ingress = d.ingress := rfl
@[simp] theorem Dev.setEc_egress (n : Nat) (x : EcSt) (d : Dev) : (d.setEc n x).egress = d.egress := rfl
@[simp] theorem Dev.setEc_caps (n : Nat) (x : EcSt) (d : Dev) : (d.setEc n x).caps = d.caps := rfl
@[simp] theorem Dev.setEc_rings (n : Nat) (x : EcSt) (d : Dev) : (d.setEc n x).rings = d.rings := rfl
@[simp] theorem Dev.setEc_layers (n : Nat) (x : EcSt) (d : Dev) : (d.setEc n x).layers = d.layers := rfl
@[simp] theorem Dev.setEc_heads (n : Nat) (x : EcSt) (d : Dev) : (d.setEc n x).heads = d.heads := rfl
@[simp] theorem Dev.setEc_xchans (n : Nat) (x : EcSt) (d : Dev) : (d.setEc n x).xchans = d.xchans := rfl
@[simp] theorem Dev.setEc_refs (n : Nat) (x : EcSt) (d : Dev) : (d.setEc n x).refs = d.refs := rfl
@[simp] theorem Dev.setEc_tcs (n : Nat) (x : EcSt) (d : Dev) : (d.setEc n x).tcs = d.tcs := rfl
@[simp] theorem Dev.setEc_ckos (n : Nat) (x : EcSt) (d : Dev) : (d.setEc n x).ckos = d.ckos := rfl
@[simp] theorem Dev.setEc_fpos (n : Nat) (x : EcSt) (d : Dev) : (d.setEc n x).fpos = d.fpos := rfl
@[simp] theorem Dev.setEc_tpins (n : Nat) (x : EcSt) (d : Dev) : (d.setEc n x).tpins = d.tpins := rfl
@[simp] theorem Dev.setEc_probes (n : Nat) (x : EcSt) (d : Dev) : (d.setEc n x).probes = d.probes := rfl
@[simp] theorem Dev.setEc_freeze (n : Nat) (x : EcSt) (d : Dev) : (d.setEc n x).freeze = d.freeze := rfl
@[simp] theorem Dev.setEc_fabric (n : Nat) (x : EcSt) (d : Dev) : (d.setEc n x).fabric = d.fabric := rfl
@[simp] theorem Dev.setEc_fw (n : Nat) (x : EcSt) (d : Dev) : (d.setEc n x).fw = d.fw := rfl
@[simp] theorem Dev.setEc_settings (n : Nat) (x : EcSt) (d : Dev) : (d.setEc n x).settings = d.settings := rfl
@[simp] theorem Dev.setEc_sec (n : Nat) (x : EcSt) (d : Dev) : (d.setEc n x).sec = d.sec := rfl
@[simp] theorem Dev.setEc_pow (n : Nat) (x : EcSt) (d : Dev) : (d.setEc n x).pow = d.pow := rfl
@[simp] theorem Dev.setEc_draws (n : Nat) (x : EcSt) (d : Dev) : (d.setEc n x).draws = d.draws := rfl
@[simp] theorem Dev.setEc_out (n : Nat) (x : EcSt) (d : Dev) : (d.setEc n x).out = d.out := rfl

/-! ### Records of `refs` -/

@[simp] theorem Dev.modRef_eq (n : Nat) (f : RefSt → RefSt) (d : Dev) : d.modRef n f = d.setRef n (f (d.ref n)) := rfl
theorem Dev.ref_setRef (n m : Nat) (x : RefSt) (d : Dev) : (d.setRef n x).ref m = if n = m then x else d.ref m := smGet_smPut ..
@[simp] theorem Dev.ref_setRef_self (n : Nat) (x : RefSt) (d : Dev) : (d.setRef n x).ref n = x := by rw [Dev.ref_setRef, if_pos rfl]
@[simp] theorem Dev.setRef_clk (n : Nat) (x : RefSt) (d : Dev) : (d.setRef n x).clk = d.clk := rfl
@[simp] theorem Dev.setRef_daond (n : Nat) (x : RefSt) (d : Dev) : (d.setRef n x).daond = d.daond := rfl
@[simp] theorem Dev.setRef_ev (n : Nat) (x : RefSt) (d : Dev) : (d.setRef n x).ev = d.ev := rfl
@[simp] theorem Dev.setRef_cfg (n : Nat) (x : RefSt) (d : Dev) : (d.setRef n x).cfg = d.cfg := rfl
@[simp] theorem Dev.setRef_blocks (n : Nat) (x : RefSt) (d : Dev) : (d.setRef n x).blocks = d.blocks := rfl
@[simp] theorem Dev.setRef_lanes (n : Nat) (x : RefSt) (d : Dev) : (d.setRef n x).lanes = d.lanes := rfl
@[simp] theorem Dev.setRef_ingress (n : Nat) (x : RefSt) (d : Dev) : (d.setRef n x).ingress = d.ingress := rfl
@[simp] theorem Dev.setRef_egress (n : Nat) (x : RefSt) (d : Dev) : (d.setRef n x).egress = d.egress := rfl
@[simp] theorem Dev.setRef_caps (n : Nat) (x : RefSt) (d : Dev) : (d.setRef n x).caps = d.caps := rfl
@[simp] theorem Dev.setRef_rings (n : Nat) (x : RefSt) (d : Dev) : (d.setRef n x).rings = d.rings := rfl
@[simp] theorem Dev.setRef_layers (n : Nat) (x : RefSt) (d : Dev) : (d.setRef n x).layers = d.layers := rfl
@[simp] theorem Dev.setRef_heads (n : Nat) (x : RefSt) (d : Dev) : (d.setRef n x).heads = d.heads := rfl
@[simp] theorem Dev.setRef_xchans (n : Nat) (x : RefSt) (d : Dev) : (d.setRef n x).xchans = d.xchans := rfl
@[simp] theorem Dev.setRef_audio (n : Nat) (x : RefSt) (d : Dev) : (d.setRef n x).audio = d.audio := rfl
@[simp] theorem Dev.setRef_tcs (n : Nat) (x : RefSt) (d : Dev) : (d.setRef n x).tcs = d.tcs := rfl
@[simp] theorem Dev.setRef_ckos (n : Nat) (x : RefSt) (d : Dev) : (d.setRef n x).ckos = d.ckos := rfl
@[simp] theorem Dev.setRef_fpos (n : Nat) (x : RefSt) (d : Dev) : (d.setRef n x).fpos = d.fpos := rfl
@[simp] theorem Dev.setRef_tpins (n : Nat) (x : RefSt) (d : Dev) : (d.setRef n x).tpins = d.tpins := rfl
@[simp] theorem Dev.setRef_probes (n : Nat) (x : RefSt) (d : Dev) : (d.setRef n x).probes = d.probes := rfl
@[simp] theorem Dev.setRef_freeze (n : Nat) (x : RefSt) (d : Dev) : (d.setRef n x).freeze = d.freeze := rfl
@[simp] theorem Dev.setRef_fabric (n : Nat) (x : RefSt) (d : Dev) : (d.setRef n x).fabric = d.fabric := rfl
@[simp] theorem Dev.setRef_fw (n : Nat) (x : RefSt) (d : Dev) : (d.setRef n x).fw = d.fw := rfl
@[simp] theorem Dev.setRef_settings (n : Nat) (x : RefSt) (d : Dev) : (d.setRef n x).settings = d.settings := rfl
@[simp] theorem Dev.setRef_sec (n : Nat) (x : RefSt) (d : Dev) : (d.setRef n x).sec = d.sec := rfl
@[simp] theorem Dev.setRef_pow (n : Nat) (x : RefSt) (d : Dev) : (d.setRef n x).pow = d.pow := rfl
@[simp] theorem Dev.setRef_draws (n : Nat) (x : RefSt) (d : Dev) : (d.setRef n x).draws = d.draws := rfl
@[simp] theorem Dev.setRef_out (n : Nat) (x : RefSt) (d : Dev) : (d.setRef n x).out = d.out := rfl

/-! ### Records of `tcs` -/

@[simp] theorem Dev.modTc_eq (n : Nat) (f : TcSt → TcSt) (d : Dev) : d.modTc n f = d.setTc n (f (d.tc n)) := rfl
theorem Dev.tc_setTc (n m : Nat) (x : TcSt) (d : Dev) : (d.setTc n x).tc m = if n = m then x else d.tc m := smGet_smPut ..
@[simp] theorem Dev.tc_setTc_self (n : Nat) (x : TcSt) (d : Dev) : (d.setTc n x).tc n = x := by rw [Dev.tc_setTc, if_pos rfl]
@[simp] theorem Dev.setTc_clk (n : Nat) (x : TcSt) (d : Dev) : (d.setTc n x).clk = d.clk := rfl
@[simp] theorem Dev.setTc_daond (n : Nat) (x : TcSt) (d : Dev) : (d.setTc n x).daond = d.daond := rfl
@[simp] theorem Dev.setTc_ev (n : Nat) (x : TcSt) (d : Dev) : (d.setTc n x).ev = d.ev := rfl
@[simp] theorem Dev.setTc_cfg (n : Nat) (x : TcSt) (d : Dev) : (d.setTc n x).cfg = d.cfg := rfl
@[simp] theorem Dev.setTc_blocks (n : Nat) (x : TcSt) (d : Dev) : (d.setTc n x).blocks = d.blocks := rfl
@[simp] theorem Dev.setTc_lanes (n : Nat) (x : TcSt) (d : Dev) : (d.setTc n x).lanes = d.lanes := rfl
@[simp] theorem Dev.setTc_ingress (n : Nat) (x : TcSt) (d : Dev) : (d.setTc n x).ingress = d.ingress := rfl
@[simp] theorem Dev.setTc_egress (n : Nat) (x : TcSt) (d : Dev) : (d.setTc n x).egress = d.egress := rfl
@[simp] theorem Dev.setTc_caps (n : Nat) (x : TcSt) (d : Dev) : (d.setTc n x).caps = d.caps := rfl
@[simp] theorem Dev.setTc_rings (n : Nat) (x : TcSt) (d : Dev) : (d.setTc n x).rings = d.rings := rfl
@[simp] theorem Dev.setTc_layers (n : Nat) (x : TcSt) (d : Dev) : (d.setTc n x).layers = d.layers := rfl
@[simp] theorem Dev.setTc_heads (n : Nat) (x : TcSt) (d : Dev) : (d.setTc n x).heads = d.heads := rfl
@[simp] theorem Dev.setTc_xchans (n : Nat) (x : TcSt) (d : Dev) : (d.setTc n x).xchans = d.xchans := rfl
@[simp] theorem Dev.setTc_audio (n : Nat) (x : TcSt) (d : Dev) : (d.setTc n x).audio = d.audio := rfl
@[simp] theorem Dev.setTc_refs (n : Nat) (x : TcSt) (d : Dev) : (d.setTc n x).refs = d.refs := rfl
@[simp] theorem Dev.setTc_ckos (n : Nat) (x : TcSt) (d : Dev) : (d.setTc n x).ckos = d.ckos := rfl
@[simp] theorem Dev.setTc_fpos (n : Nat) (x : TcSt) (d : Dev) : (d.setTc n x).fpos = d.fpos := rfl
@[simp] theorem Dev.setTc_tpins (n : Nat) (x : TcSt) (d : Dev) : (d.setTc n x).tpins = d.tpins := rfl
@[simp] theorem Dev.setTc_probes (n : Nat) (x : TcSt) (d : Dev) : (d.setTc n x).probes = d.probes := rfl
@[simp] theorem Dev.setTc_freeze (n : Nat) (x : TcSt) (d : Dev) : (d.setTc n x).freeze = d.freeze := rfl
@[simp] theorem Dev.setTc_fabric (n : Nat) (x : TcSt) (d : Dev) : (d.setTc n x).fabric = d.fabric := rfl
@[simp] theorem Dev.setTc_fw (n : Nat) (x : TcSt) (d : Dev) : (d.setTc n x).fw = d.fw := rfl
@[simp] theorem Dev.setTc_settings (n : Nat) (x : TcSt) (d : Dev) : (d.setTc n x).settings = d.settings := rfl
@[simp] theorem Dev.setTc_sec (n : Nat) (x : TcSt) (d : Dev) : (d.setTc n x).sec = d.sec := rfl
@[simp] theorem Dev.setTc_pow (n : Nat) (x : TcSt) (d : Dev) : (d.setTc n x).pow = d.pow := rfl
@[simp] theorem Dev.setTc_draws (n : Nat) (x : TcSt) (d : Dev) : (d.setTc n x).draws = d.draws := rfl
@[simp] theorem Dev.setTc_out (n : Nat) (x : TcSt) (d : Dev) : (d.setTc n x).out = d.out := rfl

/-! ### Records of `ckos` -/

@[simp] theorem Dev.modCko_eq (n : Nat) (f : CkoSt → CkoSt) (d : Dev) : d.modCko n f = d.setCko n (f (d.cko n)) := rfl
theorem Dev.cko_setCko (n m : Nat) (x : CkoSt) (d : Dev) : (d.setCko n x).cko m = if n = m then x else d.cko m := smGet_smPut ..
@[simp] theorem Dev.cko_setCko_self (n : Nat) (x : CkoSt) (d : Dev) : (d.setCko n x).cko n = x := by rw [Dev.cko_setCko, if_pos rfl]
@[simp] theorem Dev.setCko_clk (n : Nat) (x : CkoSt) (d : Dev) : (d.setCko n x).clk = d.clk := rfl
@[simp] theorem Dev.setCko_daond (n : Nat) (x : CkoSt) (d : Dev) : (d.setCko n x).daond = d.daond := rfl
@[simp] theorem Dev.setCko_ev (n : Nat) (x : CkoSt) (d : Dev) : (d.setCko n x).ev = d.ev := rfl
@[simp] theorem Dev.setCko_cfg (n : Nat) (x : CkoSt) (d : Dev) : (d.setCko n x).cfg = d.cfg := rfl
@[simp] theorem Dev.setCko_blocks (n : Nat) (x : CkoSt) (d : Dev) : (d.setCko n x).blocks = d.blocks := rfl
@[simp] theorem Dev.setCko_lanes (n : Nat) (x : CkoSt) (d : Dev) : (d.setCko n x).lanes = d.lanes := rfl
@[simp] theorem Dev.setCko_ingress (n : Nat) (x : CkoSt) (d : Dev) : (d.setCko n x).ingress = d.ingress := rfl
@[simp] theorem Dev.setCko_egress (n : Nat) (x : CkoSt) (d : Dev) : (d.setCko n x).egress = d.egress := rfl
@[simp] theorem Dev.setCko_caps (n : Nat) (x : CkoSt) (d : Dev) : (d.setCko n x).caps = d.caps := rfl
@[simp] theorem Dev.setCko_rings (n : Nat) (x : CkoSt) (d : Dev) : (d.setCko n x).rings = d.rings := rfl
@[simp] theorem Dev.setCko_layers (n : Nat) (x : CkoSt) (d : Dev) : (d.setCko n x).layers = d.layers := rfl
@[simp] theorem Dev.setCko_heads (n : Nat) (x : CkoSt) (d : Dev) : (d.setCko n x).heads = d.heads := rfl
@[simp] theorem Dev.setCko_xchans (n : Nat) (x : CkoSt) (d : Dev) : (d.setCko n x).xchans = d.xchans := rfl
@[simp] theorem Dev.setCko_audio (n : Nat) (x : CkoSt) (d : Dev) : (d.setCko n x).audio = d.audio := rfl
@[simp] theorem Dev.setCko_refs (n : Nat) (x : CkoSt) (d : Dev) : (d.setCko n x).refs = d.refs := rfl
@[simp] theorem Dev.setCko_tcs (n : Nat) (x : CkoSt) (d : Dev) : (d.setCko n x).tcs = d.tcs := rfl
@[simp] theorem Dev.setCko_fpos (n : Nat) (x : CkoSt) (d : Dev) : (d.setCko n x).fpos = d.fpos := rfl
@[simp] theorem Dev.setCko_tpins (n : Nat) (x : CkoSt) (d : Dev) : (d.setCko n x).tpins = d.tpins := rfl
@[simp] theorem Dev.setCko_probes (n : Nat) (x : CkoSt) (d : Dev) : (d.setCko n x).probes = d.probes := rfl
@[simp] theorem Dev.setCko_freeze (n : Nat) (x : CkoSt) (d : Dev) : (d.setCko n x).freeze = d.freeze := rfl
@[simp] theorem Dev.setCko_fabric (n : Nat) (x : CkoSt) (d : Dev) : (d.setCko n x).fabric = d.fabric := rfl
@[simp] theorem Dev.setCko_fw (n : Nat) (x : CkoSt) (d : Dev) : (d.setCko n x).fw = d.fw := rfl
@[simp] theorem Dev.setCko_settings (n : Nat) (x : CkoSt) (d : Dev) : (d.setCko n x).settings = d.settings := rfl
@[simp] theorem Dev.setCko_sec (n : Nat) (x : CkoSt) (d : Dev) : (d.setCko n x).sec = d.sec := rfl
@[simp] theorem Dev.setCko_pow (n : Nat) (x : CkoSt) (d : Dev) : (d.setCko n x).pow = d.pow := rfl
@[simp] theorem Dev.setCko_draws (n : Nat) (x : CkoSt) (d : Dev) : (d.setCko n x).draws = d.draws := rfl
@[simp] theorem Dev.setCko_out (n : Nat) (x : CkoSt) (d : Dev) : (d.setCko n x).out = d.out := rfl

/-! ### Records of `fpos` -/

@[simp] theorem Dev.modFpo_eq (n : Nat) (f : FpoSt → FpoSt) (d : Dev) : d.modFpo n f = d.setFpo n (f (d.fpo n)) := rfl
theorem Dev.fpo_setFpo (n m : Nat) (x : FpoSt) (d : Dev) : (d.setFpo n x).fpo m = if n = m then x else d.fpo m := smGet_smPut ..
@[simp] theorem Dev.fpo_setFpo_self (n : Nat) (x : FpoSt) (d : Dev) : (d.setFpo n x).fpo n = x := by rw [Dev.fpo_setFpo, if_pos rfl]
@[simp] theorem Dev.setFpo_clk (n : Nat) (x : FpoSt) (d : Dev) : (d.setFpo n x).clk = d.clk := rfl
@[simp] theorem Dev.setFpo_daond (n : Nat) (x : FpoSt) (d : Dev) : (d.setFpo n x).daond = d.daond := rfl
@[simp] theorem Dev.setFpo_ev (n : Nat) (x : FpoSt) (d : Dev) : (d.setFpo n x).ev = d.ev := rfl
@[simp] theorem Dev.setFpo_cfg (n : Nat) (x : FpoSt) (d : Dev) : (d.setFpo n x).cfg = d.cfg := rfl
@[simp] theorem Dev.setFpo_blocks (n : Nat) (x : FpoSt) (d : Dev) : (d.setFpo n x).blocks = d.blocks := rfl
@[simp] theorem Dev.setFpo_lanes (n : Nat) (x : FpoSt) (d : Dev) : (d.setFpo n x).lanes = d.lanes := rfl
@[simp] theorem Dev.setFpo_ingress (n : Nat) (x : FpoSt) (d : Dev) : (d.setFpo n x).ingress = d.ingress := rfl
@[simp] theorem Dev.setFpo_egress (n : Nat) (x : FpoSt) (d : Dev) : (d.setFpo n x).egress = d.egress := rfl
@[simp] theorem Dev.setFpo_caps (n : Nat) (x : FpoSt) (d : Dev) : (d.setFpo n x).caps = d.caps := rfl
@[simp] theorem Dev.setFpo_rings (n : Nat) (x : FpoSt) (d : Dev) : (d.setFpo n x).rings = d.rings := rfl
@[simp] theorem Dev.setFpo_layers (n : Nat) (x : FpoSt) (d : Dev) : (d.setFpo n x).layers = d.layers := rfl
@[simp] theorem Dev.setFpo_heads (n : Nat) (x : FpoSt) (d : Dev) : (d.setFpo n x).heads = d.heads := rfl
@[simp] theorem Dev.setFpo_xchans (n : Nat) (x : FpoSt) (d : Dev) : (d.setFpo n x).xchans = d.xchans := rfl
@[simp] theorem Dev.setFpo_audio (n : Nat) (x : FpoSt) (d : Dev) : (d.setFpo n x).audio = d.audio := rfl
@[simp] theorem Dev.setFpo_refs (n : Nat) (x : FpoSt) (d : Dev) : (d.setFpo n x).refs = d.refs := rfl
@[simp] theorem Dev.setFpo_tcs (n : Nat) (x : FpoSt) (d : Dev) : (d.setFpo n x).tcs = d.tcs := rfl
@[simp] theorem Dev.setFpo_ckos (n : Nat) (x : FpoSt) (d : Dev) : (d.setFpo n x).ckos = d.ckos := rfl
@[simp] theorem Dev.setFpo_tpins (n : Nat) (x : FpoSt) (d : Dev) : (d.setFpo n x).tpins = d.tpins := rfl
@[simp] theorem Dev.setFpo_probes (n : Nat) (x : FpoSt) (d : Dev) : (d.setFpo n x).probes = d.probes := rfl
@[simp] theorem Dev.setFpo_freeze (n : Nat) (x : FpoSt) (d : Dev) : (d.setFpo n x).freeze = d.freeze := rfl
@[simp] theorem Dev.setFpo_fabric (n : Nat) (x : FpoSt) (d : Dev) : (d.setFpo n x).fabric = d.fabric := rfl
@[simp] theorem Dev.setFpo_fw (n : Nat) (x : FpoSt) (d : Dev) : (d.setFpo n x).fw = d.fw := rfl
@[simp] theorem Dev.setFpo_settings (n : Nat) (x : FpoSt) (d : Dev) : (d.setFpo n x).settings = d.settings := rfl
@[simp] theorem Dev.setFpo_sec (n : Nat) (x : FpoSt) (d : Dev) : (d.setFpo n x).sec = d.sec := rfl
@[simp] theorem Dev.setFpo_pow (n : Nat) (x : FpoSt) (d : Dev) : (d.setFpo n x).pow = d.pow := rfl
@[simp] theorem Dev.setFpo_draws (n : Nat) (x : FpoSt) (d : Dev) : (d.setFpo n x).draws = d.draws := rfl
@[simp] theorem Dev.setFpo_out (n : Nat) (x : FpoSt) (d : Dev) : (d.setFpo n x).out = d.out := rfl

/-! ### Records of `tpins` -/

@[simp] theorem Dev.modTpin_eq (n : Nat) (f : TpinSt → TpinSt) (d : Dev) : d.modTpin n f = d.setTpin n (f (d.tpin n)) := rfl
theorem Dev.tpin_setTpin (n m : Nat) (x : TpinSt) (d : Dev) : (d.setTpin n x).tpin m = if n = m then x else d.tpin m := smGet_smPut ..
@[simp] theorem Dev.tpin_setTpin_self (n : Nat) (x : TpinSt) (d : Dev) : (d.setTpin n x).tpin n = x := by rw [Dev.tpin_setTpin, if_pos rfl]
@[simp] theorem Dev.setTpin_clk (n : Nat) (x : TpinSt) (d : Dev) : (d.setTpin n x).clk = d.clk := rfl
@[simp] theorem Dev.setTpin_daond (n : Nat) (x : TpinSt) (d : Dev) : (d.setTpin n x).daond = d.daond := rfl
@[simp] theorem Dev.setTpin_ev (n : Nat) (x : TpinSt) (d : Dev) : (d.setTpin n x).ev = d.ev := rfl
@[simp] theorem Dev.setTpin_cfg (n : Nat) (x : TpinSt) (d : Dev) : (d.setTpin n x).cfg = d.cfg := rfl
@[simp] theorem Dev.setTpin_blocks (n : Nat) (x : TpinSt) (d : Dev) : (d.setTpin n x).blocks = d.blocks := rfl
@[simp] theorem Dev.setTpin_lanes (n : Nat) (x : TpinSt) (d : Dev) : (d.setTpin n x).lanes = d.lanes := rfl
@[simp] theorem Dev.setTpin_ingress (n : Nat) (x : TpinSt) (d : Dev) : (d.setTpin n x).ingress = d.ingress := rfl
@[simp] theorem Dev.setTpin_egress (n : Nat) (x : TpinSt) (d : Dev) : (d.setTpin n x).egress = d.egress := rfl
@[simp] theorem Dev.setTpin_caps (n : Nat) (x : TpinSt) (d : Dev) : (d.setTpin n x).caps = d.caps := rfl
@[simp] theorem Dev.setTpin_rings (n : Nat) (x : TpinSt) (d : Dev) : (d.setTpin n x).rings = d.rings := rfl
@[simp] theorem Dev.setTpin_layers (n : Nat) (x : TpinSt) (d : Dev) : (d.setTpin n x).layers = d.layers := rfl
@[simp] theorem Dev.setTpin_heads (n : Nat) (x : TpinSt) (d : Dev) : (d.setTpin n x).heads = d.heads := rfl
@[simp] theorem Dev.setTpin_xchans (n : Nat) (x : TpinSt) (d : Dev) : (d.setTpin n x).xchans = d.xchans := rfl
@[simp] theorem Dev.setTpin_audio (n : Nat) (x : TpinSt) (d : Dev) : (d.setTpin n x).audio = d.audio := rfl
@[simp] theorem Dev.setTpin_refs (n : Nat) (x : TpinSt) (d : Dev) : (d.setTpin n x).refs = d.refs := rfl
@[simp] theorem Dev.setTpin_tcs (n : Nat) (x : TpinSt) (d : Dev) : (d.setTpin n x).tcs = d.tcs := rfl
@[simp] theorem Dev.setTpin_ckos (n : Nat) (x : TpinSt) (d : Dev) : (d.setTpin n x).ckos = d.ckos := rfl
@[simp] theorem Dev.setTpin_fpos (n : Nat) (x : TpinSt) (d : Dev) : (d.setTpin n x).fpos = d.fpos := rfl
@[simp] theorem Dev.setTpin_probes (n : Nat) (x : TpinSt) (d : Dev) : (d.setTpin n x).probes = d.probes := rfl
@[simp] theorem Dev.setTpin_freeze (n : Nat) (x : TpinSt) (d : Dev) : (d.setTpin n x).freeze = d.freeze := rfl
@[simp] theorem Dev.setTpin_fabric (n : Nat) (x : TpinSt) (d : Dev) : (d.setTpin n x).fabric = d.fabric := rfl
@[simp] theorem Dev.setTpin_fw (n : Nat) (x : TpinSt) (d : Dev) : (d.setTpin n x).fw = d.fw := rfl
@[simp] theorem Dev.setTpin_settings (n : Nat) (x : TpinSt) (d : Dev) : (d.setTpin n x).settings = d.settings := rfl
@[simp] theorem Dev.setTpin_sec (n : Nat) (x : TpinSt) (d : Dev) : (d.setTpin n x).sec = d.sec := rfl
@[simp] theorem Dev.setTpin_pow (n : Nat) (x : TpinSt) (d : Dev) : (d.setTpin n x).pow = d.pow := rfl
@[simp] theorem Dev.setTpin_draws (n : Nat) (x : TpinSt) (d : Dev) : (d.setTpin n x).draws = d.draws := rfl
@[simp] theorem Dev.setTpin_out (n : Nat) (x : TpinSt) (d : Dev) : (d.setTpin n x).out = d.out := rfl

/-! ### Records of `probes` -/

@[simp] theorem Dev.modProbe_eq (n : Nat) (f : ProbeSt → ProbeSt) (d : Dev) : d.modProbe n f = d.setProbe n (f (d.probe n)) := rfl
theorem Dev.probe_setProbe (n m : Nat) (x : ProbeSt) (d : Dev) : (d.setProbe n x).probe m = if n = m then x else d.probe m := smGet_smPut ..
@[simp] theorem Dev.probe_setProbe_self (n : Nat) (x : ProbeSt) (d : Dev) : (d.setProbe n x).probe n = x := by rw [Dev.probe_setProbe, if_pos rfl]
@[simp] theorem Dev.setProbe_clk (n : Nat) (x : ProbeSt) (d : Dev) : (d.setProbe n x).clk = d.clk := rfl
@[simp] theorem Dev.setProbe_daond (n : Nat) (x : ProbeSt) (d : Dev) : (d.setProbe n x).daond = d.daond := rfl
@[simp] theorem Dev.setProbe_ev (n : Nat) (x : ProbeSt) (d : Dev) : (d.setProbe n x).ev = d.ev := rfl
@[simp] theorem Dev.setProbe_cfg (n : Nat) (x : ProbeSt) (d : Dev) : (d.setProbe n x).cfg = d.cfg := rfl
@[simp] theorem Dev.setProbe_blocks (n : Nat) (x : ProbeSt) (d : Dev) : (d.setProbe n x).blocks = d.blocks := rfl
@[simp] theorem Dev.setProbe_lanes (n : Nat) (x : ProbeSt) (d : Dev) : (d.setProbe n x).lanes = d.lanes := rfl
@[simp] theorem Dev.setProbe_ingress (n : Nat) (x : ProbeSt) (d : Dev) : (d.setProbe n x).ingress = d.ingress := rfl
@[simp] theorem Dev.setProbe_egress (n : Nat) (x : ProbeSt) (d : Dev) : (d.setProbe n x).egress = d.egress := rfl
@[simp] theorem Dev.setProbe_caps (n : Nat) (x : ProbeSt) (d : Dev) : (d.setProbe n x).caps = d.caps := rfl
@[simp] theorem Dev.setProbe_rings (n : Nat) (x : ProbeSt) (d : Dev) : (d.setProbe n x).rings = d.rings := rfl
@[simp] theorem Dev.setProbe_layers (n : Nat) (x : ProbeSt) (d : Dev) : (d.setProbe n x).layers = d.layers := rfl
@[simp] theorem Dev.setProbe_heads (n : Nat) (x : ProbeSt) (d : Dev) : (d.setProbe n x).heads = d.heads := rfl
@[simp] theorem Dev.setProbe_xchans (n : Nat) (x : ProbeSt) (d : Dev) : (d.setProbe n x).xchans = d.xchans := rfl
@[simp] theorem Dev.setProbe_audio (n : Nat) (x : ProbeSt) (d : Dev) : (d.setProbe n x).audio = d.audio := rfl
@[simp] theorem Dev.setProbe_refs (n : Nat) (x : ProbeSt) (d : Dev) : (d.setProbe n x).refs = d.refs := rfl
@[simp] theorem Dev.setProbe_tcs (n : Nat) (x : ProbeSt) (d : Dev) : (d.setProbe n x).tcs = d.tcs := rfl
@[simp] theorem Dev.setProbe_ckos (n : Nat) (x : ProbeSt) (d : Dev) : (d.setProbe n x).ckos = d.ckos := rfl
@[simp] theorem Dev.setProbe_fpos (n : Nat) (x : ProbeSt) (d : Dev) : (d.setProbe n x).fpos = d.fpos := rfl
@[simp] theorem Dev.setProbe_tpins (n : Nat) (x : ProbeSt) (d : Dev) : (d.setProbe n x).tpins = d.tpins := rfl
@[simp] theorem Dev.setProbe_freeze (n : Nat) (x : ProbeSt) (d : Dev) : (d.setProbe n x).freeze = d.freeze := rfl
@[simp] theorem Dev.setProbe_fabric (n : Nat) (x : ProbeSt) (d : Dev) : (d.setProbe n x).fabric = d.fabric := rfl
@[simp] theorem Dev.setProbe_fw (n : Nat) (x : ProbeSt) (d : Dev) : (d.setProbe n x).fw = d.fw := rfl
@[simp] theorem Dev.setProbe_settings (n : Nat) (x : ProbeSt) (d : Dev) : (d.setProbe n x).settings = d.settings := rfl
@[simp] theorem Dev.setProbe_sec (n : Nat) (x : ProbeSt) (d : Dev) : (d.setProbe n x).sec = d.sec := rfl
@[simp] theorem Dev.setProbe_pow (n : Nat) (x : ProbeSt) (d : Dev) : (d.setProbe n x).pow = d.pow := rfl
@[simp] theorem Dev.setProbe_draws (n : Nat) (x : ProbeSt) (d : Dev) : (d.setProbe n x).draws = d.draws := rfl
@[simp] theorem Dev.setProbe_out (n : Nat) (x : ProbeSt) (d : Dev) : (d.setProbe n x).out = d.out := rfl

end Sys2Proof.Machine
end

