-- ==== Sys2Proof/Laws/Admit.lean ====
section
/-! SUPPORT. What reading frame memory and admitting a request can change: counters and parking of the fabric, and events. -/
namespace Sys2Proof.Laws
open Sys2Proof Sys2Proof.Machine

/-- A grant changes the fabric alone. -/
theorem grant_eq (m p n : Nat) (v : Dev) : ∃ x, v.grant m p n = { v with fabric := x } := by
  simp only [Dev.grant]
  split
  · exact ⟨_, rfl⟩
  · split
    · exact ⟨_, rfl⟩
    · exact ⟨_, rfl⟩

/-- The grants of an access change the fabric alone. -/
theorem accessGrants_eq (m k a n : Nat) (v : Dev) : ∃ x, accessGrants m k a n v = { v with fabric := x } := by
  induction k generalizing a n v with
  | zero => exact ⟨v.fabric, rfl⟩
  | succ k ih =>
    simp only [accessGrants]
    split
    · exact ⟨v.fabric, rfl⟩
    · obtain ⟨x, e⟩ := grant_eq m (portOf a) ((a + min n (4096 - a % 4096) + 63) / 64 - a / 64) v
      rw [e]
      obtain ⟨y, e'⟩ := ih (a + min n (4096 - a % 4096)) (n - min n (4096 - a % 4096)) { v with fabric := x }
      exact ⟨y, e'⟩

/-- An access to frame memory changes the fabric alone. -/
theorem access_eq (m a n : Nat) (v : Dev) : ∃ x, v.access m a n = { v with fabric := x } := accessGrants_eq m _ a n v

/-- A memory error changes the fabric and the events alone. -/
theorem eccError_eq (bad : Bool) (a : Nat) (v : Dev) : ∃ x e, v.eccError bad a = { v with fabric := x, ev := e } := by
  cases bad <;> exact ⟨_, _, rfl⟩

/-- Two states that differ at most in the fabric and the events. -/
def SameButFabric (s u : State) : Prop := ∃ x e, u = { s with dev := { s.dev with fabric := x, ev := e } }

theorem SameButFabric.refl (s : State) : SameButFabric s s := ⟨_, _, rfl⟩

theorem SameButFabric.trans {s u w : State} (h : SameButFabric s u) (k : SameButFabric u w) : SameButFabric s w := by
  obtain ⟨x, e, rfl⟩ := h
  obtain ⟨y, f, rfl⟩ := k
  exact ⟨y, f, rfl⟩

theorem SameButFabric.access (s : State) (m a n : Nat) : SameButFabric s (s.onDev (Dev.access m a n)) := by
  obtain ⟨x, h⟩ := access_eq m a n s.dev
  exact ⟨x, s.dev.ev, by rw [State.onDev, h]⟩

theorem SameButFabric.eccError (s : State) (bad : Bool) (a : Nat) : SameButFabric s (s.onDev (Dev.eccError bad a)) := by
  obtain ⟨x, e, h⟩ := eccError_eq bad a s.dev
  exact ⟨x, e, by rw [State.onDev, h]⟩

/-- Measuring the surfaces that a request seals changes the fabric and the events alone. -/
theorem sealAll_same (s : State) (i : Nat) (c : Cfg) (os : List StagedOp) : SameButFabric s (sealAll s i c os).1 := by
  induction os generalizing s i c with
  | nil => exact .refl s
  | cons o r ih =>
    simp only [sealAll]
    split
    · exact ih ..
    · split
      · exact .refl s
      · next x _ =>
        have h1 : ∀ n, SameButFabric s (if n = 0 then s else s.onDev (Dev.access 53 x.base n)) := by
          intro n
          split
          · exact .refl s
          · exact .access ..
        split
        · exact (h1 _).trans (.eccError ..)
        · split
          · exact h1 _
          · exact (h1 _).trans (ih ..)

/-- Admission changes the fabric and the events alone: a request that is refused leaves the configuration and the commits as they were. -/
theorem admitOps_same (e : Nat) (search : Bool) (os : List StagedOp) (s : State) : SameButFabric s (admitOps e search os s).1 := by
  simp only [admitOps]
  split
  · exact .refl s
  · split
    · exact .refl s
    · split
      · exact .refl s
      · generalize hq : sealAll s 0 (s.dev.beforeAt e).2 os = q
        have hs : SameButFabric s q.1 := hq ▸ sealAll_same ..
        obtain ⟨s1, x⟩ := q
        cases x with
        | error f => exact hs
        | ok os1 =>
          simp only
          split
          · exact hs
          · split
            · exact hs
            · split <;> exact hs

end Sys2Proof.Laws
end

