-- ==== Sys2Proof/Laws/Frame.lean ====
section
/-! SUPPORT. What every operation on the whole state keeps: the queue of commands as it is, and frame memory in canonical form. One
lemma for each operation, in a form that composes. -/
namespace Sys2Proof.Laws
open Sys2Proof Sys2Proof.Machine

/-- From state `s` to state `u` the queue stays, and canonical frame memory stays canonical. -/
def Kept (s u : State) : Prop := u.pending = s.pending ∧ (s.MemOk → u.MemOk)

theorem Kept.refl (s : State) : Kept s s := ⟨rfl, id⟩
theorem Kept.onDev {s x : State} (f : Dev → Dev) (h : Kept s x) : Kept s (x.onDev f) := h
theorem Kept.arrive {s x : State} (t : Nat) (h : Kept s x) : Kept s (x.arrive t) := h
theorem Kept.due {s x : State} (d t : Nat) {f : State → State} (hf : ∀ y, Kept s y → Kept s (f y)) (h : Kept s x) : Kept s (x.due d t f) := by
  unfold State.due
  split
  · exact Kept.arrive _ h
  · exact hf _ (Kept.arrive _ h)
theorem Kept.within {s x : State} (d t : Nat) {f : State → State} (hf : ∀ y, Kept s y → Kept s (f y)) (h : Kept s x) : Kept s (x.within d t f) :=
  hf _ (Kept.arrive _ h)
theorem Kept.dev {s x : State} (v : Dev) (h : Kept s x) : Kept s { x with dev := v } := h
theorem Kept.ite {s a b : State} {c : Prop} [Decidable c] (h1 : Kept s a) (h2 : Kept s b) : Kept s (if c then a else b) := by
  split <;> assumption
theorem Kept.foldl {α : Type} {s a : State} {f : State → α → State} (l : List α) (h : ∀ x y, Kept s x → Kept s (f x y)) (ha : Kept s a) :
    Kept s (l.foldl f a) := by
  induction l generalizing a with
  | nil => exact ha
  | cons y r ih => exact ih (h a y ha)

/-- The state with a new frame memory and device is kept when the memory is written in canonical form. -/
theorem Kept.mem {s x : State} {m : List Host.Cell} {v : Dev} (h : Kept s x) (hm : memWf x.mem = true → memWf m = true) :
    Kept s { x with mem := m, dev := v } := ⟨h.1, fun w => hm (h.2 w)⟩

theorem memWf_writeRawLine (x : SurfaceSt) (y : Nat) (l : List (List Nat)) {m : List Host.Cell} (w : memWf m = true) : memWf (writeRawLine x y l m) = true := by
  unfold writeRawLine
  split
  · split
    · exact memWf_memWrite _ (memWf_memWrite _ w)
    · exact memWf_memWrite _ w
  · split <;> exact memWf_memWrite _ w

theorem memWf_writeTileRow (x : SurfaceSt) (ty : Nat) (ls : List (List (List Nat))) {m : List Host.Cell} (w : memWf m = true) :
    memWf (writeTileRow x ty ls m) = true := by
  have key : ∀ (f : Nat → Nat) (g : Nat → List Byte) (r : List Nat) (m : List Host.Cell), memWf m = true →
      memWf (r.foldl (fun m tx => memWrite m (f tx) (g tx)) m) = true := by
    intro f g r
    induction r with
    | nil => exact fun _ w => w
    | cons a r ih => exact fun m w => ih _ (memWf_memWrite _ w)
  exact memWf_memWrite _ (key _ _ _ _ w)

theorem Kept.bulkPut {s x : State} (k a : Nat) (bs : List Byte) (h : Kept s x) : Kept s (x.bulkPut k a bs) := by
  unfold State.bulkPut
  exact Kept.ite (Kept.mem h (memWf_memWrite bs)) (Kept.onDev _ h)

theorem Kept.forgetStack {s x : State} (k : Nat) (h : Kept s x) : Kept s (x.forgetStack k) :=
  Kept.mem h (memWfFrom_filter _)

theorem Kept.resetDevice {s x : State} (c : Nat) (h : Kept s x) : Kept s (x.resetDevice c) := Kept.mem h fun _ => rfl

theorem Kept.resetOnce {s x : State} (c : Nat) (h : Kept s x) : Kept s (x.resetOnce c) := Kept.ite h (Kept.resetDevice c h)

theorem Kept.probeLine {s x : State} (dir n : Nat) (p : List Byte) (h : Kept s x) : Kept s (x.probeLine dir n p) := by
  dsimp only [State.probeLine]
  split
  · exact h
  · refine Kept.ite ?_ (Kept.onDev _ h)
    split
    · exact Kept.mem (Kept.onDev _ h) (memWf_writeRawLine _ _ _)
    · exact Kept.onDev _ h

theorem Kept.captureLine {s x : State} (n line : Nat) (vals : List (List Nat)) (h : Kept s x) : Kept s (x.captureLine n line vals) := by
  dsimp only [State.captureLine]
  split
  · exact h
  · split
    · exact h
    · exact Kept.ite h (Kept.ite (Kept.mem h (memWf_writeRawLine _ _ _)) (Kept.ite (Kept.mem h (memWf_writeTileRow _ _ _)) (Kept.onDev _ h)))

theorem Kept.toEgress {s x : State} (e type : Nat) (p : List Byte) (h : Kept s x) : Kept s (x.toEgress e type p) := by
  dsimp only [State.toEgress]
  refine Kept.onDev _ ?_
  have h1 : ∀ f : Dev → Dev, Kept s (if type = 1 then x.onDev f else x) := fun f => Kept.ite (Kept.onDev _ h) h
  split
  · exact Kept.onDev _ (h1 _)
  · exact Kept.probeLine _ _ _ (h1 _)
  · exact Kept.onDev _ (h1 _)
  · exact Kept.onDev _ (h1 _)
  · exact Kept.onDev _ (h1 _)
  · exact h1 _

theorem Kept.forward {s x : State} (n type : Nat) (p : List Byte) (h : Kept s x) : Kept s (x.forward n type p) :=
  Kept.foldl _ (fun _ _ hx => Kept.ite (Kept.toEgress _ _ _ (Kept.ite (Kept.onDev _ hx) hx)) (Kept.ite (Kept.onDev _ hx) hx)) h

theorem Kept.sendSrExit {s x : State} (n : Nat) (b : Bool) (h : Kept s x) : Kept s (x.sendSrExit n b) :=
  Kept.ite h (Kept.foldl _ (fun _ _ hx => Kept.ite (Kept.toEgress _ _ _ (Kept.onDev _ hx)) hx) h)

theorem Kept.sendStart {s x : State} (n e : Nat) (t : TimingCfg) (no : U32) (field flags : Nat) (h : Kept s x) : Kept s (x.sendStart n e t no field flags) := by
  unfold State.sendStart
  extract_lets
  exact Kept.toEgress _ _ _ (Kept.toEgress _ _ _ (Kept.onDev _ (Kept.onDev _ h)))

theorem Kept.activeStart {s x : State} (n : Nat) (t : TimingCfg) (h : Kept s x) : Kept s (x.activeStart n t) := by
  have h1 : ∀ f : Dev → Dev, Kept s ((if (x.dev.head n).selDue then x.onDev f else x).onDev (Dev.rasterStart n t)) :=
    fun _ => Kept.onDev _ (Kept.ite (Kept.onDev _ h) h)
  exact Kept.ite (h1 _) (Kept.foldl _ (fun _ _ hx => Kept.sendStart _ _ _ _ _ _ hx)
    (Kept.ite (Kept.onDev _ (Kept.onDev _ (Kept.sendSrExit _ _ (h1 _)))) (Kept.onDev _ (Kept.onDev _ (Kept.onDev _ (Kept.sendSrExit _ _ (h1 _)))))))

theorem Kept.compLine {s x : State} (n y xoff w frame : Nat) (h : Kept s x) : Kept s (x.compLine n y xoff w frame).1 := Kept.dev _ h

theorem Kept.headLine {s x : State} (n line y : Nat) (t : TimingCfg) (black : Bool) (missing : Option Nat) (h : Kept s x) :
    Kept s (x.headLine n line y t black missing).1 := by
  dsimp only [State.headLine]
  split
  · exact h
  · exact Kept.ite (Kept.onDev _ (Kept.compLine _ _ _ _ _ h)) (Kept.compLine _ _ _ _ _ h)

theorem Kept.sendLine {s x : State} (n line : Nat) (t : TimingCfg) (missing : Option Nat) (h : Kept s x) : Kept s (x.sendLine n line t missing) := by
  have h1 : ∀ y f, Kept s ((x.headLine n line y t (x.dev.head (x.dev.cfg.rasterHead n)).blackNow missing).1.onDev f) :=
    fun _ _ => Kept.onDev _ (Kept.headLine _ _ _ _ _ _ h)
  have h2 : ∀ (z : State) (es : List Nat) (ps : List (List Byte)), Kept s z →
      Kept s (es.foldl (fun s e => ps.foldl (fun s p => s.toEgress e 3 p) s) z) :=
    fun z es ps hz => Kept.foldl _ (fun _ _ hx => Kept.foldl _ (fun _ _ hy => Kept.toEgress _ _ _ hy) hx) hz
  exact Kept.ite (Kept.onDev _ (h2 _ _ _ (h1 _ _))) (h2 _ _ _ (h1 _ _))

theorem Kept.sendEnd {s x : State} (n : Nat) (h : Kept s x) : Kept s (x.sendEnd n) :=
  Kept.ite h (Kept.onDev _ (Kept.foldl _ (fun _ _ hx => Kept.toEgress _ _ _ hx) h))

theorem Kept.sendSrEnter {s x : State} (n : Nat) (h : Kept s x) : Kept s (x.sendSrEnter n) :=
  Kept.ite h (Kept.onDev _ (Kept.foldl _ (fun _ _ hx => Kept.toEgress _ _ _ hx) h))

theorem Kept.audioGroup {s x : State} (e g : Nat) (inst : List Int) (silent : Bool) (h : Kept s x) : Kept s (x.audioGroup e g inst silent) := by
  dsimp only [State.audioGroup]
  split
  · exact h
  · refine Kept.ite (Kept.dev _ h) (Kept.toEgress _ _ _ ?_)
    split
    · exact Kept.onDev _ (Kept.onDev _ (Kept.dev _ h))
    · exact Kept.onDev _ (Kept.dev _ h)

theorem Kept.groupWindow {s x : State} (e g hi : Nat) (h : Kept s x) : Kept s (x.groupWindow e g hi) :=
  Kept.ite (Kept.onDev _ h) (Kept.audioGroup _ _ _ _ (Kept.onDev _ h))

theorem Kept.audioWindow {s x : State} (e hi : Nat) (h : Kept s x) : Kept s (x.audioWindow e hi) := by
  unfold State.audioWindow
  extract_lets a b
  have ha : Kept s a := Kept.onDev _ h
  have hb : Kept s b := Kept.foldl (List.range 4) (fun _ _ hx => Kept.groupWindow _ _ _ hx) ha
  clear_value a b
  exact Kept.onDev _ hb

theorem Kept.audioTo {s x : State} (e t n : Nat) (h : Kept s x) : Kept s (x.audioTo e t n) := by
  induction n generalizing x with
  | zero => exact h
  | succ n ih =>
    unfold State.audioTo
    exact Kept.ite (ih (Kept.due _ _ (fun _ hy => Kept.audioWindow _ _ hy) h)) h

/-! ### Packets -/

theorem Kept.packetRow {s x : State} (t n type : Nat) (p : Packet) {body : State → State} (hb : ∀ y, Kept s y → Kept s (body y)) (h : Kept s x) :
    Kept s (packetRow t n type p body x) := by
  have h1 : ∀ f : Dev → Dev, ∀ g : Dev → Dev, ∀ k : Dev → Dev, Kept s (if p.lost then ((x.arrive t).onDev f).onDev g else body (((x.arrive t).onDev f).onDev k)) :=
    fun f g k => Kept.ite (Kept.onDev _ (Kept.onDev _ (Kept.arrive _ h))) (hb _ (Kept.onDev _ (Kept.onDev _ (Kept.arrive _ h))))
  exact Kept.ite (Kept.arrive _ h) (Kept.onDev _ (Kept.ite (Kept.onDev _ (h1 _ _ _)) (h1 _ _ _)))

theorem Kept.formatIn {s x : State} (n : Nat) (p : List Byte) (h : Kept s x) : Kept s (formatIn n p x) := by
  have h0 : Kept s (x.onDev (Dev.ingressLive n)) := Kept.onDev _ h
  have h1 : ∀ (c : Bool) (f g k : Dev → Dev),
      Kept s (((if c then (x.onDev (Dev.ingressLive n)).onDev f else x.onDev (Dev.ingressLive n)).onDev g).onDev k) :=
    fun _ _ _ _ => Kept.onDev _ (Kept.onDev _ (Kept.ite (Kept.onDev _ h0) h0))
  exact Kept.ite h0 (Kept.ite (Kept.onDev _ h0) (Kept.ite (Kept.forward _ _ _ (h1 _ _ _ _)) (h1 _ _ _ _)))

theorem Kept.frameStartIn {s x : State} (n : Nat) (p : List Byte) (h : Kept s x) : Kept s (frameStartIn n p x) := by
  have h1 : ∀ (c d : Bool) (f g : Dev → Dev), Kept s (if d then (if c then x.onDev f else x).onDev g else (if c then x.onDev f else x)) :=
    fun _ _ _ _ => Kept.ite (Kept.onDev _ (Kept.ite (Kept.onDev _ h) h)) (Kept.ite (Kept.onDev _ h) h)
  exact Kept.ite (Kept.onDev _ h) (Kept.ite (Kept.forward _ _ _ (Kept.onDev _ (Kept.dev _ (h1 _ _ _ _)))) (Kept.dev _ (h1 _ _ _ _)))

theorem Kept.videoLineIn {s x : State} (n : Nat) (p : List Byte) (h : Kept s x) : Kept s (videoLineIn n p x) := by
  dsimp only [Sys2Proof.Machine.videoLineIn]
  split
  · exact Kept.onDev _ h
  · refine Kept.ite h (Kept.ite (Kept.onDev _ h) (Kept.ite (Kept.onDev _ h) ?_))
    split
    · exact Kept.ite (Kept.forward _ _ _ (Kept.probeLine _ _ _ (Kept.captureLine _ _ _ (Kept.onDev _ h)))) (Kept.captureLine _ _ _ (Kept.onDev _ h))
    · exact Kept.ite (Kept.forward _ _ _ (Kept.probeLine _ _ _ (Kept.onDev _ h))) (Kept.onDev _ h)

theorem Kept.frameEndIn {s x : State} (n : Nat) (p : List Byte) (h : Kept s x) : Kept s (frameEndIn n p x) := by
  have key : ∀ (a b c : Bool) (f g k m : Dev → Dev) (q : Dev → Dev),
      let y := if a then x else x.onDev f
      let z := if b then (y.onDev g).forward n 4 p else y
      Kept s ((if c then z.onDev k else z.onDev m).onDev q) := by
    intro a b c f g k m q
    have hy : Kept s (if a then x else x.onDev f) := Kept.ite h (Kept.onDev _ h)
    have hz : Kept s (if b then ((if a then x else x.onDev f).onDev g).forward n 4 p else (if a then x else x.onDev f)) :=
      Kept.ite (Kept.forward _ _ _ (Kept.onDev _ hy)) hy
    exact Kept.onDev _ (Kept.ite (Kept.onDev _ hz) (Kept.onDev _ hz))
  unfold Sys2Proof.Machine.frameEndIn
  refine Kept.ite (Kept.onDev _ h) ?_
  split
  · exact Kept.onDev _ h
  · exact Kept.ite (Kept.onDev _ h) (key _ _ _ _ _ _ _ _)

theorem Kept.clockInfoIn {s x : State} (n : Nat) (p : List Byte) (h : Kept s x) : Kept s (clockInfoIn n p x) :=
  Kept.ite (Kept.onDev _ h) (Kept.forward _ _ _ (Kept.onDev _ h))

theorem Kept.srEnterIn {s x : State} (n : Nat) (p : List Byte) (h : Kept s x) : Kept s (srEnterIn n p x) :=
  Kept.ite (Kept.onDev _ h) (Kept.ite h (Kept.onDev _ (Kept.forward _ _ _ h)))

theorem Kept.srExitIn {s x : State} (n : Nat) (p : List Byte) (h : Kept s x) : Kept s (srExitIn n p x) :=
  Kept.ite (Kept.onDev _ h) (Kept.ite h (Kept.onDev _ (Kept.forward _ _ _ h)))

theorem Kept.audioIn {s x : State} (n : Nat) (p : List Byte) (h : Kept s x) : Kept s (audioIn n p x) :=
  Kept.ite (Kept.onDev _ h) (Kept.ite (Kept.onDev _ (Kept.forward _ _ _ h)) (Kept.onDev _ (Kept.onDev _ (Kept.forward _ _ _ h))))

/-! ### Power, boot and admission -/

theorem Kept.switchDomain {s x : State} (n : Nat) (on : Bool) (h : Kept s x) : Kept s (x.switchDomain n on) := by
  have h1 : ∀ (c : Bool) (f : Dev → Dev), Kept s (if c then (x.onDev f).forgetStack (n - 4) else x.onDev f) :=
    fun _ _ => Kept.ite (Kept.forgetStack _ (Kept.onDev _ h)) (Kept.onDev _ h)
  exact Kept.ite (h1 _ _) (Kept.onDev _ (h1 _ _))

theorem Kept.domainDone {s x : State} (n : Nat) (h : Kept s x) : Kept s (x.domainDone n) := by
  dsimp only [State.domainDone]
  split
  · exact Kept.onDev _ (Kept.switchDomain _ _ h)
  · exact h

theorem Kept.sample {s x : State} (die hbm : List Int) (h : Kept s x) : Kept s (x.sample die hbm) :=
  Kept.ite (Kept.onDev _ (Kept.resetOnce _ (Kept.onDev _ h))) (Kept.ite (Kept.onDev _ (Kept.onDev _ h))
    (Kept.ite (Kept.onDev _ (Kept.onDev _ h)) (Kept.onDev _ h)))

theorem Kept.same {s x y : State} (h : Kept s x) (k : SameButFabric x y) : Kept s y := by
  obtain ⟨_, _, rfl⟩ := k; exact h

theorem Kept.admitAt {s x : State} (e : Nat) (st : Status) (os : List StagedOp) (h : Kept s x) : Kept s (admitAt e st os x).1 := by
  have k := Kept.same h (admitOps_same e true os x)
  unfold Sys2Proof.Machine.admitAt
  split
  · next q => rw [q] at k; exact k
  · next q => rw [q] at k; exact Kept.onDev _ k

theorem Kept.bootPreset {s x : State} (h : Kept s x) : Kept s x.bootPreset := by
  have k := Kept.admitAt (settleU + x.dev.nowU) .ok (x.dev.settings.live.preset x.dev.settings.live.bootPreset) h
  dsimp only [State.bootPreset, admitNow]
  generalize Sys2Proof.Machine.admitAt (settleU + x.dev.nowU) .ok (x.dev.settings.live.preset x.dev.settings.live.bootPreset) x = r at k
  split
  · exact h
  · split
    · exact Kept.onDev _ h
    · exact k

end Sys2Proof.Laws
end

