-- ==== Sys2Proof/Laws/Effects.lean ====
section
/-! SUPPORT. The work of every Daond command keeps the queue and the canonical form of frame memory, and so does whatever serves a
datagram: one lemma for each. -/
namespace Sys2Proof.Laws
open Sys2Proof Sys2Proof.Machine

/-- The work of a command keeps the queue and the canonical form of frame memory. -/
def KeptEffect (f : Effect) : Prop := ∀ d s, Kept s (f d s).1

theorem keptEffect_query (units size : Nat) (egress : Bool) (record : Nat → Dev → List Byte) (clear : Nat → Dev → Dev) :
    KeptEffect (query units size egress record clear) := by
  intro d s
  dsimp only [query]
  (repeat' split) <;> first | exact Kept.onDev _ (Kept.refl _) | exact Kept.refl _

theorem keptEffect_withStage (mode : Nat) (k : List StagedOp → Datagram → State → State × Answer) (h : ∀ os d s, Kept s (k os d s).1) :
    KeptEffect (withStage mode k) := by
  intro d s
  dsimp only [withStage]
  (repeat' split) <;> first | exact Kept.onDev _ (Kept.refl _) | exact Kept.refl _ | exact h _ _ _

theorem Kept.admitNow {s x : State} (os : List StagedOp) (h : Kept s x) : Kept s (admitNow os x).1 := Kept.admitAt _ _ _ h

theorem keptEffect_fabricEff (op : Nat) (f : Nat → List Byte → Dev → Dev) (rec : Nat → Dev → List Byte) : KeptEffect (fabricEff op f rec) := by
  intro d s
  dsimp only [fabricEff]
  (repeat' split) <;> first
    | exact Kept.onDev _ (Kept.refl _)
    | exact Kept.refl _

theorem keptEffect_laneIdleEff (one : Nat → Dev → Dev) (bond : Nat → Dev → Dev) : KeptEffect (laneIdleEff one bond) := by
  intro d s
  dsimp only [laneIdleEff]
  (repeat' split) <;> first
    | exact Kept.onDev _ (Kept.refl _)
    | exact Kept.refl _

theorem keptEffect_stagedEff (code : Nat) : KeptEffect (stagedEff code) := by
  intro d s
  dsimp only [stagedEff]
  first
    | exact Kept.onDev _ (Kept.refl _)
    | exact Kept.refl _
    | exact Kept.admitAt _ _ _ (Kept.refl _)

theorem keptEffect_probeFreezeCancelEff : KeptEffect probeFreezeCancelEff := by
  intro d s
  dsimp only [probeFreezeCancelEff]
  (repeat' split) <;> first
    | exact Kept.onDev _ (Kept.refl _)
    | exact Kept.refl _

theorem keptEffect_audioStatusEff : KeptEffect audioStatusEff := keptEffect_query _ _ _ _ _

theorem keptEffect_bulkWriteEff : KeptEffect bulkWriteEff := by
  intro d s
  dsimp only [bulkWriteEff]
  (repeat' split) <;> first
    | exact Kept.onDev _ (Kept.refl _)
    | exact Kept.refl _
    | exact Kept.admitAt _ _ _ (Kept.refl _)
    | exact Kept.onDev _ (Kept.bulkPut _ _ _ (Kept.refl _))
    | exact Kept.bulkPut _ _ _ (Kept.refl _)

theorem keptEffect_bulkReadEff : KeptEffect bulkReadEff := by
  intro d s
  dsimp only [bulkReadEff]
  (repeat' split) <;> first
    | exact Kept.onDev _ (Kept.refl _)
    | exact Kept.refl _

theorem keptEffect_eventPollEff : KeptEffect eventPollEff := by
  intro d s
  dsimp only [eventPollEff]
  (repeat' split) <;> first
    | exact Kept.onDev _ (Kept.refl _)
    | exact Kept.refl _

theorem keptEffect_eventLogEff : KeptEffect eventLogEff := by
  intro d s
  dsimp only [eventLogEff]
  (repeat' split) <;> first
    | exact Kept.onDev _ (Kept.refl _)
    | exact Kept.refl _

theorem keptEffect_eventLedgerEff : KeptEffect eventLedgerEff := by
  intro d s
  dsimp only [eventLedgerEff]
  (repeat' split) <;> first
    | exact Kept.onDev _ (Kept.refl _)
    | exact Kept.refl _

theorem keptEffect_sysFabricSetTargetEff : KeptEffect sysFabricSetTargetEff := keptEffect_fabricEff _ _ _

theorem keptEffect_sysFabricReadTargetEff : KeptEffect sysFabricReadTargetEff := keptEffect_fabricEff _ _ _

theorem keptEffect_sysFabricReadClearTargetEff : KeptEffect sysFabricReadClearTargetEff := keptEffect_fabricEff _ _ _

theorem keptEffect_sysFabricSetMasterEff : KeptEffect sysFabricSetMasterEff := keptEffect_fabricEff _ _ _

theorem keptEffect_sysFabricReadMasterEff : KeptEffect sysFabricReadMasterEff := keptEffect_fabricEff _ _ _

theorem keptEffect_sysFabricReadClearMasterEff : KeptEffect sysFabricReadClearMasterEff := keptEffect_fabricEff _ _ _

theorem keptEffect_fwStatusEff : KeptEffect fwStatusEff := by
  intro d s
  dsimp only [fwStatusEff]
  first
    | exact Kept.onDev _ (Kept.refl _)
    | exact Kept.refl _

theorem keptEffect_fwInstallManifestEff : KeptEffect fwInstallManifestEff := by
  intro d s
  dsimp only [fwInstallManifestEff]
  (repeat' split) <;> first
    | exact Kept.onDev _ (Kept.refl _)
    | exact Kept.refl _

theorem keptEffect_fwInstallImageEff : KeptEffect fwInstallImageEff := by
  intro d s
  dsimp only [fwInstallImageEff]
  (repeat' split) <;> first
    | exact Kept.onDev _ (Kept.refl _)
    | exact Kept.refl _

theorem keptEffect_fwActivateEff : KeptEffect fwActivateEff := by
  intro d s
  dsimp only [fwActivateEff]
  (repeat' split) <;> first
    | exact Kept.onDev _ (Kept.refl _)
    | exact Kept.refl _

theorem keptEffect_fwConfirmEff : KeptEffect fwConfirmEff := by
  intro d s
  dsimp only [fwConfirmEff]
  (repeat' split) <;> first
    | exact Kept.onDev _ (Kept.refl _)
    | exact Kept.refl _

theorem keptEffect_fwRevertEff : KeptEffect fwRevertEff := by
  intro d s
  dsimp only [fwRevertEff]
  (repeat' split) <;> first
    | exact Kept.onDev _ (Kept.refl _)
    | exact Kept.refl _

theorem keptEffect_headStatusEff : KeptEffect headStatusEff := keptEffect_query _ _ _ _ _

theorem keptEffect_laneConfigEff : KeptEffect laneConfigEff := by
  intro d s
  dsimp only [laneConfigEff]
  (repeat' split) <;> first
    | exact Kept.onDev _ (Kept.refl _)
    | exact Kept.refl _

theorem keptEffect_laneIdleEnterEff : KeptEffect laneIdleEnterEff := keptEffect_laneIdleEff _ _

theorem keptEffect_laneIdleExitEff : KeptEffect laneIdleExitEff := keptEffect_laneIdleEff _ _

theorem keptEffect_lanePrbsEff : KeptEffect lanePrbsEff := by
  intro d s
  dsimp only [lanePrbsEff]
  (repeat' split) <;> first
    | exact Kept.onDev _ (Kept.refl _)
    | exact Kept.refl _

theorem keptEffect_laneStatusEff : KeptEffect laneStatusEff := keptEffect_query _ _ _ _ _

theorem keptEffect_capStatusEff : KeptEffect capStatusEff := keptEffect_query _ _ _ _ _

theorem keptEffect_surfStatusEff : KeptEffect surfStatusEff := keptEffect_query _ _ _ _ _

theorem keptEffect_layerStatusEff : KeptEffect layerStatusEff := keptEffect_query _ _ _ _ _

theorem keptEffect_layerLutReadEff : KeptEffect layerLutReadEff := by
  intro d s
  dsimp only [layerLutReadEff]
  (repeat' split) <;> first
    | exact Kept.onDev _ (Kept.refl _)
    | exact Kept.refl _

theorem keptEffect_layerScalerReadEff : KeptEffect layerScalerReadEff := by
  intro d s
  dsimp only [layerScalerReadEff]
  (repeat' split) <;> first
    | exact Kept.onDev _ (Kept.refl _)
    | exact Kept.refl _

theorem keptEffect_layerScalerReadClearEff : KeptEffect layerScalerReadClearEff := by
  intro d s
  dsimp only [layerScalerReadClearEff]
  (repeat' split) <;> first
    | exact Kept.onDev _ (Kept.refl _)
    | exact Kept.refl _

theorem keptEffect_layerCoeffReadEff : KeptEffect layerCoeffReadEff := by
  intro d s
  dsimp only [layerCoeffReadEff]
  (repeat' split) <;> first
    | exact Kept.onDev _ (Kept.refl _)
    | exact Kept.refl _

theorem keptEffect_powerStatusEff : KeptEffect powerStatusEff := by
  intro d s
  dsimp only [powerStatusEff]
  first
    | exact Kept.onDev _ (Kept.refl _)
    | exact Kept.refl _

theorem keptEffect_powerDomainEff (on : Bool) : KeptEffect (powerDomainEff on) := by
  intro d s
  dsimp only [powerDomainEff]
  (repeat' split) <;> first
    | exact Kept.onDev _ (Kept.refl _)
    | exact Kept.refl _
    | exact Kept.admitAt _ _ _ (Kept.refl _)
    | exact Kept.onDev _ (Kept.bulkPut _ _ _ (Kept.refl _))
    | exact Kept.bulkPut _ _ _ (Kept.refl _)
    | exact Kept.switchDomain _ _ (Kept.refl _)

theorem keptEffect_powerDomainReadEff : KeptEffect powerDomainReadEff := by
  intro d s
  dsimp only [powerDomainReadEff]
  (repeat' split) <;> first
    | exact Kept.onDev _ (Kept.refl _)
    | exact Kept.refl _

theorem keptEffect_powerSleepEff : KeptEffect powerSleepEff := by
  intro d s
  dsimp only [powerSleepEff]
  (repeat' split) <;> first
    | exact Kept.onDev _ (Kept.refl _)
    | exact Kept.refl _

theorem keptEffect_sysWakeEff : KeptEffect sysWakeEff := by
  intro d s
  dsimp only [sysWakeEff]
  (repeat' split) <;> first
    | exact Kept.onDev _ (Kept.refl _)
    | exact Kept.refl _

theorem keptEffect_probeConfigEff : KeptEffect probeConfigEff := by
  intro d s
  dsimp only [probeConfigEff]
  (repeat' split) <;> first
    | exact Kept.onDev _ (Kept.refl _)
    | exact Kept.refl _

theorem keptEffect_probeFreezeArmEff : KeptEffect probeFreezeArmEff := by
  intro d s
  dsimp only [probeFreezeArmEff]
  (repeat' split) <;> first
    | exact Kept.onDev _ (Kept.refl _)
    | exact Kept.refl _
    | exact Kept.admitAt _ _ _ (Kept.refl _)
    | exact Kept.onDev _ (Kept.bulkPut _ _ _ (Kept.refl _))
    | exact Kept.bulkPut _ _ _ (Kept.refl _)
    | exact Kept.switchDomain _ _ (Kept.refl _)
    | exact keptEffect_query _ _ _ _ _ _ _
    | exact keptEffect_probeFreezeCancelEff _ _

theorem keptEffect_probeStatusEff : KeptEffect probeStatusEff := by
  intro d s
  dsimp only [probeStatusEff]
  (repeat' split) <;> first
    | exact Kept.onDev _ (Kept.refl _)
    | exact Kept.refl _
    | exact Kept.admitAt _ _ _ (Kept.refl _)
    | exact Kept.onDev _ (Kept.bulkPut _ _ _ (Kept.refl _))
    | exact Kept.bulkPut _ _ _ (Kept.refl _)
    | exact Kept.switchDomain _ _ (Kept.refl _)
    | exact keptEffect_query _ _ _ _ _ _ _

theorem keptEffect_routeStatusEff : KeptEffect routeStatusEff := by
  intro d s
  dsimp only [routeStatusEff]
  split
  · exact Kept.refl _
  · exact keptEffect_query _ _ _ _ _ _ _

theorem keptEffect_streamStatusEff : KeptEffect streamStatusEff := by
  intro d s
  dsimp only [streamStatusEff]
  (repeat' split) <;> first
    | exact Kept.onDev _ (Kept.refl _)
    | exact Kept.refl _
    | exact Kept.admitAt _ _ _ (Kept.refl _)
    | exact Kept.onDev _ (Kept.bulkPut _ _ _ (Kept.refl _))
    | exact Kept.bulkPut _ _ _ (Kept.refl _)
    | exact Kept.switchDomain _ _ (Kept.refl _)
    | exact keptEffect_query _ _ _ _ _ _ _

theorem keptEffect_secStatusEff : KeptEffect secStatusEff := by
  intro d s
  dsimp only [secStatusEff]
  first
    | exact Kept.onDev _ (Kept.refl _)
    | exact Kept.refl _

theorem keptEffect_secUnlockPasswordEff : KeptEffect secUnlockPasswordEff := by
  intro d s
  dsimp only [secUnlockPasswordEff]
  (repeat' split) <;> first
    | exact Kept.onDev _ (Kept.refl _)
    | exact Kept.refl _

theorem keptEffect_secUnlockResponseEff : KeptEffect secUnlockResponseEff := by
  intro d s
  dsimp only [secUnlockResponseEff]
  (repeat' split) <;> exact Kept.onDev _ (Kept.refl _)

theorem keptEffect_secSealEff : KeptEffect secSealEff := by
  intro d s
  dsimp only [secSealEff]
  exact Kept.onDev _ (Kept.refl _)

theorem keptEffect_secPasswordSetEff : KeptEffect secPasswordSetEff := by
  intro d s
  dsimp only [secPasswordSetEff]
  (repeat' split) <;> first
    | exact Kept.onDev _ (Kept.refl _)
    | exact Kept.refl _

theorem keptEffect_secPasswordClearEff : KeptEffect secPasswordClearEff := by
  intro d s
  dsimp only [secPasswordClearEff]
  (repeat' split) <;> first
    | exact Kept.onDev _ (Kept.refl _)
    | exact Kept.refl _

theorem keptEffect_secChallengeEff : KeptEffect secChallengeEff := by
  intro d s
  dsimp only [secChallengeEff]
  exact Kept.onDev _ (Kept.refl _)

theorem keptEffect_secAttestEff : KeptEffect secAttestEff := by
  intro d s
  dsimp only [secAttestEff]
  (repeat' split) <;> first
    | exact Kept.onDev _ (Kept.refl _)
    | exact Kept.refl _

theorem keptEffect_svcRegReadEff : KeptEffect svcRegReadEff := by
  intro d s
  dsimp only [svcRegReadEff]
  (repeat' split) <;> first
    | exact Kept.onDev _ (Kept.refl _)
    | exact Kept.refl _

theorem keptEffect_svcRegWriteEff : KeptEffect svcRegWriteEff := by
  intro d s
  dsimp only [svcRegWriteEff]
  (repeat' split) <;> first
    | exact Kept.onDev _ (Kept.refl _)
    | exact Kept.refl _

theorem keptEffect_svcEyeEff : KeptEffect svcEyeEff := by
  intro d s
  dsimp only [svcEyeEff]
  (repeat' split) <;> first
    | exact Kept.onDev _ (Kept.refl _)
    | exact Kept.refl _

theorem keptEffect_svcMarginEff : KeptEffect svcMarginEff := by
  intro d s
  dsimp only [svcMarginEff]
  (repeat' split) <;> first
    | exact Kept.onDev _ (Kept.refl _)
    | exact Kept.refl _

theorem keptEffect_setStatusEff : KeptEffect setStatusEff := by
  intro d s
  dsimp only [setStatusEff]
  first
    | exact Kept.onDev _ (Kept.refl _)
    | exact Kept.refl _

theorem keptEffect_setReadEff : KeptEffect setReadEff := by
  intro d s
  dsimp only [setReadEff]
  (repeat' split) <;> first
    | exact Kept.onDev _ (Kept.refl _)
    | exact Kept.refl _

theorem keptEffect_setWriteEff : KeptEffect setWriteEff := by
  intro d s
  dsimp only [setWriteEff]
  (repeat' split) <;> first
    | exact Kept.onDev _ (Kept.refl _)
    | exact Kept.refl _

theorem keptEffect_setPresetSaveEff : KeptEffect setPresetSaveEff := by
  intro d s
  dsimp only [setPresetSaveEff]
  (repeat' split) <;> first
    | exact Kept.onDev _ (Kept.refl _)
    | exact Kept.refl _

theorem keptEffect_setPresetLoadEff : KeptEffect setPresetLoadEff := by
  intro d s
  dsimp only [setPresetLoadEff]
  (repeat' split) <;> first
    | exact Kept.onDev _ (Kept.refl _)
    | exact Kept.refl _
    | exact Kept.admitAt _ _ _ (Kept.refl _)

theorem keptEffect_stageOpenEff : KeptEffect stageOpenEff := by
  intro d s
  dsimp only [stageOpenEff]
  (repeat' split) <;> first
    | exact Kept.onDev _ (Kept.refl _)
    | exact Kept.refl _

theorem keptEffect_stageAddEff : KeptEffect stageAddEff := by
  intro d s
  dsimp only [stageAddEff]
  (repeat' split) <;> first
    | exact Kept.onDev _ (Kept.refl _)
    | exact Kept.refl _

theorem keptEffect_stageCommitImmediateEff : KeptEffect stageCommitImmediateEff := keptEffect_withStage _ _ fun _ _ s => Kept.admitNow _ (Kept.refl s)

theorem keptEffect_stageCommitTimedEff : KeptEffect stageCommitTimedEff := keptEffect_withStage _ _ fun os d s => by
  dsimp only
  (repeat' split) <;> first | exact Kept.onDev _ (Kept.refl _) | exact Kept.refl _ | exact Kept.admitAt _ _ _ (Kept.refl _)

theorem keptEffect_stageCommitPrepareEff : KeptEffect stageCommitPrepareEff := keptEffect_withStage _ _ fun os d s => by
  dsimp only
  have k := fun e b => Kept.same (Kept.refl s) (admitOps_same e b os s)
  (repeat' split) <;> first
    | exact Kept.refl _
    | exact Kept.onDev _ (Kept.refl _)
    | (next q => have k' := k s.dev.queueEnd false; rw [q] at k'; exact k')

theorem keptEffect_stageAbortOpenEff : KeptEffect stageAbortOpenEff := by
  intro d s
  dsimp only [stageAbortOpenEff]
  (repeat' split) <;> first
    | exact Kept.onDev _ (Kept.refl _)
    | exact Kept.refl _

theorem keptEffect_stageAbortPreparedEff : KeptEffect stageAbortPreparedEff := by
  intro d s
  dsimp only [stageAbortPreparedEff]
  (repeat' split) <;> first
    | exact Kept.onDev _ (Kept.refl _)
    | exact Kept.refl _

theorem keptEffect_stageStatusEff : KeptEffect stageStatusEff := by
  intro d s
  dsimp only [stageStatusEff]
  first
    | exact Kept.onDev _ (Kept.refl _)
    | exact Kept.refl _

theorem keptEffect_groupCommitEff : KeptEffect groupCommitEff := by
  intro d s
  dsimp only [groupCommitEff]
  (repeat' split) <;> first
    | exact Kept.onDev _ (Kept.refl _)
    | exact Kept.refl _

theorem keptEffect_sysInfoEff : KeptEffect sysInfoEff := by
  intro d s
  dsimp only [sysInfoEff]
  first
    | exact Kept.onDev _ (Kept.refl _)
    | exact Kept.refl _

theorem keptEffect_sysPingEff : KeptEffect sysPingEff := by
  intro d s
  dsimp only [sysPingEff]
  first
    | exact Kept.onDev _ (Kept.refl _)
    | exact Kept.refl _

theorem keptEffect_sysCountersEff : KeptEffect sysCountersEff := keptEffect_query _ _ _ _ _

theorem keptEffect_sysLeaseAcquireEff : KeptEffect sysLeaseAcquireEff := by
  intro d s
  dsimp only [sysLeaseAcquireEff]
  (repeat' split) <;> first
    | exact Kept.onDev _ (Kept.refl _)
    | exact Kept.refl _

theorem keptEffect_sysLeaseRenewEff : KeptEffect sysLeaseRenewEff := by
  intro d s
  dsimp only [sysLeaseRenewEff]
  (repeat' split) <;> first
    | exact Kept.onDev _ (Kept.refl _)
    | exact Kept.refl _

theorem keptEffect_sysLeaseReleaseEff : KeptEffect sysLeaseReleaseEff := by
  intro d s
  dsimp only [sysLeaseReleaseEff]
  (repeat' split) <;> first
    | exact Kept.onDev _ (Kept.refl _)
    | exact Kept.refl _

theorem keptEffect_sysLeaseReadEff : KeptEffect sysLeaseReadEff := by
  intro d s
  dsimp only [sysLeaseReadEff]
  (repeat' split) <;> first
    | exact Kept.onDev _ (Kept.refl _)
    | exact Kept.refl _

theorem keptEffect_sysNetSetEff : KeptEffect sysNetSetEff := by
  intro d s
  dsimp only [sysNetSetEff]
  (repeat' split) <;> first
    | exact Kept.onDev _ (Kept.refl _)
    | exact Kept.refl _

theorem keptEffect_sysNetReadEff : KeptEffect sysNetReadEff := by
  intro d s
  dsimp only [sysNetReadEff]
  (repeat' split) <;> first
    | exact Kept.onDev _ (Kept.refl _)
    | exact Kept.refl _

theorem keptEffect_refConfigEff : KeptEffect refConfigEff := by
  intro d s
  dsimp only [refConfigEff]
  (repeat' split) <;> first
    | exact Kept.onDev _ (Kept.refl _)
    | exact Kept.refl _

theorem keptEffect_refSelectSetEff : KeptEffect refSelectSetEff := by
  intro d s
  dsimp only [refSelectSetEff]
  (repeat' split) <;> first
    | exact Kept.onDev _ (Kept.refl _)
    | exact Kept.refl _

theorem keptEffect_refSelectReadEff : KeptEffect refSelectReadEff := by
  intro d s
  dsimp only [refSelectReadEff]
  (repeat' split) <;> first
    | exact Kept.onDev _ (Kept.refl _)
    | exact Kept.refl _

theorem keptEffect_refAcceptEff : KeptEffect refAcceptEff := by
  intro d s
  dsimp only [refAcceptEff]
  (repeat' split) <;> first
    | exact Kept.onDev _ (Kept.refl _)
    | exact Kept.refl _

theorem keptEffect_refRealignEff : KeptEffect refRealignEff := by
  intro d s
  dsimp only [refRealignEff]
  (repeat' split) <;> first
    | exact Kept.onDev _ (Kept.refl _)
    | exact Kept.refl _

theorem keptEffect_refStatusEff : KeptEffect refStatusEff := keptEffect_query _ _ _ _ _

theorem keptEffect_tcConfigSetEff : KeptEffect tcConfigSetEff := by
  intro d s
  dsimp only [tcConfigSetEff]
  (repeat' split) <;> first
    | exact Kept.onDev _ (Kept.refl _)
    | exact Kept.refl _

theorem keptEffect_tcConfigReadEff : KeptEffect tcConfigReadEff := by
  intro d s
  dsimp only [tcConfigReadEff]
  (repeat' split) <;> first
    | exact Kept.onDev _ (Kept.refl _)
    | exact Kept.refl _

theorem keptEffect_tcStatusEff : KeptEffect tcStatusEff := keptEffect_query _ _ _ _ _

theorem keptEffect_clkConfigSetEff : KeptEffect clkConfigSetEff := by
  intro d s
  dsimp only [clkConfigSetEff]
  (repeat' split) <;> first
    | exact Kept.onDev _ (Kept.refl _)
    | exact Kept.refl _

theorem keptEffect_clkConfigReadEff : KeptEffect clkConfigReadEff := by
  intro d s
  dsimp only [clkConfigReadEff]
  (repeat' split) <;> first
    | exact Kept.onDev _ (Kept.refl _)
    | exact Kept.refl _

theorem keptEffect_clkConfigReleaseEff : KeptEffect clkConfigReleaseEff := by
  intro d s
  dsimp only [clkConfigReleaseEff]
  (repeat' split) <;> first
    | exact Kept.onDev _ (Kept.refl _)
    | exact Kept.refl _

theorem keptEffect_clkTpinSetEff : KeptEffect clkTpinSetEff := by
  intro d s
  dsimp only [clkTpinSetEff]
  (repeat' split) <;> first
    | exact Kept.onDev _ (Kept.refl _)
    | exact Kept.refl _

theorem keptEffect_clkTpinReadEff : KeptEffect clkTpinReadEff := by
  intro d s
  dsimp only [clkTpinReadEff]
  (repeat' split) <;> first
    | exact Kept.onDev _ (Kept.refl _)
    | exact Kept.refl _

theorem keptEffect_clkTpinReleaseEff : KeptEffect clkTpinReleaseEff := by
  intro d s
  dsimp only [clkTpinReleaseEff]
  (repeat' split) <;> first
    | exact Kept.onDev _ (Kept.refl _)
    | exact Kept.refl _

theorem keptEffect_clkCalibrateEff : KeptEffect clkCalibrateEff := by
  intro d s
  dsimp only [clkCalibrateEff]
  (repeat' split) <;> first
    | exact Kept.onDev _ (Kept.refl _)
    | exact Kept.refl _

theorem keptEffect_fpConfigSetEff : KeptEffect fpConfigSetEff := by
  intro d s
  dsimp only [fpConfigSetEff]
  (repeat' split) <;> first
    | exact Kept.onDev _ (Kept.refl _)
    | exact Kept.refl _

theorem keptEffect_fpConfigReadEff : KeptEffect fpConfigReadEff := by
  intro d s
  dsimp only [fpConfigReadEff]
  (repeat' split) <;> first
    | exact Kept.onDev _ (Kept.refl _)
    | exact Kept.refl _

theorem keptEffect_fpConfigReleaseEff : KeptEffect fpConfigReleaseEff := by
  intro d s
  dsimp only [fpConfigReleaseEff]
  (repeat' split) <;> first
    | exact Kept.onDev _ (Kept.refl _)
    | exact Kept.refl _

theorem keptEffect_fpRealignEff : KeptEffect fpRealignEff := by
  intro d s
  dsimp only [fpRealignEff]
  (repeat' split) <;> first
    | exact Kept.onDev _ (Kept.refl _)
    | exact Kept.refl _

theorem keptEffect_fpStatusEff : KeptEffect fpStatusEff := keptEffect_query _ _ _ _ _

theorem keptEffect_timeConfigEff : KeptEffect timeConfigEff := by
  intro d s
  dsimp only [timeConfigEff]
  (repeat' split) <;> first
    | exact Kept.onDev _ (Kept.refl _)
    | exact Kept.refl _

theorem keptEffect_timeSetNextPulseEff : KeptEffect timeSetNextPulseEff := by
  intro d s
  dsimp only [timeSetNextPulseEff]
  (repeat' split) <;> first
    | exact Kept.onDev _ (Kept.refl _)
    | exact Kept.refl _

theorem keptEffect_timeSetStepEff : KeptEffect timeSetStepEff := by
  intro d s
  dsimp only [timeSetStepEff]
  (repeat' split) <;> first
    | exact Kept.onDev _ (Kept.refl _)
    | exact Kept.refl _

theorem keptEffect_timeStatusEff : KeptEffect timeStatusEff := keptEffect_query _ _ _ _ _

/-! ### What serves a datagram -/

theorem Kept.runEffect {s x : State} {f : Effect} (hf : KeptEffect f) (r : OpRow) (d : Datagram) (h : Kept s x) : Kept s (runEffect r f d x) :=
  let k := hf d x
  ⟨k.1.trans h.1, fun w => k.2 (h.2 w)⟩

theorem Kept.refuseCode {s x : State} {f : Effect} (hf : KeptEffect f) (r : OpRow) (o : Nat) (d : Datagram) (h : Kept s x) :
    Kept s (refuseCode r f o d x) := by
  have k := hf d x
  unfold Sys2Proof.Machine.refuseCode
  extract_lets me other
  have ho : Kept s other := Kept.onDev _ h
  split
  · next q =>
    rw [q] at k
    exact Kept.ite (Kept.onDev _ ⟨k.1.trans h.1, fun w => k.2 (h.2 w)⟩) ho
  · exact ho

theorem Kept.receive {s x : State} {f : Effect} (hf : KeptEffect f) (r : OpRow) (i : Instr) (d : Datagram) (h : Kept s x) :
    Kept s (receive r i f d x) := by
  unfold Sys2Proof.Machine.receive
  split <;> first
    | exact Kept.onDev _ h
    | exact Kept.refuseCode hf _ _ _ (Kept.onDev _ h)
    | exact Kept.runEffect hf _ _ (Kept.onDev _ h)

theorem Kept.serve {s x : State} {f : Effect} (hf : KeptEffect f) (r : OpRow) (i : Instr) (t : Nat) (d : Datagram) (h : Kept s x) :
    Kept s (serve r i t d f x) :=
  Kept.ite (Kept.arrive _ h) (Kept.ite (Kept.onDev _ (Kept.arrive _ h)) (Kept.receive hf _ _ _ (Kept.onDev _ (Kept.arrive _ h))))

/-- The work of every command that a waiting datagram stands for. -/
theorem keptEffect_command {i : Instr} {r : OpRow} {d : Datagram} {f : Effect} (h : command i = some (r, d, f)) : KeptEffect f := by
  cases i <;> cases h
  · exact keptEffect_sysInfoEff
  · exact keptEffect_sysPingEff
  · exact keptEffect_sysLeaseAcquireEff
  · exact keptEffect_sysLeaseRenewEff
  · exact keptEffect_sysLeaseReleaseEff
  · exact keptEffect_sysLeaseReadEff
  · exact keptEffect_sysNetSetEff
  · exact keptEffect_sysNetReadEff
  · exact keptEffect_sysFabricSetTargetEff
  · exact keptEffect_sysFabricReadTargetEff
  · exact keptEffect_sysFabricReadClearTargetEff
  · exact keptEffect_sysFabricSetMasterEff
  · exact keptEffect_sysFabricReadMasterEff
  · exact keptEffect_sysFabricReadClearMasterEff
  · exact keptEffect_sysWakeEff
  · exact keptEffect_sysCountersEff
  · exact keptEffect_laneConfigEff
  · exact keptEffect_laneIdleEnterEff
  · exact keptEffect_laneIdleExitEff
  · exact keptEffect_lanePrbsEff
  · exact keptEffect_laneStatusEff
  · exact keptEffect_stagedEff _
  · exact keptEffect_stagedEff _
  · exact keptEffect_streamStatusEff
  · exact keptEffect_streamStatusEff
  · exact keptEffect_stagedEff _
  · exact keptEffect_routeStatusEff
  · exact keptEffect_stagedEff _
  · exact keptEffect_capStatusEff
  · exact keptEffect_stagedEff _
  · exact keptEffect_stagedEff _
  · exact keptEffect_stagedEff _
  · exact keptEffect_stagedEff _
  · exact keptEffect_surfStatusEff
  · exact keptEffect_stagedEff _
  · exact keptEffect_stagedEff _
  · exact keptEffect_layerLutReadEff
  · exact keptEffect_stagedEff _
  · exact keptEffect_stagedEff _
  · exact keptEffect_stagedEff _
  · exact keptEffect_layerScalerReadEff
  · exact keptEffect_layerScalerReadClearEff
  · exact keptEffect_stagedEff _
  · exact keptEffect_layerCoeffReadEff
  · exact keptEffect_layerStatusEff
  · exact keptEffect_stagedEff _
  · exact keptEffect_stagedEff _
  · exact keptEffect_stagedEff _
  · exact keptEffect_stagedEff _
  · exact keptEffect_headStatusEff
  · exact keptEffect_stagedEff _
  · exact keptEffect_stagedEff _
  · exact keptEffect_stagedEff _
  · exact keptEffect_audioStatusEff
  · exact keptEffect_refConfigEff
  · exact keptEffect_refSelectSetEff
  · exact keptEffect_refSelectReadEff
  · exact keptEffect_refAcceptEff
  · exact keptEffect_refRealignEff
  · exact keptEffect_refStatusEff
  · exact keptEffect_tcConfigSetEff
  · exact keptEffect_tcConfigReadEff
  · exact keptEffect_tcStatusEff
  · exact keptEffect_clkConfigSetEff
  · exact keptEffect_clkConfigReadEff
  · exact keptEffect_clkConfigReleaseEff
  · exact keptEffect_clkTpinSetEff
  · exact keptEffect_clkTpinReadEff
  · exact keptEffect_clkTpinReleaseEff
  · exact keptEffect_clkCalibrateEff
  · exact keptEffect_fpConfigSetEff
  · exact keptEffect_fpConfigReadEff
  · exact keptEffect_fpConfigReleaseEff
  · exact keptEffect_fpRealignEff
  · exact keptEffect_fpStatusEff
  · exact keptEffect_timeConfigEff
  · exact keptEffect_timeSetNextPulseEff
  · exact keptEffect_timeSetStepEff
  · exact keptEffect_timeStatusEff
  · exact keptEffect_stageOpenEff
  · exact keptEffect_stageAddEff
  · exact keptEffect_stageCommitImmediateEff
  · exact keptEffect_stageCommitTimedEff
  · exact keptEffect_stageCommitPrepareEff
  · exact keptEffect_stageAbortOpenEff
  · exact keptEffect_stageAbortPreparedEff
  · exact keptEffect_stageStatusEff
  · exact keptEffect_groupCommitEff
  · exact keptEffect_eventPollEff
  · exact keptEffect_eventLogEff
  · exact keptEffect_eventLedgerEff
  · exact keptEffect_probeConfigEff
  · exact keptEffect_probeFreezeArmEff
  · exact keptEffect_probeFreezeCancelEff
  · exact keptEffect_probeStatusEff
  · exact keptEffect_bulkWriteEff
  · exact keptEffect_bulkReadEff
  · exact keptEffect_fwStatusEff
  · exact keptEffect_fwInstallManifestEff
  · exact keptEffect_fwInstallImageEff
  · exact keptEffect_fwActivateEff
  · exact keptEffect_fwConfirmEff
  · exact keptEffect_fwRevertEff
  · exact keptEffect_setStatusEff
  · exact keptEffect_setReadEff
  · exact keptEffect_setWriteEff
  · exact keptEffect_setPresetSaveEff
  · exact keptEffect_setPresetLoadEff
  · exact keptEffect_secStatusEff
  · exact keptEffect_secUnlockPasswordEff
  · exact keptEffect_secUnlockResponseEff
  · exact keptEffect_secSealEff
  · exact keptEffect_secPasswordSetEff
  · exact keptEffect_secPasswordClearEff
  · exact keptEffect_secChallengeEff
  · exact keptEffect_secAttestEff
  · exact keptEffect_powerStatusEff
  · exact keptEffect_powerSleepEff
  · exact keptEffect_powerDomainEff _
  · exact keptEffect_powerDomainEff _
  · exact keptEffect_powerDomainReadEff
  · exact keptEffect_svcRegReadEff
  · exact keptEffect_svcRegWriteEff
  · exact keptEffect_svcEyeEff
  · exact keptEffect_svcMarginEff

theorem Kept.takeTurn {s x : State} (i : Instr) (h : Kept s x) : Kept s (x.takeTurn i) := by
  unfold State.takeTurn
  split
  · next q =>
    refine Kept.ite (Kept.onDev _ h) ?_
    split
    · exact Kept.onDev _ h
    · split
      · exact Kept.refuseCode (keptEffect_command q) _ _ _ h
      · exact Kept.runEffect (keptEffect_command q) _ _ h
  · exact h

theorem Kept.resume {s x : State} (h : Kept s x) : Kept s x.resume := Kept.foldl _ (fun _ _ hx => Kept.takeTurn _ hx) (Kept.onDev _ h)

theorem Kept.fromQueue {s x : State} (i : Instr) (h : Kept s x) : Kept s (x.fromQueue i) := by
  unfold State.fromQueue
  split
  · exact Kept.onDev _ h
  · exact Kept.onDev _ h
  · split
    · next q => exact Kept.receive (keptEffect_command q) _ _ _ (Kept.onDev _ h)
    · exact h

theorem Kept.drainQueue {s x : State} (h : Kept s x) : Kept s x.drainQueue := Kept.foldl _ (fun _ _ hx => Kept.fromQueue _ hx) (Kept.onDev _ h)

theorem Kept.coreBack {s x : State} (k : Nat) (h : Kept s x) : Kept s (x.coreBack k) :=
  Kept.ite h (Kept.ite (Kept.resume (Kept.drainQueue (Kept.onDev _ (Kept.onDev _ (Kept.onDev _ h))))) (Kept.onDev _ (Kept.onDev _ (Kept.onDev _ h))))

end Sys2Proof.Laws
end

