-- ==== Sys2Proof/Laws/Serve.lean ====
section
/-! SUPPORT. What serving a Daond datagram can do: the command that passes every check runs its work on the state in which it is
counted, and the answer leaves. -/
namespace Sys2Proof.Laws
open Sys2Proof Sys2Proof.Machine

/-- The checks of R411 see neither the instant nor the count of datagrams. -/
theorem screen_arrive (r : OpRow) (d : Datagram) (t : Nat) (s : State) :
    screen r d ((s.arrive t).onDev Dev.countRx).dev = screen r d s.dev := rfl

/-- Passing step 6 of R411 changes the Daond engine alone, and in it the lease alone. -/
theorem passSeq_eq (code : Nat) (d : Datagram) (v : Dev) :
    ∃ l, v.passSeq code d = { v with daond := { v.daond with lease := l } } := by
  unfold Dev.passSeq
  split
  · split
    · exact ⟨_, rfl⟩
    · exact ⟨v.daond.lease, rfl⟩
  · exact ⟨v.daond.lease, rfl⟩

/-- What a command's work begins from: the state of before but for the instant, the outputs, three counters and the lease record. -/
theorem begun_eq (r : OpRow) (t : Nat) (d : Datagram) (s : State) : ∃ l, s.begun r t d =
    { s with dev := { s.dev.arrive t with daond := { s.dev.daond with rxFrames := s.dev.daond.rxFrames + 1, commands := s.dev.daond.commands + 1, lease := l } } } := by
  obtain ⟨l, h⟩ := passSeq_eq r.code (r.apply d) ((s.dev.arrive t).countRx.countCommand)
  exact ⟨l, by simp only [State.begun, State.onDev, State.arrive, h]; rfl⟩

/-- A command that the checks admit runs its work, and its answer leaves. -/
theorem serve_run (r : OpRow) (i : Instr) (t : Nat) (d : Datagram) (eff : Effect) (s : State) (h : s.Admits r d) :
    serve r i t d eff s = runEffect r eff (r.apply d) (s.begun r t d) := by
  obtain ⟨⟨hp, hd, hc⟩, hs⟩ := h
  have e : screen r (r.apply d) ((s.arrive t).onDev Dev.countRx).dev = .run := hs
  have hp' : (s.dev.pow.phase == .reset) = false := by simpa using hp
  simp only [serve, hp', hd, hc, receive, e, Bool.false_or, Bool.not_true, if_false, Bool.false_eq_true]
  rfl

/-- The answer of a command that runs. -/
theorem runEffect_answered (r : OpRow) (eff : Effect) (t : Nat) (d : Datagram) (s u : State) (a : Answer)
    (h : eff (r.apply d) (s.begun r t d) = (u, a)) : runEffect r eff (r.apply d) (s.begun r t d) = u.answered r s.me d a := by
  obtain ⟨l, e⟩ := begun_eq r t d s
  have e' : (s.begun r t d).dev.daond.net.cfg.deviceNumber = s.me := by rw [e]; rfl
  simp only [runEffect, h, e', State.answered]

/-- What serving an admitted command comes to, when its work changes the device by `f` and answers `a`. -/
theorem serve_served {r : OpRow} {i : Instr} {t : Nat} {d : Datagram} {eff : Effect} {s : State} (f : Dev → Dev) (a : Dev → Answer)
    (h : s.Admits r d) (e : eff (r.apply d) (s.begun r t d) = ((s.begun r t d).onDev f, a (s.begun r t d).dev)) :
    serve r i t d eff s = s.served r t d f a := by
  rw [serve_run r i t d eff s h, runEffect_answered r eff t d s _ _ e]
  rfl

/-- A change that is none. -/
theorem onDev_id (s : State) : s.onDev (fun v => v) = s := rfl

/-- The work of a query that R435 allows. -/
theorem query_ok {units size : Nat} {egress : Bool} {record : Nat → Dev → List Byte} {clear : Nat → Dev → Dev} {d : Datagram} {s : State}
    (h : queryOk units egress d.params) : query units size egress record clear d s =
      (s.onDev (queryClear size clear d.params), queryAnswer size record d.params s.dev) := by
  obtain ⟨h1, h2, h3, h4, h5, h6, h7⟩ := h
  have e1 : ¬ fieldU d.params 0 2 ≥ units := by omega
  have e2 : ¬ fieldU d.params 2 1 ≥ (if egress then 4 else 2) := by omega
  have e4 : ¬ (fieldU d.params 4 2 = 0 ∨ fieldU d.params 4 2 > 512 ∨ fieldU d.params 0 2 + fieldU d.params 4 2 > units) := by omega
  simp only [query, if_neg e1, if_neg e2, h3, h7, bne_self_eq_false, Bool.false_eq_true, if_false, queryAnswer, queryIds]
  split
  · next hh =>
    simp only [Bool.or_eq_true, decide_eq_true_eq] at hh
    omega
  · split
    · next hb => exact Prod.ext (by simp only [State.onDev, queryClear, queryIds, hb, if_true]) rfl
    · next hb => exact Prod.ext (by simp only [State.onDev, queryClear, hb]; rfl) rfl

end Sys2Proof.Laws
end

