-- ==== Sys2Proof/Tests/Slice0.lean ====
section
/-! SUPPORT. The author's own tests: what WellFormed refuses, a few single steps, and for every statement with hypotheses a state and
operands that meet them. -/
namespace Sys2Proof.Tests
open Sys2Proof Sys2Proof.Machine

/-! ### Small states and datagrams -/

/-- A device that runs, with the lease of tag 7 held from port 2 of address 1. -/
def up : State :=
  { dev :=
      { pow := { phase := .running, resetN := true }
        daond := { lease := some { tag := 7, addr := 1, port := 2 } } } }

/-- That device after a change. -/
def upWith (f : Dev → Dev) : State := { up with dev := f up.dev }

/-- Parameters of a given length, zero but for the bytes listed. -/
def par (n : Nat) (l : List (Nat × Byte)) : List Byte := l.foldl (fun p x => p.set x.1 x.2) (List.replicate n 0)

/-- The first command under the lease of `up`, with these parameters. -/
def cmd (p : List Byte) : Datagram := { addr := 1, port := 2, leaseTag := 7, sequence := 1, paramLen := p.length, params := p }

/-- Whether R408 and R411 admit a datagram, as a Bool. -/
def admits (s : State) (r : OpRow) (d : Datagram) : Bool :=
  s.dev.pow.phase != .reset && !s.dev.fw.dead && s.dev.coreUp .c && (match screen r (r.apply d) s.dev with | .run => true | _ => false)

theorem admits_of {s : State} {r : OpRow} {d : Datagram} (h : admits s r d = true) : s.Admits r d := by
  simp only [admits, Bool.and_eq_true, bne_iff_ne, ne_eq, Bool.not_eq_true'] at h
  obtain ⟨⟨⟨h1, h2⟩, h3⟩, h4⟩ := h
  refine ⟨⟨h1, h2, h3⟩, ?_⟩
  cases e : screen r (r.apply d) s.dev <;> simp [e] at h4 ⊢

/-- An admission that succeeds has a state and units. -/
theorem ok_of {x : State × Except Fail (List UnitOp)} (h : x.2.isOk = true) : ∃ s us, x = (s, .ok us) := by
  obtain ⟨s, e⟩ := x
  cases e with
  | ok us => exact ⟨s, us, rfl⟩
  | error f => cases h

/-- An admission that fails has a state and a failure. -/
theorem error_of {x : State × Except Fail (List UnitOp)} (h : x.2.isOk = false) : ∃ s f, x = (s, .error f) := by
  obtain ⟨s, e⟩ := x
  cases e with
  | ok us => cases h
  | error f => exact ⟨s, f, rfl⟩

theorem test_EmptyQueueIdles_met : ∃ s : State, s.pending = [] := ⟨up, rfl⟩
theorem test_EveryStepKeepsMemoryCanonical_met : ∃ s u : State, s.MemOk ∧ step s = .next u := ⟨State.reset, _, rfl, rfl⟩

theorem test_OnlyAnAdmittedBulkWriteStores_met :
    ∃ (s : State) (d : Datagram), s.MemOk ∧ s.Admits bulkWriteRow d ∧ bulkBad true d.params = none ∧ fieldU d.params 0 1 = 0 ∧
      (s.begun bulkWriteRow 0 d).dev.writeBusy (fieldU d.params 8 8) (fieldU d.params 4 4) = none ∧ (s.dev.master 50).draining = false :=
  ⟨up, cmd (par 80 [(7, 64), (16, 0xAB)]), rfl, admits_of (by decide), by decide, by decide, by decide, by decide⟩

theorem test_OnlyAnAdmittedBulkWriteStores_at_the_end_met :
    ∃ (s : State) (d : Datagram), s.MemOk ∧ s.Admits bulkWriteRow d ∧ bulkBad true d.params = none ∧ fieldU d.params 0 1 = 0 ∧
      fieldU d.params 8 8 + 64 = region3 ∧
      (s.begun bulkWriteRow 0 d).dev.writeBusy (fieldU d.params 8 8) (fieldU d.params 4 4) = none ∧ (s.dev.master 50).draining = false :=
  ⟨up, cmd (par 80 [(7, 64), (11, 0x17), (12, 0x7F), (13, 0xFF), (14, 0xFF), (15, 0xC0), (16, 0xAB)]), rfl, admits_of (by decide), by decide,
    by decide, by decide, by decide, by decide⟩

theorem test_EveryDatagramIsScreened_met : ∃ (i : Instr) (r : OpRow) (d : Datagram) (eff : Effect) (s : State),
    command i = some (r, d, eff) ∧ s.dev.Serving ∧ (∀ t d, i ≠ .streamStatusIngress t d ∧ i ≠ .streamStatusEgress t d) :=
  ⟨.sysPing 0 (cmd []), _, _, _, up, rfl, ⟨by decide, by decide, by decide⟩, fun _ _ => ⟨by simp, by simp⟩⟩

theorem test_HeaderChecksComeFirst_met :
    isCommand (cmd []) up.dev = true ∧ isCommand { cmd [] with version := 2 } up.dev = true ∧ isCommand { cmd [] with paramLen := 1 } up.dev = true ∧
    isCommand { cmd [] with paramLen := 8961, params := List.replicate 8961 0 } up.dev = true ∧
    isCommand { cmd [] with flags := 16 } up.dev = true ∧ isCommand { cmd [] with leaseTag := 8 } up.dev = true ∧
    sysWakeRow.lease [] = true ∧ underLease sysWakeRow.code { cmd [] with leaseTag := 8 } up.dev = false := by decide

/-- The device after it has answered the command with sequence 1. -/
def served1 : State :=
  upWith fun v => { v with daond := { v.daond with lease := some { tag := 7, addr := 1, port := 2, newest := 0x100, cache := [(1, {})] } } }

theorem test_CachedReplyIsResent_met : ∃ (i : Instr) (r : OpRow) (d : Datagram) (eff : Effect) (s : State) (l : Lease) (rep : Reply),
    command i = some (r, d, eff) ∧ (∀ t d, i ≠ .streamStatusIngress t d ∧ i ≠ .streamStatusEgress t d) ∧ s.dev.Serving ∧
    isCommand (r.apply d) s.dev = true ∧ headerCheck r.code (r.apply d) = none ∧ s.dev.daond.lease = some l ∧
    underLease r.code (r.apply d) s.dev = true ∧ l.running.contains d.sequence = false ∧ (l.newest - d.sequence).toNat ≤ 255 ∧
    l.cache.find? (fun e => e.1 == d.sequence) = some (d.sequence, rep) :=
  ⟨.sysWake 0 (cmd []), _, _, _, served1, _, {}, rfl, fun _ _ => ⟨by simp, by simp⟩, ⟨by decide, by decide, by decide⟩, by decide, by decide, rfl,
    by decide, by decide, by decide, by decide⟩

theorem test_AdmissionConditionsSuffice_met :
    (∃ (r : OpRow) (d : Datagram) (s : State), s.dev.Serving ∧ isCommand (r.apply d) s.dev = true ∧ headerCheck r.code (r.apply d) = none ∧
      underLease r.code (r.apply d) s.dev = true ∧ (∃ l, s.dev.daond.lease = some l ∧ classify l d.sequence = .fresh) ∧
      stateCheck r (r.apply d) s.dev = none ∧ r.lenOk (r.apply d).params = true ∧ r.badCode (r.apply d).params = none ∧
      s.dev.daond.waiting = [] ∧ s.dev.daond.deferred = [] ∧
      s.dev.fw.queueWait = none ∧ s.dev.daond.commits.length + s.dev.daond.prepared.length < 4096 ∧ s.dev.coreUp r.core = true) ∧
    (∃ (r : OpRow) (d : Datagram) (s : State), s.dev.Serving ∧ isCommand (r.apply d) s.dev = true ∧ headerCheck r.code (r.apply d) = none ∧
      r.lease (r.apply d).params = false ∧ s.dev.daond.lease = none ∧
      stateCheck r (r.apply d) s.dev = none ∧ r.lenOk (r.apply d).params = true ∧ r.badCode (r.apply d).params = none ∧
      s.dev.daond.waiting = [] ∧ s.dev.daond.deferred = [] ∧
      s.dev.fw.queueWait = none ∧ s.dev.daond.commits.length + s.dev.daond.prepared.length < 4096 ∧ s.dev.coreUp r.core = true) :=
  ⟨⟨stageAbortRow 0, cmd (par 8 []), up, ⟨by decide, by decide, by decide⟩, by decide, by decide, by decide, ⟨_, rfl, by decide⟩, by decide, by decide,
      by decide, by decide, by decide, by decide, by decide, by decide⟩,
    ⟨sysInfoRow, cmd [], upWith fun v => { v with daond := {} }, ⟨by decide, by decide, by decide⟩, by decide, by decide, by decide, by decide,
      by decide, by decide, by decide, by decide, by decide, by decide, by decide, by decide⟩⟩

theorem test_ReplyLeavesAndNothingElseChanges_met : ∃ (s : State) (r : OpRow) (d : Datagram) (a : Dev → Answer) (st : Status) (p : List Byte) (m : Bool),
    a (s.begun r 0 d).dev = .done st p m := ⟨up, sysWakeRow, cmd [], fun _ => .ok [], _, _, _, rfl⟩

theorem test_LeaseTagIsFresh_met : ∃ old : List Nat, old.length ≤ 16 ∧ 1 ∈ old ∧ 0xFFFE ∈ old := ⟨[1, 0xFFFE], by decide⟩

/-- A device that runs, with no lease held. -/
def free : State := upWith fun v => { v with daond := {} }

theorem test_LeaseCommandsChangeTheLease_met :
    (∃ (s : State) (d : Datagram), s.Admits sysLeaseAcquireRow d ∧ leaseBad true (sysLeaseAcquireRow.apply d).params = none ∧ d.leaseTag = 0 ∧
      ∀ l, s.dev.daond.lease = some l → l.addr = d.addr ∧ l.port = d.port) ∧
    (∃ (s : State) (d : Datagram) (l : Lease), s.Admits sysLeaseAcquireRow d ∧ leaseBad true (sysLeaseAcquireRow.apply d).params = none ∧
      d.leaseTag = 0 ∧ s.dev.daond.lease = some l ∧ (l.addr ≠ d.addr ∨ l.port ≠ d.port)) ∧
    (∃ (s : State) (d : Datagram), s.Admits sysLeaseRenewRow d ∧ leaseBad true (sysLeaseRenewRow.apply d).params = none) ∧
    ∃ (s : State) (d : Datagram), s.Admits sysLeaseReleaseRow d ∧ leaseBad false (sysLeaseReleaseRow.apply d).params = none :=
  ⟨⟨free, { cmd (par 8 [(3, 60)]) with leaseTag := 0 }, admits_of (by decide), by decide, rfl, by intro l h; cases h⟩,
    ⟨up, { cmd (par 8 []) with leaseTag := 0, port := 3 }, _, admits_of (by decide), by decide, rfl, rfl, by decide⟩,
    ⟨up, cmd (par 8 [(3, 1)]), admits_of (by decide), by decide⟩, ⟨up, cmd (par 8 []), admits_of (by decide), by decide⟩⟩

theorem test_SystemReadsAnswer_met :
    free.Admits sysInfoRow (cmd []) ∧ free.Admits sysPingRow (cmd (par 8 [])) ∧
    (∃ d, free.Admits sysLeaseReadRow d ∧ leaseBad false (sysLeaseReadRow.apply d).params = none) ∧
    ∃ d, free.Admits sysNetReadRow d ∧
      firstBad [⟨7, 1, .reserved, []⟩, ⟨13, 3, .reserved, []⟩, ⟨41, 7, .reserved, []⟩, ⟨70, 2, .reserved, []⟩] (sysNetReadRow.apply d).params = none :=
  ⟨admits_of (by decide), admits_of (by decide), ⟨cmd (par 8 []), admits_of (by decide), by decide⟩, ⟨cmd (par 72 []), admits_of (by decide), by decide⟩⟩

theorem test_NetworkSettingsComeIntoForce_met : ∃ d, up.Admits sysNetSetRow d ∧ netBad (sysNetSetRow.apply d).params = none :=
  ⟨cmd (par 72 [(3, 1)]), admits_of (by decide), by decide⟩

/-- The parameters of a query: first unit, count, flags (R435). -/
def range (first count : Nat) (flags : Byte) : List Byte := toBE 2 first ++ [flags, 0] ++ toBE 2 count ++ [0, 0]

theorem test_QueriesAnswerTheirRecords_met :
    (∀ x ∈ [(laneStatusRow, 512), (routeStatusRow, 512), (capStatusRow, 512), (surfStatusRow, 16384), (layerStatusRow, 1024), (headStatusRow, 256),
        (audioStatusRow, 16384), (refStatusRow, 41), (tcStatusRow, 8), (fpStatusRow, 32), (timeStatusRow, 1), (sysCountersRow, 1)],
      up.Admits x.1 (cmd (range (x.2 - 1) 1 1)) ∧ queryOk x.2 false (x.1.apply (cmd (range (x.2 - 1) 1 1))).params) ∧
    up.dev.streamInside 1 (fieldU (cmd (range 511 1 1)).params 0 2) 0 = none ∧
    up.Admits laneStatusRow (cmd (range 0 512 0)) ∧ queryOk 512 false (laneStatusRow.apply (cmd (range 0 512 0))).params := by
  refine ⟨?_, by decide, admits_of (by decide), by unfold queryOk; decide⟩
  simp only [List.forall_mem_cons, List.not_mem_nil, false_implies, implies_true, and_true]
  refine ⟨?_, ?_, ?_, ?_, ?_, ?_, ?_, ?_, ?_, ?_, ?_, ?_⟩ <;> exact ⟨admits_of (by decide), by unfold queryOk; decide⟩

/-- A device with bonds of two lanes whose lowest is 4, one in and one out. -/
def bonded : State :=
  upWith fun v => { v with
    cfg := { v.cfg with ingress := [(4, { stream := 4, bondSize := 2 })], egress := [(4, { stream := 4, direction := 1, bondSize := 2 })] } }
/-- The datagram with bit 1 of its flags byte set or clear, as a STREAM.STATUS row sends it. -/
def sideOf (egress : Bool) (d : Datagram) : Datagram :=
  { d with params := d.params.set 2 (if egress then BitVec.ofNat 8 (fieldU d.params 2 1) ||| 2#8 else BitVec.ofNat 8 (fieldU d.params 2 1) &&& 0xFD#8) }

theorem test_StreamAndProbeQueriesAnswer_met :
    (∃ (s : State) (d : Datagram), let x := sideOf false d
      s.Admits streamStatusIngressRow x ∧ queryOk 512 true x.params ∧ bit (fieldU x.params 2 1) 1 = false ∧
      s.dev.streamInside 0 (fieldU x.params 0 2) 0 = none) ∧
    (∃ (s : State) (d : Datagram), let x := sideOf true d
      s.Admits streamStatusEgressRow x ∧ queryOk 512 true x.params ∧ bit (fieldU x.params 2 1) 1 = true ∧
      s.dev.streamInside 1 (fieldU x.params 0 2) 0 = none) ∧
    (∃ (s : State) (d : Datagram) (f : Fail), let x := sideOf false d
      s.Admits streamStatusIngressRow x ∧ bit (fieldU x.params 2 1) 1 = false ∧ s.dev.streamInside 0 (fieldU x.params 0 2) 0 = some f) ∧
    (∀ flags ∈ [1, 3], ∃ (s : State) (d : Datagram), d.params = range 511 1 flags ∧ s.Admits probeStatusRow d ∧ queryOk 512 true d.params ∧
      s.dev.streamInside (b01 (bit (fieldU d.params 2 1) 1)) (fieldU d.params 0 2) 0 = none) ∧
    (∀ flags ∈ [0, 2], ∃ (s : State) (d : Datagram) (f : Fail), d.params = range 5 1 flags ∧ s.Admits probeStatusRow d ∧
      s.dev.streamInside (b01 (bit (fieldU d.params 2 1) 1)) (fieldU d.params 0 2) 0 = some f) ∧
    ∃ (s : State) (d : Datagram) (f : Fail), s.Admits routeStatusRow d ∧ s.dev.streamInside 1 (fieldU d.params 0 2) 0 = some f := by
  refine ⟨⟨up, cmd (range 511 1 1), admits_of (by decide), by unfold queryOk; decide, by decide, by decide⟩,
    ⟨up, cmd (range 511 1 1), admits_of (by decide), by unfold queryOk; decide, by decide, by decide⟩,
    ⟨bonded, cmd (range 5 1 0), _, admits_of (by decide), by decide, rfl⟩, ?_, ?_, ⟨bonded, cmd (range 5 1 0), _, admits_of (by decide), rfl⟩⟩ <;>
    simp only [List.forall_mem_cons, List.not_mem_nil, false_implies, implies_true, and_true]
  · constructor <;> exact ⟨up, cmd (range 511 1 _), rfl, admits_of (by decide), by unfold queryOk; decide, by decide⟩
  · constructor <;> exact ⟨bonded, cmd (range 5 1 _), _, rfl, admits_of (by decide), rfl⟩

/-- A device with an open static surface 8192, a sealed one 8193, and egress stream 0 configured. -/
def stocked : State :=
  upWith fun v => { v with cfg := { v.cfg with
      statics := [(8192, newSurface (readSurfCfg (par 64 [(0, 0x20), (6, 8), (9, 16), (11, 16)]) 0)),
    (8193, { newSurface (readSurfCfg (par 64 [(0, 0x20), (1, 1), (6, 8), (9, 16), (11, 16), (22, 0x10)]) 0) with state := .sealed })],
      egress := [(0, { stream := 0, direction := 1, bondSize := 1 })] } }

/-- The hypotheses of StagedOperationAloneIsCommitted for one row: its parameters are admitted and its operation is found good, or not. -/
def aloneMet (r : OpRow) (code : Nat) (p : List Byte) (ok : Bool) : Prop :=
  stocked.Admits r (cmd p) ∧
    let b := stocked.begun r 0 (cmd p)
    let x := admitOps (settleU + b.dev.nowU) true [{ code := code, params := (r.apply (cmd p)).params }] b
    if ok then ∃ s1 us, x = (s1, .ok us) else ∃ s1 f, x = (s1, .error f)

/-- The same, with the parameters of a wrong object number. -/
def bad (p : List Byte) : List Byte := (p.set 0 0xFF).set 1 0xFF
theorem test_StagedOperationAloneIsCommitted_good_met :
    aloneMet streamConfigIngressRow 0x0301 (par 52 []) true ∧
    aloneMet surfCreateRow 0x0601 (par 64 [(0, 0x20), (1, 2), (6, 8), (9, 16), (11, 16), (21, 0x10)]) true ∧
    aloneMet headTimingRow 0x0801 (par 80 []) true ∧
    aloneMet audioToneRow 0x0903 (par 16 []) true :=
  ⟨⟨admits_of (by decide +kernel), ok_of (by decide +kernel)⟩, ⟨admits_of (by decide +kernel), ok_of (by decide +kernel)⟩, ⟨admits_of (by decide +kernel), ok_of (by decide +kernel)⟩, ⟨admits_of (by decide +kernel), ok_of (by decide +kernel)⟩⟩

theorem test_StagedOperationAloneIsCommitted_bad_met :
    aloneMet streamConfigIngressRow 0x0301 (bad (par 52 [])) false ∧
    aloneMet streamConfigEgressRow 0x0301 (bad (par 12 [])) false ∧
    aloneMet routeTakeRow 0x0401 (bad (par 8 [])) false ∧
    aloneMet capConfigRow 0x0501 (bad (par 32 [])) false ∧
    aloneMet surfCreateRow 0x0601 (bad (par 64 [(0, 0x20), (1, 2), (6, 8), (9, 16), (11, 16), (21, 0x10)])) false ∧
    aloneMet surfSealRow 0x0602 (bad (par 8 [(0, 0x20)])) false ∧
    aloneMet surfUnsealRow 0x0603 (bad (par 8 [(0, 0x20), (1, 1)])) false ∧
    aloneMet surfDeleteRow 0x0604 (bad (par 8 [(0, 0x20)])) false ∧
    aloneMet layerConfigRow 0x0701 (bad (par 64 [])) false ∧
    aloneMet layerLutLoadRow 0x0702 (bad (List.replicate 4108 0)) false ∧
    aloneMet layerMatrixRow 0x0703 (bad (par 64 [])) false ∧
    aloneMet layerSynthRow 0x0704 (bad (par 32 [])) false ∧
    aloneMet layerScalerSetRow 0x0705 (bad (par 16 [])) false ∧
    aloneMet layerCoeffLoadRow 0x0706 (bad (List.replicate 1032 0)) false ∧
    aloneMet headTimingRow 0x0801 (bad (par 80 [])) false ∧
    aloneMet headColourRow 0x0802 (bad (par 84 [(3, 8)])) false ∧
    aloneMet headSrEnterRow 0x0803 (bad (par 8 [])) false ∧
    aloneMet headSrExitRow 0x0803 (bad (par 8 [])) false ∧
    aloneMet audioChannelRow 0x0901 (bad (par 24 [])) false ∧
    aloneMet audioStreamRow 0x0902 (bad (par 16 [])) false ∧
    aloneMet audioToneRow 0x0903 (bad (par 16 [])) false := by
  refine ⟨?_, ?_, ?_, ?_, ?_, ?_, ?_, ?_, ?_, ?_, ?_, ?_, ?_, ?_, ?_, ?_, ?_, ?_, ?_, ?_, ?_⟩ <;> exact ⟨admits_of (by decide +kernel), error_of (by decide +kernel)⟩

theorem test_CommitsStayInOrder_met : ∃ q : List Commit, q.length = 2 ∧ q.Pairwise (fun a b => a.before b = true) :=
  ⟨[{ effective := 1, order := 1 }, { effective := 1, order := 2 }], rfl, by decide⟩

/-- A device with an open transaction of these operations. -/
def opened (os : List StagedOp) : State := upWith fun v => { v with daond := { v.daond with open_ := some { ops := os } } }

/-- A device of number 3 with a prepared transaction of group 9, with these operations, that waits 600 s. -/
def preparedWith (os : List (UnitId × StagedOp)) : State :=
  upWith fun v => { v with
    daond := { v.daond with
      prepared := [{ groupId := 9, holdS := 600, commit := { ops := os } }]
      net := { v.daond.net with cfg := { v.daond.net.cfg with deviceNumber := 3 } } } }
/-- The same with no operations. -/
def prepared9 : State := preparedWith []

theorem test_StageOpenAddAndStatusRun_met :
    (∃ (s : State) (d : Datagram), s.Admits stageOpenRow d ∧ s.dev.daond.open_ = none) ∧
    (∃ (s : State) (d : Datagram), s.Admits stageOpenRow d ∧ s.dev.daond.open_ ≠ none) ∧
    (∃ (s : State) (d : Datagram) (tx : OpenTx) (os : List StagedOp), s.Admits stageAddRow d ∧ s.dev.daond.open_ = some tx ∧
      parseAdd (d.params.length + 1) tx.ops.length 0 d.params = .ops os ∧ (tx.ops ++ os).length ≤ 4096 ∧
      stageBytes (tx.ops ++ os) + (s.dev.daond.prepared.map (·.bytes)).sum ≤ 8388608) ∧
    (∃ (s : State) (d : Datagram) (tx : OpenTx) (os : List StagedOp), s.Admits stageAddRow d ∧ s.dev.daond.open_ = some tx ∧
      parseAdd (d.params.length + 1) tx.ops.length 0 d.params = .ops os ∧
      8388608 < stageBytes (tx.ops ++ os) + (s.dev.daond.prepared.map (·.bytes)).sum) ∧
    (∃ (s : State) (d : Datagram) (tx : OpenTx) (f : Fail), s.Admits stageAddRow d ∧ s.dev.daond.open_ = some tx ∧
      parseAdd (d.params.length + 1) tx.ops.length 0 d.params = .bad f) ∧
    (∃ (s : State) (d : Datagram), s.Admits stageAddRow d ∧ s.dev.daond.open_ = none) ∧
    ∃ (s : State) (d : Datagram), s.Admits stageStatusRow d :=
  ⟨⟨up, cmd [], admits_of (by decide), rfl⟩, ⟨opened [], cmd [], admits_of (by decide), by decide⟩,
    ⟨opened [], cmd (par 12 [(0, 6), (1, 2), (3, 8)]), _, _, admits_of (by decide), rfl, rfl, by decide, by decide⟩,
    ⟨(upWith fun v => { v with
        daond := { v.daond with open_ := some {}, prepared := [{ bytes := 8388608 }] } }), cmd (par 12 [(0, 6), (1, 2), (3, 8)]), _, _,
      admits_of (by decide), rfl, rfl, by decide⟩,
    ⟨opened [], cmd (par 4 [(3, 8)]), _, _, admits_of (by decide), rfl, rfl⟩, ⟨up, cmd [], admits_of (by decide), rfl⟩,
    ⟨up, cmd [], admits_of (by decide)⟩⟩

theorem test_StageAbortDiscardsItsTarget_met :
    (∃ (s : State) (d : Datagram), s.Admits (stageAbortRow 0) d ∧ abortBad (stageAbortRow 0 |>.apply d).params = none ∧ s.dev.daond.open_.isSome = true) ∧
    (∃ (s : State) (d : Datagram), s.Admits (stageAbortRow 0) d ∧ abortBad (stageAbortRow 0 |>.apply d).params = none ∧ s.dev.daond.open_ = none) ∧
    (∀ b : Bool, ∃ (s : State) (d : Datagram), s.Admits (stageAbortRow 1) d ∧ abortBad (stageAbortRow 1 |>.apply d).params = none ∧
      (s.dev.daond.prepared.any fun q => q.groupId == fieldU (stageAbortRow 1 |>.apply d).params 2 2) = b) :=
  ⟨⟨opened [], cmd (par 8 []), admits_of (by decide), by decide, by decide⟩, ⟨up, cmd (par 8 []), admits_of (by decide), by decide, by decide⟩,
    fun b => match b with
      | true => ⟨prepared9, cmd (par 8 [(3, 9)]), admits_of (by decide), by decide, by decide⟩
      | false => ⟨prepared9, cmd (par 8 [(3, 8)]), admits_of (by decide), by decide, by decide⟩⟩

/-- A transaction that unroutes nothing: one release of ingress stream 0. -/
def release0 : List StagedOp := [{ code := 0x0301, params := par 52 [] }]
/-- A transaction with an operation on a stream that does not exist. -/
def wrong : List StagedOp := [{ code := 0x0301, params := bad (par 52 []) }]

/-- The state in which a STAGE.COMMIT admits its transaction. -/
def closing (os : List StagedOp) (m : Byte) (d : Datagram) : State :=
  ((opened os).begun (stageCommitRow m) 0 d).onDev fun v => { v with daond := { v.daond with open_ := none } }

theorem test_StageCommitAdmitsTheTransaction_met :
    (∀ b : Bool, ∃ (os : List StagedOp) (d : Datagram), os ≠ [] ∧ d.params.length = 20 ∧ (opened os).Admits (stageCommitRow 0) d ∧
      commitBad 0 ((stageCommitRow 0).apply d).params = none ∧
      let x := admitOps (settleU + (closing os 0 d).dev.nowU) true os (closing os 0 d)
      if b then ∃ s1 us, x = (s1, .ok us) else ∃ s1 f, x = (s1, .error f)) ∧
    (∀ b : Bool, ∃ (os : List StagedOp) (d : Datagram), os ≠ [] ∧ d.params.length = 20 ∧ (opened os).Admits (stageCommitRow 1) d ∧
      let p := ((stageCommitRow 1).apply d).params
      commitBad 1 p = none ∧ (closing os 1 d).dev.timeVerdict (fieldT p 4) = none ∧
      let x := admitOps (fieldT p 4) true os (closing os 1 d)
      if b then ∃ s1 us, x = (s1, .ok us) else ∃ s1 f, x = (s1, .error f)) ∧
    (∀ b : Bool, ∃ (os : List StagedOp) (d : Datagram), os ≠ [] ∧ d.params.length = 20 ∧ (opened os).Admits (stageCommitRow 2) d ∧
      let p := ((stageCommitRow 2).apply d).params
      commitBad 2 p = none ∧ (opened os).dev.daond.prepared.length < 16 ∧
      ((opened os).dev.daond.prepared.any fun q => q.groupId == fieldU p 2 2) = false ∧ syncInPrepare os = none ∧
      let x := admitOps (closing os 2 d).dev.queueEnd false os (closing os 2 d)
      if b then ∃ s1 us, x = (s1, .ok us) else ∃ s1 f, x = (s1, .error f)) :=
  ⟨fun b => match b with
      | true => ⟨release0, cmd (par 20 []), by simp [release0], by decide, admits_of (by decide), by decide, ok_of (by decide +kernel)⟩
      | false => ⟨wrong, cmd (par 20 []), by simp [wrong], by decide, admits_of (by decide), by decide, error_of (by decide +kernel)⟩,
    fun b => match b with
      | true => ⟨release0, cmd (par 20 [(9, 1)]), by simp [release0], by decide, admits_of (by decide), by decide, by decide +kernel, ok_of (by decide +kernel)⟩
      | false => ⟨wrong, cmd (par 20 [(9, 1)]), by simp [wrong], by decide, admits_of (by decide), by decide, by decide +kernel, error_of (by decide +kernel)⟩,
    fun b => match b with
      | true => ⟨release0, cmd (par 20 [(3, 9), (17, 1)]), by simp [release0], by decide, admits_of (by decide), by decide, by decide, by decide, by decide,
          ok_of (by decide +kernel)⟩
      | false => ⟨wrong, cmd (par 20 [(3, 9), (17, 1)]), by simp [wrong], by decide, admits_of (by decide), by decide, by decide, by decide, by decide,
          error_of (by decide +kernel)⟩⟩

/-- A GROUP.COMMIT of group 9 whose membership names the device 3, at a given second. -/
def groupCmd (sec : Byte) : Datagram := { cmd (par 148 [(1, 9), (9, sec), (20, 8)]) with flags := 4 }

/-- A device in which the group's take names an ingress stream that is locked and has shown no gap. -/
def noWindow : State :=
  { preparedWith [(.take 0, { code := 0x0401, params := par 8 [(2, 1), (5, 5)] })] with
    dev := (preparedWith [(.take 0, { code := 0x0401, params := par 8 [(2, 1), (5, 5)] })]).dev.modIs 5 fun x => { x with state := .locked } }

theorem test_GroupCommitExecutesThePrepared_met :
    (∃ (s : State) (d : Datagram), s.Admits groupCommitRow d ∧ groupBad d.params = none ∧
      s.dev.daond.prepared.find? (fun q => q.groupId == fieldU d.params 0 2) = none) ∧
    (∃ (s : State) (d : Datagram) (q : Prepared) (f : Fail), s.Admits groupCommitRow d ∧ groupBad d.params = none ∧
      s.dev.daond.prepared.find? (fun q => q.groupId == fieldU d.params 0 2) = some q ∧
      (s.begun groupCommitRow 0 d).dev.timeVerdict (fieldT d.params 4) = some f) ∧
    (∃ (s : State) (d : Datagram) (q : Prepared) (n : Nat), s.Admits groupCommitRow d ∧ groupBad d.params = none ∧
      s.dev.daond.prepared.find? (fun q => q.groupId == fieldU d.params 0 2) = some q ∧
      (s.begun groupCommitRow 0 d).dev.timeVerdict (fieldT d.params 4) = none ∧
      (s.begun groupCommitRow 0 d).dev.groupTake (fieldT d.params 4) q.commit = some n) ∧
    (∃ (s : State) (d : Datagram) (q : Prepared), s.Admits groupCommitRow d ∧ groupBad d.params = none ∧
      s.dev.daond.prepared.find? (fun q => q.groupId == fieldU d.params 0 2) = some q ∧
      (s.begun groupCommitRow 0 d).dev.timeVerdict (fieldT d.params 4) = none ∧
      (s.begun groupCommitRow 0 d).dev.groupTake (fieldT d.params 4) q.commit = none) :=
  ⟨⟨prepared9, { groupCmd 1 with params := par 148 [(1, 8), (20, 8)] }, admits_of (by decide +kernel), by decide +kernel, by decide⟩,
    ⟨prepared9, groupCmd 0, _, _, admits_of (by decide +kernel), by decide +kernel, rfl, rfl⟩,
    ⟨noWindow, groupCmd 1, _, 0, admits_of (by decide +kernel), by decide +kernel, rfl, by decide +kernel, by decide +kernel⟩,
    ⟨prepared9, groupCmd 1, _, admits_of (by decide +kernel), by decide +kernel, rfl, by decide +kernel, by decide⟩⟩

theorem test_TimersOfTheLeaseAndOfStages_met :
    (∀ b : Bool, ∃ (s : State) (t : Nat) (l : Lease), s.dev.daond.lease = some l ∧ s.dev.coreUp .c = true ∧
      decide (l.restartedAt + secQ * l.timeoutS ≤ t) = b) ∧ free.dev.daond.lease = none ∧
    (∀ b : Bool, ∃ (s : State) (t g : Nat) (x : Prepared), s.dev.daond.prepared.find? (fun x => x.groupId == g) = some x ∧
      decide (x.since + secQ * x.holdS ≤ t) = b) ∧
    prepared9.dev.daond.prepared.find? (fun x => x.groupId == 8) = none :=
  ⟨fun b => match b with
      | true => ⟨up, 5 * secQ, _, rfl, by decide, by decide⟩
      | false => ⟨up, 5 * secQ - 1, _, rfl, by decide, by decide⟩, rfl,
    fun b => match b with
      | true => ⟨prepared9, 600 * secQ, 9, _, rfl, by decide⟩
      | false => ⟨prepared9, 600 * secQ - 1, 9, _, rfl, by decide⟩, rfl⟩

/-- A device with an ingress stream in a given state. -/
def withIs (n : Nat) (f : IngressSt → IngressSt) : State := upWith fun v => v.modIs n f

/-- A device in which ingress stream 5 feeds egress stream 0. -/
def fed : State :=
  upWith fun v => { v.modEs 0 (fun x => { x with forwarding := true }) with
    cfg := { v.cfg with routes := [(0, { take := { sourceKind := 1, source := 5 } })] } }

/-- A device in which one unit waits for a commit of E 250 ns. -/
def waitingFor (u : UnitId) (f : Dev → Dev) : State :=
  upWith fun v => { f v with daond := { v.daond with commits := [{ effective := 16384000, ops := [(u, {})], left := [u] }] } }

/-- A device with an unroute of egress stream 511 due. -/
def unrouting : State :=
  upWith fun v => { v with
    daond := { v.daond with commits := [{ ops := [(.take 511, { code := 0x0401, params := par 8 [(0, 1), (1, 255)] })], left := [.take 511] }] } }

/-- A device in which a take off a LOCKED ingress stream, whose gaps nothing has shown yet, waits. -/
def noGap : State :=
  { unrouting with dev := { unrouting.dev.modIs 511 (fun x => { x with state := .locked }) with
    cfg := { unrouting.dev.cfg with routes := [(511, { take := { sourceKind := 1, source := 511 } })] } } }

theorem test_CommitReachesItsUnitAtE_met :
    up.dev.mediaOn = true ∧ up.dev.firstE (.head 255) = none ∧
    (∀ u ∈ [UnitId.head 255, .surface 8192, .slot 1023, .ingress 511, .capture 511, .egress 511, .take 511, .audioChannel 16383, .audioStream 511, .tone 63],
      (waitingFor u id).dev.mediaOn = true ∧ ∃ d k, (waitingFor u id).dev.firstE u = some d ∧ 0 < d ∧
        (waitingFor u id).dev.daond.commits.find? (fun k => k.left.contains u) = some k) ∧
    (∀ u ∈ [UnitId.ingress 511, .capture 511], ∀ x ∈ [IsState.search, .locked], ∃ d,
      let s := waitingFor u (Dev.modIs 511 fun y => { y with state := x })
      s.dev.mediaOn = true ∧ s.dev.firstE u = some d ∧ (((s.dev.arrive d).is 511).state != .locked) = (x != .locked)) ∧
    (∀ carries : Bool, ∃ d, let s := waitingFor (.egress 0) fun v => if carries then fed.dev else v
      s.dev.mediaOn = true ∧ s.dev.firstE (.egress 0) = some d ∧ (s.dev.arrive d).carries 0 = carries) ∧
    (unrouting.dev.mediaOn = true ∧ ∃ d, unrouting.dev.firstE (.take 511) = some d ∧ (unrouting.dev.arrive d).takeFree 511 = true) ∧
    (noGap.dev.mediaOn = true ∧ ∃ d, noGap.dev.firstE (.take 511) = some d ∧ (noGap.dev.arrive d).takeFree 511 = false) ∧
    ∀ heard : Bool, ∃ d,
      let s := waitingFor (.tone 63) fun v => if heard then { v with cfg := { v.cfg with audio := [(0, { sourceKind := 2, source := 63 })] } } else v
      s.dev.mediaOn = true ∧ s.dev.firstE (.tone 63) = some d ∧ ((s.dev.arrive d).cfg.audio.any fun a => a.2.sourceKind == 2 && a.2.source == 63) = heard := by
  refine ⟨by decide, by decide, ?_, ?_, ?_, ⟨by decide, _, rfl, by decide +kernel⟩, ⟨by decide, _, rfl, by decide +kernel⟩, ?_⟩
  · simp only [List.forall_mem_cons, List.not_mem_nil, false_implies, implies_true, and_true]
    refine ⟨?_, ?_, ?_, ?_, ?_, ?_, ?_, ?_, ?_, ?_⟩ <;> exact ⟨by decide, _, _, rfl, by decide, rfl⟩
  · simp only [List.forall_mem_cons, List.not_mem_nil, false_implies, implies_true, and_true]
    refine ⟨⟨?_, ?_⟩, ?_, ?_⟩ <;> exact ⟨_, by decide, rfl, by decide⟩
  · intro b; cases b <;> exact ⟨_, by decide, rfl, by decide⟩
  · intro b; cases b <;> exact ⟨_, by decide, rfl, by decide⟩

theorem test_FabricCommandsRun_met :
    (∃ d, up.Admits (fabricRow 0) d ∧ fabricBad 0 ((fabricRow 0).apply d).params = none) ∧
    (∃ d, up.Admits (fabricRow 1) d ∧ fabricBad 1 ((fabricRow 1).apply d).params = none) ∧
    (∃ d, up.Admits (fabricRow 2) d ∧ fabricBad 2 ((fabricRow 2).apply d).params = none) ∧
    (∃ d, up.Admits (fabricRow 3) d ∧ fabricBad 3 ((fabricRow 3).apply d).params = none) ∧
    (∃ d, up.Admits (fabricRow 4) d ∧ fabricBad 4 ((fabricRow 4).apply d).params = none) ∧
    (∃ d, up.Admits (fabricRow 5) d ∧ fabricBad 5 ((fabricRow 5).apply d).params = none) := by
  refine ⟨⟨cmd (par 8 [(1, 15)]), ?_⟩, ⟨cmd (par 8 [(1, 15)]), ?_⟩, ⟨cmd (par 8 [(1, 15)]), ?_⟩, ⟨cmd (par 8 [(1, 53)]), ?_⟩,
    ⟨cmd (par 8 [(1, 53)]), ?_⟩, ⟨cmd (par 8 [(1, 53)]), ?_⟩⟩ <;> exact ⟨admits_of (by decide), by decide⟩

theorem test_FabricHappeningsRun_met :
    up.dev.mediaOn = true ∧ 0 < up.dev.clk.riseT + 1280 * 3200 * (up.dev.fabric.window + 1) ∧
    (∃ v : Dev, (v.target 19).parkedOn = some 53 ∧ (v.target 19).defaultMaster = 0) ∧ (∃ v : Dev, (v.target 19).defaultMaster = 53 ∧ (v.master 53).draining = true) ∧
    ∃ v : Dev, (v.master 53).draining = true ∧ (v.target 19).drains = [53] ∧ (v.target 19).parkedOn = none :=
  ⟨by decide, by decide, ⟨up.dev.modTarget 19 fun y => { y with parkedOn := some 53, defaultMaster := 0 }, by decide⟩,
    ⟨(up.dev.modTarget 19 fun y => { y with defaultMaster := 53 }).modMaster 53 fun x => { x with draining := true }, by decide⟩,
    ⟨(up.dev.modTarget 19 fun y => { y with drains := [53] }).modMaster 53 fun x => { x with draining := true }, by decide⟩⟩

/-- A device with a configured ingress stream on lane 32 and an egress stream on lanes 64 and 65. -/
def streams : State :=
  upWith fun v => { v with
    cfg := { v.cfg with ingress := [(32, { stream := 32, bondSize := 1 })], egress := [(64, { stream := 64, direction := 1, bondSize := 2 })] } }

theorem test_LaneCommandsRun_met :
    (∃ d, up.Admits laneConfigRow d ∧ laneConfigBad d.params = none ∧ up.dev.cfg.streamOn (fieldU d.params 0 1) = none ∧
      up.dev.pow.off.contains (8 + fieldU d.params 0 1) = false) ∧
    (∃ d k i, streams.Admits laneConfigRow d ∧ laneConfigBad d.params = none ∧ streams.dev.cfg.streamOn (fieldU d.params 0 1) = some (k, i)) ∧
    (∀ r ∈ [laneIdleEnterRow, laneIdleExitRow], (∃ d, streams.Admits r d ∧ laneIdleBad (r.apply d).params = none ∧
        streams.dev.cfg.egressAt (fieldU (r.apply d).params 0 2) = none ∧ streams.dev.pow.off.contains (8 + fieldU (r.apply d).params 0 2 / 32) = false) ∧
      ∃ d c, streams.Admits r d ∧ laneIdleBad (r.apply d).params = none ∧
        streams.dev.cfg.egressAt (fieldU (r.apply d).params 0 2) = some (fieldU (r.apply d).params 0 2, c)) ∧
    (∃ d, up.Admits lanePrbsRow d ∧ lanePrbsBad d.params = none ∧ up.dev.pow.off.contains (8 + fieldU d.params 0 2 / 32) = false ∧
      fieldU d.params 2 1 = 0 ∧ up.dev.cfg.egressAt (fieldU d.params 0 2) = none) ∧
    (∃ d, up.Admits lanePrbsRow d ∧ lanePrbsBad d.params = none ∧ up.dev.pow.off.contains (8 + fieldU d.params 0 2 / 32) = false ∧
      fieldU d.params 2 1 ≠ 0 ∧ up.dev.cfg.ingressAt (fieldU d.params 0 2) = none) ∧
    (∃ d e c, streams.Admits lanePrbsRow d ∧ lanePrbsBad d.params = none ∧ streams.dev.pow.off.contains (8 + fieldU d.params 0 2 / 32) = false ∧
      fieldU d.params 2 1 = 0 ∧ streams.dev.cfg.egressAt (fieldU d.params 0 2) = some (e, c)) ∧
    ∃ d e c, streams.Admits lanePrbsRow d ∧ lanePrbsBad d.params = none ∧ streams.dev.pow.off.contains (8 + fieldU d.params 0 2 / 32) = false ∧
      fieldU d.params 2 1 ≠ 0 ∧ streams.dev.cfg.ingressAt (fieldU d.params 0 2) = some (e, c) := by
  refine ⟨⟨cmd (par 8 [(0, 15)]), admits_of (by decide), by decide, by decide, by decide⟩,
    ⟨cmd (par 8 [(0, 1)]), _, _, admits_of (by decide), by decide, rfl⟩, ?_,
    ⟨cmd (par 8 [(0, 1), (1, 255), (3, 4), (7, 1)]), admits_of (by decide), by decide, by decide, by decide, by decide⟩,
    ⟨cmd (par 8 [(0, 1), (1, 255), (2, 1), (3, 4), (7, 1)]), admits_of (by decide), by decide, by decide, by decide, by decide⟩,
    ⟨cmd (par 8 [(1, 65), (3, 1), (4, 255), (5, 255), (6, 255), (7, 255)]), _, _, admits_of (by decide), by decide, by decide, by decide, rfl⟩,
    ⟨cmd (par 8 [(1, 32), (2, 1), (3, 1), (7, 1)]), _, _, admits_of (by decide), by decide, by decide, by decide, rfl⟩⟩
  simp only [List.forall_mem_cons, List.not_mem_nil, false_implies, implies_true, and_true]
  constructor <;> exact ⟨⟨cmd (par 8 [(0, 1), (1, 255)]), admits_of (by decide), by decide, by decide, by decide⟩,
    ⟨cmd (par 8 [(1, 64)]), _, admits_of (by decide), by decide, rfl⟩⟩

/-- A device with the last lane in a given state. -/
def withLane (f : LaneSt → LaneSt) : State := upWith fun v => v.setLane 511 (f (v.lane 511))

theorem test_LaneReceiverFollowsItsInput_met :
    (withLane fun l => { l with cdr := true }).dev.rxRuns 511 = true ∧
    (∀ x ∈ [RxState.hunt, .idle, .relock, .idlePending, .locked], ((withLane fun l => { l with rx := x }).dev.lane 511).rx = x ∧
      (withLane fun l => { l with rx := x }).dev.rxThere 511 = true) ∧
    ∀ late : Bool, ∃ (s : State) (t : Nat), s.dev.rxThere 511 = true ∧ (s.dev.lane 511).rx = .relock ∧
      decide ((s.dev.lane 511).detectT + 24 * blockQ (s.dev.block 15).rateCode ≤ max s.dev.clk.now t) = late :=
  ⟨by decide, by decide, fun late => match late with
    | true => ⟨withLane fun l => { l with rx := .relock }, 24 * blockQ 0, by decide⟩
    | false => ⟨withLane fun l => { l with rx := .relock }, 24 * blockQ 0 - 1, by decide⟩⟩

theorem test_ThirtyTwoHeadersLock_met :
    (∃ l : LaneSt, l.rx = .verify ∧ l.verifyCount = 1) ∧
    (∀ ok : Bool, ∃ l : LaneSt, l.rx = .locked ∧ 8 ≤ (((ok :: l.history).take 64).filter (!·)).length) ∧
    (∀ ok : Bool, ∃ l : LaneSt, l.rx = .locked ∧ (((ok :: l.history).take 64).filter (!·)).length < 8) :=
  ⟨⟨{ rx := .verify, verifyCount := 1 }, rfl, rfl⟩,
    fun ok => ⟨{ rx := .locked, history := List.replicate 8 false }, rfl, by cases ok <;> decide⟩,
    fun ok => ⟨{ rx := .locked, history := List.replicate 6 false }, rfl, by cases ok <;> decide⟩⟩

theorem test_PrbsCheckerTakesItsBits_met :
    (∃ (s : State) (lane : Fin 512), s.dev.mediaOn = true ∧ s.dev.blockOn (lane / 32) = true ∧ (s.dev.block (lane / 32)).refclk = true ∧
      (s.dev.lane lane).rxEnable = true ∧ (s.dev.lane lane).rxPattern ≠ 0) ∧
    ∀ k ∈ [1, 2, 3, 4], ∃ l : LaneSt, l.rxPattern = k ∧ l.prbsSynced = false ∧ l.prbsGood = 0 ∧ l.prbsReg.length = (prbsTaps l.rxPattern).1 := by
  refine ⟨⟨withLane fun l => { l with rxPattern := 4 }, 511, by decide⟩, fun k _ => ⟨{ rxPattern := k, prbsReg := List.replicate (prbsTaps k).1 true }, ?_⟩⟩
  simp

/-- A device with a head that feeds egress stream 511. -/
def headFed : State :=
  upWith fun v => { v with
    cfg := { v.cfg with egress := [(511, { stream := 511, direction := 1, bondSize := 1 })], routes := [(511, { take := { sourceKind := 2, source := 255 } })] } }

theorem test_LaneTransmitterFollowsItsTimers_met :
    (up.dev.mediaOn = true ∧ up.dev.blockOn 15 = true ∧ (up.dev.block 15).refclk = true) ∧
    (∀ late : Bool, ((withLane fun l => { l with tx := .train }).dev.arrive (if late then 4000000000 else 3999999999)).trained 511 = late) ∧
    (∀ x ∈ [(false, false), (false, true), (true, false)], ∃ s : State, (s.dev.arrive 4000000000).dwelt 511 = true ∧ (s.dev.lane 511).startHeld = x.1 ∧
      (s.dev.lane 511).exitHeld = x.2 ∧ s.dev.cfg.egressAt 511 = none) ∧
    (∃ (s : State) (e : Nat) (c : EgressCfg), (s.dev.arrive 4000000000).dwelt 511 = true ∧ (s.dev.lane 511).startHeld = true ∧
      s.dev.cfg.egressAt 511 = some (e, c)) ∧
    (up.dev.arrive 4000000000).dwelt 511 = false ∧
    ((withLane fun l => { l with tx := .burst }).dev.arrive 0).burstDone 511 = true ∧ (withLane fun l => { l with tx := .burst }).dev.cfg.egressAt 511 = none ∧
    (up.dev.arrive 0).burstDone 511 = false ∧
    ∃ (s : State) (e : Nat) (c : EgressCfg) (h : Nat), (s.dev.arrive 0).burstDone 511 = true ∧ s.dev.cfg.egressAt 511 = some (e, c) ∧
      (s.dev.cfg.route e).source = .head h := by
  refine ⟨by decide, fun b => by cases b <;> decide, ?_,
    ⟨{ headFed with dev := headFed.dev.setLane 511 { tx := .dusk, dwelling := true, startHeld := true } }, 511, _, by decide +kernel, by decide, rfl⟩,
    by decide +kernel, by decide +kernel, by decide, by decide +kernel,
    ⟨{ headFed with dev := headFed.dev.setLane 511 { tx := .burst } }, 511, _, 255, by decide +kernel, rfl, by decide⟩⟩
  simp only [List.forall_mem_cons, List.not_mem_nil, false_implies, implies_true, and_true]
  refine ⟨⟨withLane fun l => { l with tx := .dusk, dwelling := true }, ?_⟩, ⟨withLane fun l => { l with tx := .dusk, dwelling := true, exitHeld := true }, ?_⟩,
    ⟨withLane fun l => { l with tx := .dusk, dwelling := true, startHeld := true }, ?_⟩⟩ <;> exact ⟨by decide +kernel, by decide, by decide, by decide⟩

theorem test_BlockCodeRoundTrips_met : ∃ (kind seq : Nat) (payload : List Byte), kind ≤ 4 ∧ seq < 16 ∧ payload.length = 60 :=
  ⟨4, 15, List.replicate 60 0xFF, by decide⟩

/-- A device whose last ingress stream has a formed bond. -/
def parsing : State := withIs 511 fun x => { x with state := .search }

/-- A 64 by 32 progressive format of descriptor_id 7 and a configuration that expects it. -/
def desc7 : Desc := { width := 64, height := 32, bitDepth := 8, hTotal := 80, vTotal := 40, rateNum := 50, rateDen := 1, descriptorId := 7 }
/-- A device with ingress stream 511 configured for that format. -/
def expecting (f : IngressSt → IngressSt) : State :=
  upWith fun v => { v.modIs 511 f with
    cfg := { v.cfg with ingress := [(511, { stream := 511, bondSize := 1, rateTolPpm := 0, matchBits := 0xFFF, expected := desc7 })] } }

theorem test_PacketsOfAStreamAreTaken_met :
    (∃ (s : State) (p q : Packet), s.dev.parses 511 = true ∧ p.lost = false ∧ p.payload.length ≤ 8192 ∧ q.lost = false ∧ 8192 < q.payload.length) ∧
    (∃ (u : State) (q : List Byte) (c : IngressCfg), smFind 511 u.dev.cfg.ingress = some c ∧ (u.dev.is 511).state ≠ .mismatch ∧ accepts c (readDesc q 0) = true) ∧
    (∃ (u : State) (q : List Byte) (c : IngressCfg) (d : Desc), smFind 511 u.dev.cfg.ingress = some c ∧ c.rateTolPpm = 0 ∧ q.length = 12 ∧ fieldU q 10 1 ≤ 2 ∧
      (u.dev.is 511).state = .search ∧ (u.dev.is 511).frame = none ∧ (u.dev.is 511).fresh = true ∧ (u.dev.is 511).held = some d ∧
      d.descriptorId = fieldU q 9 1) ∧
    (∃ (u : State) (q : List Byte) (f : FrameRx), (u.dev.is 511).frame = some f ∧ f.discard = false ∧ lineValid f.meter.desc f.meter.field q = true ∧
      f.meter.inOrder (fieldU q 0 2) (fieldU q 2 2) = true ∧ (u.dev.is 511).state = .search ∧ f.surface = none) ∧
    (∃ (u : State) (q : List Byte) (f : FrameRx), (u.dev.is 511).frame = some f ∧ f.discard = false ∧ q.length = 20 ∧ (u.dev.is 511).state = .search ∧
      f.whole = true ∧ fieldU q 0 4 = f.frameNumber ∧ fieldU q 16 2 = f.meter.lines ∧ f.meter.lines = f.meter.desc.frameLines) ∧
    ∀ x ∈ [IsState.locked, .selfRefresh, .search], ∀ restart ∈ [1, 3], ∃ (u : State) (q : List Byte), q.length = 12 ∧ fieldU q 11 1 = restart ∧
      (u.dev.is 511).state = x :=
  ⟨⟨parsing, {}, { payload := List.replicate 8193 0 }, by decide, rfl, by decide, rfl, by rw [List.length_replicate]; decide⟩,
    ⟨expecting fun x => { x with state := .search }, writeDesc desc7, _, rfl, by decide, by decide⟩,
    ⟨expecting fun x => { x with state := .search, fresh := true, held := some desc7 }, par 12 [(9, 7)], _, _, rfl, rfl, by decide, by decide, by decide,
      by decide, by decide, rfl, by decide⟩,
    ⟨expecting fun x => { x with state := .search, frame := some { meter := { desc := desc7, line := some 30 } } }, par 11 [(1, 31), (5, 1)], _, rfl, rfl,
      by decide, by decide, by decide, rfl⟩,
    ⟨expecting fun x => { x with state := .search, frame := some { frameNumber := 9, meter := { desc := desc7, line := some 31, lines := 32 } } },
      par 20 [(3, 9), (17, 32)], _, rfl, rfl, by decide, by decide, by decide, by decide, by decide, by decide⟩,
    fun x _ r h => by
      simp only [List.mem_cons, List.not_mem_nil, or_false] at h
      refine ⟨expecting fun y => { y with state := x }, par 12 [(11, BitVec.ofNat 8 r)], ?_, ?_, ?_⟩
      · rcases h with rfl | rfl <;> decide
      · rcases h with rfl | rfl <;> decide
      · cases x <;> decide⟩

theorem test_DamagedPacketsAreCounted_met : (∃ (s : State) (p : Packet), s.dev.parses 511 = true ∧ p.lost = true) ∧ up.dev.parses 511 = false :=
  ⟨⟨parsing, { lost := true }, by decide, rfl⟩, by decide⟩

/-- A device with a frame of 64 by 32 pixels in progress on ingress stream 0, whose last VIDEO_LINE was line 31. -/
def inFrame (discard : Bool) : State :=
  withIs 0 fun x => { x with frame := some { meter := { desc := { width := 64, height := 32, bitDepth := 8 }, line := some 31 }, discard := discard } }

theorem test_MisplacedPacketsAreCounted_met :
    (∃ p : List Byte, p.length = 12 ∧ 2 < fieldU p 10 1) ∧ (∃ p : List Byte, p.length = 12 ∧ 1 < fieldU p 9 1) ∧
    (∀ held ∈ [none, some desc7], ∀ b : Bool, ∃ (s : State) (p : List Byte), (s.dev.is 511).frame = none ∧ (s.dev.is 511).held = held ∧
      strayLineValid (s.dev.is 511).held p = b) ∧
    (∃ f, ((inFrame true).dev.is 0).frame = some f ∧ f.discard = true) ∧
    (∃ f p, ((inFrame false).dev.is 0).frame = some f ∧ f.discard = false ∧ lineValid f.meter.desc f.meter.field p = false) ∧
    (∃ f p, ((inFrame false).dev.is 0).frame = some f ∧ f.discard = false ∧ lineValid f.meter.desc f.meter.field p = true ∧
      f.meter.inOrder (fieldU p 0 2) (fieldU p 2 2) = false) := by
  refine ⟨⟨par 12 [(10, 3)], by decide⟩, ⟨par 12 [(9, 2)], by decide⟩, ?_, ⟨_, rfl, rfl⟩, ⟨_, par 11 [(1, 32), (5, 1)], rfl, rfl, by decide⟩,
    ⟨_, par 11 [(1, 30), (5, 1)], rfl, rfl, by decide, by decide⟩⟩
  intro held _ b
  refine ⟨expecting fun x => { x with held := held }, if b then par 11 [(1, 31), (5, 1)] else par 8 [], by decide +revert, by decide +revert, ?_⟩
  rename_i h
  simp only [List.mem_cons, List.not_mem_nil, or_false] at h
  rcases h with rfl | rfl <;> cases b <;> decide

theorem test_StreamsLockAndRefresh_met :
    (∃ (v : Dev) (c : IngressCfg), smFind 511 v.cfg.ingress = some c ∧ c.rateTolPpm = 0 ∧ (v.is 511).state = .search ∧ (v.is 511).accepted = true) ∧
    (∃ (s : State) (p : List Byte), p.length = 12 ∧ fieldU p 9 1 ≤ 1 ∧ (s.dev.is 511).state = .locked) ∧
    (∃ s : State, (s.dev.is 511).state = .selfRefresh) ∧ (up.dev.is 511).state ≠ .locked ∧ (up.dev.is 511).state ≠ .selfRefresh :=
  ⟨⟨(upWith fun v => { v.modIs 511 fun x => { x with state := .search, accepted := true } with
        cfg := { v.cfg with ingress := [(511, { stream := 511, bondSize := 1, rateTolPpm := 0 })] } }).dev, _, rfl, rfl, by decide, by decide⟩,
    ⟨withIs 511 fun x => { x with state := .locked }, par 12 [(9, 1)], by decide, by decide, by decide⟩,
    ⟨withIs 511 fun x => { x with state := .selfRefresh }, by decide⟩, by decide, by decide⟩

theorem test_StreamTimersTheHuntAndTakesRun_met :
    parsing.dev.parses 511 = true ∧ up.dev.parses 511 = false ∧ up.dev.mediaOn = true ∧ noGap.dev.mediaOn = true ∧ unrouting.dev.mediaOn = true ∧
    (noGap.arrive 1000000000000000).dev.startLate 511 = true ∧ (up.arrive 0).dev.startLate 511 = false ∧
    unrouting.dev.takeT 511 = some 0 ∧ (∃ d, (waitingFor (.take 511) id).dev.mediaOn = true ∧ (waitingFor (.take 511) id).dev.takeT 511 = some d ∧ 0 < d) ∧
    (∃ (s : State) (d : Nat), s.dev.mediaOn = true ∧ s.dev.takeLostT 511 = some d ∧ 0 < d ∧ (s.dev.arrive d).takeLost 511 = true) ∧
    (∃ d, unrouting.dev.takeLostT 511 = some d ∧ (unrouting.dev.arrive d).takeLost 511 = false) ∧
    up.dev.takeT 511 = none ∧ up.dev.takeLostT 511 = none ∧ ∃ (v : Dev) (k : Commit) (r : List Commit), v.due (.take 511) = k :: r :=
  ⟨by decide, by decide, by decide, by decide, by decide, by decide +kernel, by decide, by decide +kernel, ⟨1001600, by decide, by decide +kernel, by decide⟩,
    ⟨waitingFor (.take 511) fun _ => noGap.dev, 1000000, by decide, by decide +kernel, by decide, by decide +kernel⟩, ⟨_, rfl, by decide +kernel⟩, by decide, by decide, ⟨unrouting.dev, _, _, rfl⟩⟩

/-- A raster of 4 lines of 8 pixels, with porches of one line, of a VARIABLE head up to 100. -/
def raster (mode : Nat) : TimingCfg :=
  { mode := mode, hActive := 4, hBp := 4, vActive := 4, vFp := 1, vFpMin := 1, vFpMax := 100, vSync := 1, vBp := 1, dcoFreqHz := 2000000000, pclkNum := 1, pclkDen := 1 }
/-- A device whose last head has a gated layer with nothing to show, or none. -/
def gated (ready : Bool) : State :=
  upWith fun v => if ready then v else { v with cfg := { v.cfg with
    slots := [(1023, { layer := some { slot := 1023, head := 255, enable := 1, notReadyPolicy := 3, sourceKind := 1 } })] } }

/-- A device whose last head has a timing, with its head state as given. -/
def withHead (c : TimingCfg) (f : HeadSt → HeadSt) : State :=
  upWith fun v => { v.modHead 255 f with cfg := { v.cfg with heads := [(255, { timing := some c })] } }

theorem test_HeadHappeningsRun_met :
    (∀ x ∈ [(none, true), (some 1000000, false)], ∃ d, let s := withHead (raster 0) fun y => { y with startQ := x.1, fieldOpen := x.2 }
      s.dev.mediaOn = true ∧ (s.dev.cfg.head 255).timing = some (raster 0) ∧ s.dev.cfg.pairOdd 255 = false ∧
      s.dev.midnightDue 255 (raster 0) = some d ∧ 0 < d) ∧
    (withHead (raster 0) id).dev.midnightDue 255 (raster 0) = none ∧
    (∀ m ∈ [0, 1], ∃ s : State, s.dev.mediaOn = true ∧ (s.dev.cfg.head 255).timing = some (raster m) ∧ (s.dev.head 255).selDue = true ∧
      0 < s.dev.clk.instantOf (s.dev.decisionQ 255 (if m = 1 then (s.dev.head 255).candL else (s.dev.head 255).vFpNext) (raster m))) ∧
    (((withHead (raster 1) id).dev.head 255).selDue = false ∧ (withHead (raster 0) id).dev.activeDue 255 (raster 0) = none) ∧
    (∃ (s : State) (d : Nat), s.dev.mediaOn = true ∧ (s.dev.cfg.head 255).timing = some (raster 0) ∧ s.dev.activeDue 255 (raster 0) = some d ∧ 0 < coreUp d) ∧
    (∀ line ∈ [3, 4], ∀ open_ : Bool, let s := withHead (raster 0) fun y => { y with fieldOpen := open_, sending := open_ }
      s.dev.mediaOn = true ∧ (s.dev.cfg.head 255).timing = some (raster 0) ∧
      (raster 0).lineOpen line (s.dev.head 255).nextLine (s.dev.head (s.dev.cfg.rasterHead 255)) = (open_ == decide (line < 4))) ∧
    (0 < (withHead (raster 0) id).dev.rasterT 255 (raster 0) ((raster 0).lineAt 3 ((withHead (raster 0) id).dev.head 255))) ∧
    (0 < coreUp ((up.dev.head 254).midnightT + 6 * usQ) ∧ up.dev.mediaOn = true ∧ up.dev.cfg.pairOdd 254 = false ∧ (up.dev.cfg.head 255).timing = none ∧
      up.dev.cfg.pairOdd 255 = false) ∧
    (∀ ready : Bool, ∀ last : Bool, ∃ (v : Dev) (c : TimingCfg),
      v.allGatedReady (v.cfg.headGroup 255) (v.decisionQ 255 (v.head 255).candL c) = ready ∧ decide ((v.head 255).candL < c.vFpMax) = !last) ∧
    ∃ u : State, (u.dev.head 255).inSr = true ∧ (u.dev.head 255).selDue = false ∧ (u.dev.head 255).endDue = false ∧ (u.dev.head 255).srDue = false := by
  refine ⟨?_, by decide, ?_, by decide,
    ⟨withHead (raster 0) fun y => { y with decided := true }, _, by decide, rfl, rfl, by decide +kernel⟩, by decide, by decide +kernel, by decide, ?_,
    ⟨withHead (raster 0) fun y => { y with inSr := true }, by decide⟩⟩
  · simp only [List.forall_mem_cons, List.not_mem_nil, false_implies, implies_true, and_true]
    constructor <;> exact ⟨_, by decide, rfl, by decide, rfl, by decide +kernel⟩
  · simp only [List.forall_mem_cons, List.not_mem_nil, false_implies, implies_true, and_true]
    constructor <;> exact ⟨withHead (raster _) fun y => { y with selDue := true, vFpNext := 100000, candL := 100000 }, by decide, rfl, by decide, by decide +kernel⟩
  · intro ready last
    refine ⟨(gated ready).dev.modHead 255 fun y => { y with candL := if last then 100 else 1 }, raster 1, ?_⟩
    cases ready <;> cases last <;> decide +kernel

/-- A head that feeds egress stream 511, with its state and that of the stream. -/
def clocked (f : HeadSt → HeadSt) (g : EgressSt → EgressSt) : State :=
  upWith fun v => { ((v.modHead 255 f).modEs 511 g).setLane 511 { tx := .run } with
    cfg := { v.cfg with
      heads := [(255, { timing := some (raster 0) })]
      egress := [(511, { stream := 511, direction := 1, bondSize := 1 })]
      routes := [(511, { take := { sourceKind := 2, source := 255 } })] } }

theorem test_ClockInfoIsSent_met :
    (∀ x ∈ [none, some (1, []), some (0, [])], ∀ b ∈ [none, some 0],
      let s := clocked (fun y => { y with clockInfo := x }) fun y => { y with clockT := b, clockMs := 7 }
      let a := s.arrive (100 * usQ)
      s.dev.mediaOn = true ∧ (s.dev.cfg.route 511).source = .head 255 ∧ (s.dev.cfg.head (s.dev.cfg.rasterHead 255)).timing = some (raster 0) ∧
      a.dev.nowQ / msQ = 0 ∧ (s.dev.es 511).clockMs = 7 ∧ (b = none ∨ 100 * usQ ≤ a.dev.clk.now) ∧ (s.dev.head 255).startQ = none ∧
      a.dev.headOpen 255 511 = true ∧ a.dev.txFlows 511 = true) ∧
    (up.dev.mediaOn = true ∧ (clocked id id).dev.mediaOn = true ∧ ((clocked id id).arrive 0).dev.nowQ / msQ = ((clocked id id).dev.es 511).clockMs) ∧
    (up.dev.cfg.route 511).source = .none := by
  refine ⟨?_, by decide, rfl⟩
  simp only [List.forall_mem_cons, List.not_mem_nil, false_implies, implies_true, and_true]
  refine ⟨⟨?_, ?_⟩, ⟨?_, ?_⟩, ?_, ?_⟩ <;> decide +kernel

/-- A device whose last embedded channel is resolved, or is configured with automatic conversion. -/
def withEc (f : EcSt → EcSt) : State := upWith fun v => v.modEc 16383 f

theorem test_AudioHappeningsRun_met :
    up.dev.mediaOn = true ∧ (up.dev.es 511).audioOn = false ∧ ((upWith (Dev.modEs 511 fun x => { x with audioOn := true })).dev.es 511).audioOn = true ∧
    0 < up.dev.clk.instantOf (up.dev.windowEnd 511) ∧
    (∃ q, (waitingFor (.audioChannel 16383) id).dev.channelT 16383 = some q ∧ (waitingFor (.audioChannel 16383) id).dev.mediaOn = true) ∧
    up.dev.channelT 16383 = none ∧
    (∃ q, (waitingFor (.audioStream 511) id).dev.firstDue [.audioStream 511] = some q ∧ (waitingFor (.audioStream 511) id).dev.mediaOn = true) ∧
    up.dev.firstDue [.audioStream 511] = none ∧
    (∃ (s : State) (a : AudioChCfg) (x : Nat), s.dev.mediaOn = true ∧ smFind 16383 s.dev.cfg.audio = some a ∧ a.sourceKind ≠ 2 ∧ a.conversion = 0 ∧
      (s.dev.ec 16383).resolved = some x) ∧
    (up.dev.ec 16383).resolved = none ∧ smFind 16383 up.dev.cfg.audio = none ∧
    (∃ (v : Dev) (a : AudioChCfg), smFind 16383 v.cfg.audio = some a ∧ a.sourceKind = 2) ∧
    (∃ (v : Dev) (a : AudioChCfg), smFind 16383 v.cfg.audio = some a ∧ a.conversion ≠ 0) ∧
    (∃ (s : State) (q : Int), s.dev.mediaOn = true ∧ (s.dev.es 511).switchQ = some q) ∧ (up.dev.es 511).switchQ = none ∧
    (∃ (s : State) (q : Int), s.dev.mediaOn = true ∧ s.dev.groupEnd 511 3 = some q) ∧ up.dev.groupEnd 511 3 = none :=
  ⟨by decide, by decide, by decide, by decide +kernel, ⟨_, rfl, by decide⟩, by decide, ⟨_, rfl, by decide⟩, by decide,
    ⟨upWith fun v => { v.modEc 16383 fun c => { c with resolved := some 8191 } with cfg := { v.cfg with audio := [(16383, {})] } }, _, _, by decide, rfl, by decide,
      by decide, rfl⟩, by decide, by decide,
    ⟨{ up.dev with cfg := { up.dev.cfg with audio := [(16383, { sourceKind := 2 })] } }, _, rfl, rfl⟩,
    ⟨{ up.dev with cfg := { up.dev.cfg with audio := [(16383, { conversion := 2 })] } }, _, rfl, by decide⟩,
    ⟨upWith (Dev.modEs 511 fun x => { x with switchQ := some 0 }), 0, by decide, rfl⟩, by decide,
    ⟨upWith (Dev.modXchan 16383 fun c => { c with absent := false, lastP := some 0 }), 0, by decide, by decide⟩, by decide⟩

theorem test_AudioRateDecidesThePath_met :
    (up.dev.ec 16383).trans = none ∧ (∃ (v : Dev) (tr : Transition), (v.ec 16383).trans = some tr ∧ tr.done < tr.total) ∧
    (∃ a : AudioChCfg, a.conversion = 0) ∧
    (∃ v : Dev, v.mediaOn = true ∧ (v.ec 16383).resolved = some 8191 ∧ (v.ec 16383).marks = []) ∧
    ∃ (v : Dev) (m : RateMark) (r : List RateMark),
      let k := v.groupClk 511 3
      let here : RateMark := { dev := v.nowQ, tc := k.tc, phase := (v.tc k.tc).phaseAt v.clk.now, count := (v.xchan 8191).count, pos := (v.xchan 8191).lastP.getD 0 }
      v.mediaOn = true ∧ (v.ec 16383).resolved = some 8191 ∧ (v.ec 16383).marks.filter (·.follows here) = m :: r :=
  ⟨by decide, ⟨up.dev.modEc 16383 fun c => { c with trans := some { kind := 1, length := 64 } }, _, rfl, by decide⟩, ⟨{}, rfl⟩,
    ⟨up.dev.modEc 16383 fun c => { c with resolved := some 8191 }, by decide⟩,
    ⟨(((up.arrive 4000).dev.modEc 16383 fun c => { c with resolved := some 8191, marks := [{ dev := 0, tc := 0, phase := 0, count := 0, pos := -1 }] }).modXchan 8191
      fun x => { x with count := 1, lastP := some 0 }), { dev := 0, tc := 0, phase := 0, count := 0, pos := -1 }, [], by decide +kernel⟩⟩

/-- A REF.CONFIG of TREF15: 10 MHz. -/
def refCmd : Datagram := cmd (writeRefCfg { ref := 15, enable := 1, nominalNum := 10000000, nominalDen := 1, acceptPpb := 10, rejectPpb := 11 })

theorem test_ReferenceCommandsRun_met :
    (∃ (s : State) (d : Datagram), s.Admits refConfigRow d ∧ refBad (s.begun refConfigRow 0 d).dev d.params = none ∧
      refConflict (s.begun refConfigRow 0 d).dev (readRefCfg d.params 0) = none) ∧
    (∃ (s : State) (d : Datagram) (f : Fail), s.Admits refConfigRow d ∧ refBad (s.begun refConfigRow 0 d).dev d.params = none ∧
      refConflict (s.begun refConfigRow 0 d).dev (readRefCfg d.params 0) = some f) ∧
    (∀ x ∈ [SelState.switching, .tracking], ∃ (s : State) (d : Datagram), s.Admits refSelectSetRow d ∧
      selectBad (refSelectSetRow.apply d).params = none ∧ (s.dev.tc (readSelectCfg (refSelectSetRow.apply d).params 0).tc).state = x) ∧
    (∃ (s : State) (d : Datagram), let p := (refSelectReadRow.apply d).params
      s.Admits refSelectReadRow d ∧ fieldU p 0 1 ≤ 7 ∧ fieldU p 22 2 = 0 ∧ fieldU p 28 4 = 0) ∧
    (∃ (s : State) (d : Datagram), s.Admits refAcceptRow d ∧ fieldU d.params 0 1 ≤ 7 ∧ fieldU d.params 1 1 ≤ 1 ∧ fieldU d.params 2 2 = 0) ∧
    (∃ (s : State) (d : Datagram) (r : Nat), s.Admits refRealignRow d ∧ fieldU d.params 0 1 ≤ 7 ∧ fieldU d.params 1 3 = 0 ∧
      (s.dev.tc (fieldU d.params 0 1)).state = .tracking ∧ (s.dev.tc (fieldU d.params 0 1)).active = some r) ∧
    (∃ (s : State) (d : Datagram), s.Admits refRealignRow d ∧ fieldU d.params 0 1 ≤ 7 ∧ fieldU d.params 1 3 = 0 ∧
      (s.dev.tc (fieldU d.params 0 1)).state ≠ .tracking) := by
  refine ⟨⟨up, refCmd, admits_of (by decide), by decide, by decide⟩,
    ⟨upWith fun v => { v with tcs := [(7, { active := some 15 })] }, refCmd, _, admits_of (by decide), by decide, rfl⟩, ?_,
    ⟨up, cmd (par 32 [(0, 7)]), admits_of (by decide), by decide⟩,
    ⟨up, cmd (par 4 [(0, 7), (1, 1)]), admits_of (by decide), by decide⟩,
    ⟨upWith fun v => { v with tcs := [(7, { state := .tracking, active := some 15 })] }, cmd (par 4 [(0, 7)]), _, admits_of (by decide), by decide,
      by decide, by decide, rfl⟩,
    ⟨up, cmd (par 4 [(0, 7)]), admits_of (by decide), by decide⟩⟩
  simp only [List.forall_mem_cons, List.not_mem_nil, false_implies, implies_true, and_true]
  constructor
  · exact ⟨upWith fun v => { v with tcs := [(7, { state := .switching })] }, cmd (writeSelectCfg { tc := 7 }), admits_of (by decide), by decide, by decide⟩
  · exact ⟨upWith fun v => { v with tcs := [(7, { state := .tracking })] }, cmd (writeSelectCfg { tc := 7 }), admits_of (by decide), by decide, by decide⟩

/-- A device whose last clock output, frame-pulse output and timing pin are owned by a tag. -/
def owned (tag : Nat) : State :=
  upWith fun v => { v with
    ckos := [(63, { owner := some tag, cfg := { tc := 7 } })]
    fpos := [(31, { owner := some tag, cfg := { mode := 1 } })]
    tpins := [(15, { owner := some tag })] }

/-- A device whose last timing channel runs at 2 GHz. -/
def fast7 : State := upWith fun v => { v with tcs := [(7, { cfg := { setFreqHz := 2000000000 } })] }

theorem test_ClockChannelCommandsRun_set_met :
    (∃ (s : State) (d : Datagram), s.Admits tcConfigSetRow d ∧ firstBad tcCfgFields (tcConfigSetRow.apply d).params = none ∧
      (readTcCfg (tcConfigSetRow.apply d).params 0).setFreqHz = (s.dev.tc (readTcCfg (tcConfigSetRow.apply d).params 0).tc).cfg.setFreqHz) ∧
    (∃ (s : State) (d : Datagram), s.Admits tcConfigSetRow d ∧ firstBad tcCfgFields (tcConfigSetRow.apply d).params = none ∧
      (readTcCfg (tcConfigSetRow.apply d).params 0).setFreqHz ≠ (s.dev.tc (readTcCfg (tcConfigSetRow.apply d).params 0).tc).cfg.setFreqHz ∧
      (s.begun tcConfigSetRow 0 d).dev.tcOwner (readTcCfg (tcConfigSetRow.apply d).params 0).tc = none) ∧
    (∃ (s : State) (d : Datagram) (f : Fail), s.Admits tcConfigSetRow d ∧ firstBad tcCfgFields (tcConfigSetRow.apply d).params = none ∧
      (readTcCfg (tcConfigSetRow.apply d).params 0).setFreqHz ≠ (s.dev.tc (readTcCfg (tcConfigSetRow.apply d).params 0).tc).cfg.setFreqHz ∧
      (s.begun tcConfigSetRow 0 d).dev.tcOwner (readTcCfg (tcConfigSetRow.apply d).params 0).tc = some f) ∧
    (∀ s ∈ [up, owned 7], ∃ d : Datagram, s.Admits clkConfigSetRow d ∧ ckoBad (clkConfigSetRow.apply d).params = none ∧
      let c := readCkoCfg (clkConfigSetRow.apply d).params 0
      ¬ (s.dev.tc c.tc).cfg.setFreqHz > driveMax c.drive * c.divider ∧
      ((s.dev.cko (readCkoCfg (clkConfigSetRow.apply d).params 0).cko).owner = none ∨
        (s.dev.cko (readCkoCfg (clkConfigSetRow.apply d).params 0).cko).owner = some d.leaseTag)) ∧
    (∃ (s : State) (d : Datagram), s.Admits clkConfigSetRow d ∧ ckoBad (clkConfigSetRow.apply d).params = none ∧
      let c := readCkoCfg (clkConfigSetRow.apply d).params 0
      (s.dev.tc c.tc).cfg.setFreqHz > driveMax c.drive * c.divider) ∧
    (∃ (s : State) (d : Datagram) (o : Nat), s.Admits clkConfigSetRow d ∧ ckoBad (clkConfigSetRow.apply d).params = none ∧
      let c := readCkoCfg (clkConfigSetRow.apply d).params 0
      ¬ (s.dev.tc c.tc).cfg.setFreqHz > driveMax c.drive * c.divider ∧
      (s.dev.cko (readCkoCfg (clkConfigSetRow.apply d).params 0).cko).owner = some o ∧ o ≠ d.leaseTag) ∧
    (∀ k ∈ [0, 1], ∃ d : Datagram, let c := readTpinCfg (clkTpinSetRow.apply d).params 0
      (owned 7).Admits clkTpinSetRow d ∧ tpinBad (clkTpinSetRow.apply d).params = none ∧ c.role = k ∧
      (c.role = 1 ∨ tpinHeld c.tpin ((owned 7).begun clkTpinSetRow 0 d).dev = none) ∧
      (((owned 7).dev.tpin c.tpin).owner = none ∨ ((owned 7).dev.tpin c.tpin).owner = some d.leaseTag)) ∧
    ∃ d : Datagram, up.Admits clkCalibrateRow d ∧ fieldU d.params 0 4 = 0 := by
  refine ⟨⟨up, cmd (writeTcCfg { tc := 7 }), admits_of (by decide), by decide, by decide⟩,
    ⟨up, cmd (writeTcCfg { tc := 7, setFreqHz := 3200000000 }), admits_of (by decide), by decide, by decide, by decide +kernel⟩,
    ⟨owned 7, cmd (writeTcCfg { tc := 7, setFreqHz := 2000000000 }), busyWith 13 63, admits_of (by decide), by decide, by decide, by decide +kernel⟩,
    ?_, ⟨fast7, cmd (writeCkoCfg { cko := 63, tc := 7, drive := 1, divider := 2 }), admits_of (by decide), by decide, by decide⟩,
    ⟨owned 8, cmd (writeCkoCfg { cko := 63, drive := 2, divider := 16777216 }), 8, admits_of (by decide), by decide, by decide, by decide, by decide⟩, ?_,
    ⟨cmd (par 4 []), admits_of (by decide), by decide⟩⟩
  · simp only [List.forall_mem_cons, List.not_mem_nil, false_implies, implies_true, and_true]
    constructor <;> exact ⟨cmd (writeCkoCfg { cko := 63, drive := 2, divider := 16777216 }), admits_of (by decide), by decide, by decide, by decide⟩
  · simp only [List.forall_mem_cons, List.not_mem_nil, false_implies, implies_true, and_true]
    exact ⟨⟨cmd (writeTpinCfg { tpin := 15, role := 0 }), admits_of (by decide), by decide, by decide, by decide, by decide⟩,
      ⟨cmd (writeTpinCfg { tpin := 15, role := 1 }), admits_of (by decide), by decide, by decide, by decide, by decide⟩⟩

theorem test_ClockChannelCommandsRun_read_met :
    (∃ d : Datagram, let p := (tcConfigReadRow.apply d).params
      up.Admits tcConfigReadRow d ∧ fieldU p 0 1 ≤ 7 ∧ fieldU p 2 2 = 0 ∧ (∀ i ∈ [4, 8, 12, 16, 20, 24, 28], fieldU p i 4 = 0)) ∧
    (∀ r ∈ [clkConfigReadRow, clkConfigReleaseRow], ∃ d : Datagram, (owned 7).Admits r d ∧ fieldU (r.apply d).params 0 1 = 63 ∧
      fieldU (r.apply d).params 15 1 = 0 ∧ fieldU (r.apply d).params 20 4 = 0) ∧
    (∃ d : Datagram, (owned 7).Admits clkTpinReadRow d ∧ fieldU (clkTpinReadRow.apply d).params 0 1 = 15 ∧ fieldU (clkTpinReadRow.apply d).params 4 4 = 0) ∧
    (∃ d : Datagram, (owned 7).Admits clkTpinReleaseRow d ∧ fieldU (clkTpinReleaseRow.apply d).params 0 1 = 15 ∧
      fieldU (clkTpinReleaseRow.apply d).params 4 4 = 0 ∧ tpinHeld 15 ((owned 7).begun clkTpinReleaseRow 0 d).dev = none) := by
  refine ⟨⟨cmd (par 32 [(0, 7)]), admits_of (by decide), by decide⟩, ?_, ⟨cmd (par 8 [(0, 15)]), admits_of (by decide), by decide⟩,
    ⟨cmd (par 8 [(0, 15)]), admits_of (by decide), by decide⟩⟩
  simp only [List.forall_mem_cons, List.not_mem_nil, false_implies, implies_true, and_true]
  constructor <;> exact ⟨cmd (par 24 [(0, 63)]), admits_of (by decide), by decide⟩

/-- A frame-pulse setting of 50 Hz on output 31. -/
def fpo50 : FpoCfg := { fpo := 31, mode := 1, rateNum := 50, rateDen := 1, widthNs := 1 }

theorem test_FramePulseAndTimeCommandsRun_met :
    (∀ s ∈ [up, owned 7], ∃ d : Datagram, s.Admits fpConfigSetRow d ∧ fpoBad (s.begun fpConfigSetRow 0 d).dev (fpConfigSetRow.apply d).params = none ∧
      ((s.dev.fpo (readFpoCfg (fpConfigSetRow.apply d).params 0).fpo).owner = none ∨
        (s.dev.fpo (readFpoCfg (fpConfigSetRow.apply d).params 0).fpo).owner = some d.leaseTag)) ∧
    (∃ (s : State) (d : Datagram) (o : Nat), s.Admits fpConfigSetRow d ∧ fpoBad (s.begun fpConfigSetRow 0 d).dev (fpConfigSetRow.apply d).params = none ∧
      (s.dev.fpo (readFpoCfg (fpConfigSetRow.apply d).params 0).fpo).owner = some o ∧ o ≠ d.leaseTag) ∧
    (∀ r ∈ [fpConfigReadRow, fpConfigReleaseRow], ∃ d : Datagram, (owned 7).Admits r d ∧ fieldU (r.apply d).params 0 1 = 31 ∧
      fieldU (r.apply d).params 26 2 = 0) ∧
    (∀ late : Bool, ∃ (s : State) (d : Datagram), s.Admits fpRealignRow d ∧
      (∀ n ∈ (List.range 32).filter (fun n => (fieldU d.params 0 4).testBit n), (s.dev.fpo n).cfg.mode = 1 ∧ (s.dev.fpo n).owner = some d.leaseTag) ∧
      fieldU d.params 10 4 ≤ 999999999 ∧ fieldU d.params 16 4 = 0 ∧
      decide (fieldT d.params 4 < msU + (s.arrive 0).dev.nowU) = late) ∧
    (∃ d : Datagram, up.Admits timeConfigRow d ∧ timeBad (up.begun timeConfigRow 0 d).dev d.params = none) ∧
    (∃ (s : State) (d : Datagram), let p := (timeSetNextPulseRow.apply d).params
      s.Admits timeSetNextPulseRow d ∧ fieldU p 1 1 = 0 ∧ s.dev.clk.cfg.source = 2 ∧ fieldU p 10 6 = 0) ∧
    (∃ (s : State) (d : Datagram), let p := (timeSetStepRow.apply d).params
      s.Admits timeSetStepRow d ∧ fieldU p 1 1 = 0 ∧ fieldU p 10 4 ≤ 999999999 ∧ s.dev.clk.cfg.source = 0) := by
  refine ⟨?_, ⟨owned 8, cmd (writeFpoCfg fpo50), 8, admits_of (by decide), by decide, by decide, by decide⟩, ?_, ?_,
    ⟨cmd (writeTimeCfg { servoBwMhz := 1000 }), admits_of (by decide), by decide⟩,
    ⟨upWith fun v => { v with clk := { v.clk with cfg := { v.clk.cfg with source := 2 } } }, cmd (par 16 [(9, 1)]), admits_of (by decide), by decide⟩,
    ⟨up, cmd (par 16 [(9, 1)]), admits_of (by decide), by decide⟩⟩
  · simp only [List.forall_mem_cons, List.not_mem_nil, false_implies, implies_true, and_true]
    constructor <;> exact ⟨cmd (writeFpoCfg fpo50), admits_of (by decide), by decide, by decide⟩
  · simp only [List.forall_mem_cons, List.not_mem_nil, false_implies, implies_true, and_true]
    constructor <;> exact ⟨cmd (par 32 [(0, 31)]), admits_of (by decide), by decide⟩
  · intro late
    cases late
    · exact ⟨owned 7, cmd (par 20 [(0, 0x80), (9, 1)]), admits_of (by decide), by decide, by decide, by decide, by decide⟩
    · exact ⟨owned 7, cmd (par 20 [(0, 0x80)]), admits_of (by decide), by decide, by decide, by decide, by decide⟩

/-- A device whose last reference and last timing channel are as given. -/
def withRef (x : RefSt) (c : TcSt) : State := upWith fun v => { v with refs := [(40, x)], tcs := [(7, c)] }

theorem test_ReferencesFollowTheirInputs_met :
    up.dev.mediaOn = true ∧ up.dev.coreUp .t = true ∧
    (∀ r ∈ [0, 31, 32, 40], 0 < (up.dev.ref r).lastT + up.dev.activityQ r ∧ 0 < (up.dev.ref r).gateT + up.dev.gateLenQ r) ∧
    (∃ v : Dev, (v.ref 40).state ≠ .disabled ∧ (v.ref 40).state ≠ .noActivity) ∧
    (∀ live : Bool, ∃ s : State, s.dev.mediaOn = true ∧ (s.dev.ref 32).state = .noActivity ∧ s.dev.refLive 32 = live) ∧
    ((withRef { state := .qualified } {}).dev.ref 40).state ≠ .noActivity ∧
    (∀ x ∈ [RefState.qualifying, .qualified], ((withRef { state := x, qualSince := some 1 } {}).dev.ref 40).state = x ∧
      ((withRef { state := x, qualSince := some 1 } {}).dev.ref 40).qualSince = some 1) ∧
    (up.dev.ref 40).qualSince = none ∧
    smFind 40 ((withRef {} { wtr := [(40, 1)] }).dev.tc 7).wtr = some 1 ∧ smFind 40 (up.dev.tc 7).wtr = none ∧
    ((withRef {} { closeT := some 1 }).dev.tc 7).closeT = some 1 ∧ (up.dev.tc 7).closeT = none ∧
    (∀ b : Bool, ((withRef {} { following := b, slewTo := 65536 }).dev.tc 7).following = b) ∧
    ∀ x ∈ [SelState.freerun, .tracking], ((withRef {} { state := x }).dev.tc 7).state = x := by
  refine ⟨by decide, by decide, by decide, ⟨(withRef { state := .qualified } {}).dev, by decide⟩, ?_, by decide, by decide, by decide, by decide, by decide,
    by decide, by decide, by decide, by decide⟩
  intro live
  exact ⟨upWith fun v => { v with refs := [(32, { state := .noActivity, cfg := { type := 3 } })], clk := { v.clk with ptpReceiver := live } },
    by cases live <;> decide⟩

/-- A timing channel whose lock gate has counted one second of a 1 Hz reference, and so many DCO cycles more. -/
def measured (locked : Bool) (good bad more : Nat) : State :=
  upWith fun v => { v with
    refs := [(40, { cfg := { nominalNum := 1, nominalDen := 1 } })]
    tcs := [(7, { state := .tracking, active := some 40, locked := locked, lockGood := good, lockBad := bad, cfg := { setFreqHz := 2000000000 }
                  lockBase := some { phase := 0, pos := 0, out := 0 }
                  lockLast := some { phase := (2000000000 + more) * cycleP, pos := secQ, out := 0 } })] }

theorem test_TimingChannelLocks_met :
    up.dev.mediaOn = true ∧
    (∃ s : State, s.dev.mediaOn = true ∧ (s.dev.tc 7).active = some 40 ∧ 0 < (s.dev.tc 7).lockT + s.dev.gateLenQ 40) ∧ (up.dev.tc 7).active = none ∧
    (up.dev.tc 7).state ≠ .tracking ∧ ((up.dev.tc 7).state = .switching → (up.dev.tc 7).bridging = false) ∧
    (∀ x ∈ [(SelState.tracking, false), (.switching, true)], let v := (withRef {} { state := x.1, bridging := x.2 }).dev
      (v.tc 7).state = x.1 ∧ (v.tc 7).bridging = x.2 ∧ v.lockOffset 7 = none) ∧
    (∀ x ∈ [(false, 2, 0, (0 : Nat)), (false, 1, 0, 0), (true, 0, 1, 1000000), (true, 0, 0, 1000000)], ∃ o,
      let v := (measured x.1 x.2.1 x.2.2.1 x.2.2.2).dev
      (v.tc 7).state = .tracking ∧ v.lockOffset 7 = some o ∧ (v.tc 7).locked = x.1 ∧
      decide (o.natAbs * 1000 ≤ 10 * 65536) = !x.1 ∧ decide (o.natAbs * 1000 ≤ 4 * 10 * 65536) = !x.1 ∧ (v.tc 7).cfg.lockLimitPpb = 0) := by
  refine ⟨by decide, ⟨withRef {} { active := some 40 }, by decide⟩, by decide, by decide, by decide, by decide, ?_⟩
  simp only [List.forall_mem_cons, List.not_mem_nil, false_implies, implies_true, and_true]
  refine ⟨?_, ?_, ?_, ?_⟩ <;> exact ⟨_, by decide, rfl, by decide +kernel⟩

/-- A device whose last frame-pulse output is as given. -/
def withFpo (x : FpoSt) : State := upWith fun v => { v with fpos := [(31, x)] }

/-- A device in the time-receiver state under PTP. -/
def ptpUp : State :=
  upWith fun v => { v with clk := { v.clk with
      cfg := { v.clk.cfg with source := 1, ptpDelay := 1 }
      ptpReceiver := true, ptpBest := 5, txClockId := 9 } }

theorem test_DeviceTimeRuns_met :
    up.dev.mediaOn = true ∧ up.dev.coreUp .t = true ∧ 0 < up.dev.clk.instantOf up.dev.nextEpochQ ∧ 0 < up.dev.clk.calT + 10 * secQ ∧
    (∀ due : Bool, ∃ (s : State) (t b : Nat), let u := s.happens (s.dev.clk.instantOf s.dev.nextEpochQ) Dev.epochStarts
      s.dev.mediaOn = true ∧ s.dev.clk.instantOf s.dev.nextEpochQ ≤ t ∧ u.dev.clk.step = some (b, 1) ∧ u.dev.nowQ < b ∧
      decide (u.dev.clk.instantOf b ≤ t) = due) ∧
    up.dev.realignQ = none ∧ (∃ q, (withFpo { pendingU := some 65536 }).dev.realignQ = some q ∧ 0 < (withFpo { pendingU := some 65536 }).dev.clk.instantOf q) ∧
    (∃ (v : Dev) (x : FpoSt) (u : Nat), v.mediaOn = true ∧ (v.fpos.filter fun e => e.2.pendingU.any fun w => decide (qOfU w ≤ v.nowQ)) = [(31, x)] ∧
      x.pendingU = some u) ∧
    (up.dev.fpo 31).pulseT (up.dev.tc (up.dev.fpo 31).cfg.tc) (up.dev.fpo 31).nextK = none ∧
    (∀ b : Bool, ∃ (s : State) (q : Nat), let x := s.dev.fpo 31
      s.dev.mediaOn = true ∧ x.pulseT (s.dev.tc x.cfg.tc) x.nextK = some q ∧ 0 < q ∧ x.suppressed (s.arrive q).dev.clk.now (s.arrive q).dev.nowU = b) ∧
    (∀ b : Bool, let s : State := { ptpUp with dev := { ptpUp.dev with clk := { ptpUp.dev.clk with ptpReceiver := b, syncGap := secQ } } }
      s.dev.mediaOn = true ∧ s.dev.alive = true ∧ s.dev.pow.phase ≠ .booting ∧ s.dev.coreUp .c = true ∧ 127 ≠ s.dev.clk.cfg.ptpDomain ∧
      4 < s.dev.clk.ptpBest ∧ s.dev.clk.cfg.ptpDelay = 1 ∧ s.dev.clk.ptpReceiver = b ∧ 0 < s.dev.clk.syncT + 4 * s.dev.clk.syncGap) := by
  refine ⟨by decide, by decide, by decide +kernel, by decide, ?_, by decide, ⟨_, rfl, by decide +kernel⟩,
    ⟨(withFpo { pendingU := some 0 }).dev, _, _, by decide, rfl, rfl⟩, by decide, ?_, ?_⟩
  · intro due
    exact ⟨upWith fun v => { v with clk := { v.clk with step := some (2 * 1024 * 4000, 1) } }, if due then 2 * 1024 * 4000 else 1024 * 4000, 2 * 1024 * 4000,
      by cases due <;> decide +kernel⟩
  · intro b
    cases b
    · exact ⟨withFpo { gridP := some 0, nextK := 1, cfg := fpo50 }, _, by decide, rfl, by decide +kernel, by decide +kernel⟩
    · exact ⟨withFpo { gridP := some 0, nextK := 1, lastT := some (secQ / 50), cfg := { fpo50 with widthNs := 1000000 } }, _, by decide, rfl, by decide +kernel,
        by decide +kernel⟩
  · intro b
    cases b <;> decide

theorem test_ReadCommandsRun_met :
    (∃ d : Datagram, let p := (layerLutReadRow.apply d).params
      up.Admits layerLutReadRow d ∧ fieldU p 0 2 ≤ 1023 ∧ fieldU p 2 1 ≤ 2 ∧ 1 ≤ fieldU p 4 1 ∧ fieldU p 4 1 ≤ 7 ∧ fieldU p 5 3 = 0) ∧
    (∃ d : Datagram, let p := (layerCoeffReadRow.apply d).params
      up.Admits layerCoeffReadRow d ∧ fieldU p 0 2 ≤ 1023 ∧ fieldU p 2 1 ≤ 1 ∧ 1 ≤ fieldU p 4 1 ∧ fieldU p 4 1 ≤ 5 ∧ fieldU p 5 3 = 0) ∧
    (∃ d : Datagram, up.Admits layerScalerReadRow d ∧ scalerReadBad (layerScalerReadRow.apply d).params = none) ∧
    (∃ d : Datagram, up.Admits layerScalerReadClearRow d ∧ scalerReadBad (layerScalerReadClearRow.apply d).params = none) ∧
    (∃ d : Datagram, let p := d.params
      up.Admits (eventRow 0x1101) d ∧ 1 ≤ fieldU p 0 8 ∧ fieldU p 8 2 ≤ 4863 ∧ fieldU p 10 2 ≤ 208 ∧ fieldU p 12 4 = 0) ∧
    (∃ d : Datagram, let p := d.params
      up.Admits (eventRow 0x1102) d ∧ 1 ≤ fieldU p 8 2 ∧ fieldU p 8 2 ≤ 279 ∧ fieldU p 10 6 = 0) ∧
    ∃ d : Datagram, up.Admits (eventRow 0x1103) d ∧ firstBad eventLedgerFields d.params = none :=
  ⟨⟨cmd (par 8 [(0, 3), (1, 255), (2, 2), (4, 7)]), admits_of (by decide), by decide⟩,
    ⟨cmd (par 8 [(0, 3), (1, 255), (2, 1), (4, 5)]), admits_of (by decide), by decide⟩,
    ⟨cmd (par 16 [(0, 3), (1, 255)]), admits_of (by decide), by decide⟩, ⟨cmd (par 16 [(0, 3), (1, 255)]), admits_of (by decide), by decide⟩,
    ⟨cmd (par 16 [(7, 1), (8, 18), (9, 255), (11, 208)]), admits_of (by decide), by decide⟩,
    ⟨cmd (par 16 [(8, 1), (9, 23)]), admits_of (by decide), by decide⟩, ⟨cmd (par 16 [(9, 1), (10, 1)]), admits_of (by decide), by decide⟩⟩

/-- A device whose service domain PD29 is off. -/
def probesOff : State := upWith fun v => { v with pow := { v.pow with off := [29] } }

/-- A BULK.READ of space `k` of 64 bytes at 128. -/
def bulk64 (k : Byte) : Datagram := cmd (par 16 [(0, k), (7, 64), (15, 128)])

/-- A BULK.READ of the last 64 bytes of frame memory. -/
def bulkTop : Datagram := cmd (par 16 [(7, 64), (11, 23), (12, 255), (13, 255), (14, 255), (15, 192)])

theorem test_ProbesAndBulkReadsRun_met :
    (∀ off : Bool, ∃ (s : State) (d : Datagram), s.Admits probeConfigRow d ∧ firstBad probeCfgFields d.params = none ∧
      (s.begun probeConfigRow 0 d).dev.streamInside (readProbeCfg d.params 0).direction (readProbeCfg d.params 0).stream 0 = none ∧
      s.dev.domainOff 29 = off) ∧
    (∃ (s : State) (d : Datagram), s.Admits (probeFreezeRow []) d ∧ firstBad freezeCfgFields d.params = none ∧ (readFreezeCfg d.params 0).trigger ≠ 0 ∧
      (s.begun (probeFreezeRow []) 0 d).dev.armBad (readFreezeCfg d.params 0) = none) ∧
    (∀ inside : Bool, ∃ (s : State) (d : Datagram), s.Admits (probeFreezeRow [(3, 0)]) d ∧
      firstBad freezeCfgFields ((probeFreezeRow [(3, 0)]).apply d).params = none ∧
      let c := readFreezeCfg ((probeFreezeRow [(3, 0)]).apply d).params 0
      ((s.begun (probeFreezeRow [(3, 0)]) 0 d).dev.streamInside c.direction c.stream 0).isSome = inside) ∧
    (∀ k ∈ [1, 2], up.Admits bulkReadRow (bulk64 k) ∧ bulkBad false (bulk64 k).params = none ∧ fieldU (bulk64 k).params 0 1 ≠ 0) ∧
    (up.dev.master 50).draining = false ∧
    (up.Admits bulkReadRow (bulk64 0) ∧ bulkBad false (bulk64 0).params = none ∧ (up.begun bulkReadRow 0 (bulk64 0)).dev.offPort 128 64 = none ∧
      (up.begun bulkReadRow 0 (bulk64 0)).dev.badBeat 128 64 = none ∧ 128 + 64 ≤ region3) ∧
    (up.Admits bulkReadRow bulkTop ∧ bulkBad false bulkTop.params = none ∧
      (up.begun bulkReadRow 0 bulkTop).dev.offPort (fieldU bulkTop.params 8 8) 64 = none ∧
      (up.begun bulkReadRow 0 bulkTop).dev.badBeat (fieldU bulkTop.params 8 8) 64 = none ∧ region3 < fieldU bulkTop.params 8 8 + 64) ∧
    (∃ (s : State) (x : Nat), s.Admits bulkReadRow (bulk64 0) ∧ (s.dev.master 50).draining = false ∧
      (s.begun bulkReadRow 0 (bulk64 0)).dev.offPort 128 64 = none ∧ (s.begun bulkReadRow 0 (bulk64 0)).dev.badBeat 128 64 = some x) ∧
    ∃ (s : State) (q : Nat), s.Admits bulkReadRow (bulk64 0) ∧ (s.dev.master 50).draining = false ∧
      (s.begun bulkReadRow 0 (bulk64 0)).dev.offPort 128 64 = some q := by
  refine ⟨?_, ⟨stocked, cmd (par 28 [(3, 1), (4, 0x20)]), admits_of (by decide), by decide, by decide, by decide⟩,
    ?_, ?_, by decide, ⟨admits_of (by decide), by decide, by decide, by decide, by decide⟩,
    ⟨admits_of (by decide), by decide, by decide, by decide, by decide⟩,
    ⟨upWith fun v => { v with fabric := { v.fabric with bad := [128] } }, _, admits_of (by decide), by decide, by decide, rfl⟩,
    ⟨upWith fun v => { v with pow := { v.pow with off := [4] } }, _, admits_of (by decide), by decide, rfl⟩⟩
  · intro off
    cases off
    · exact ⟨up, cmd (par 16 [(0, 1), (1, 255), (2, 1)]), admits_of (by decide), by decide, by decide, by decide⟩
    · exact ⟨probesOff, cmd (par 16 [(0, 1), (1, 255), (2, 1)]), admits_of (by decide), by decide, by decide, by decide⟩
  · intro inside
    cases inside
    · exact ⟨up, cmd (par 28 []), admits_of (by decide), by decide, by decide⟩
    · exact ⟨bonded, cmd (par 28 [(1, 5)]), admits_of (by decide), by decide, by decide⟩
  · simp only [List.forall_mem_cons, List.not_mem_nil, false_implies, implies_true, and_true]
    constructor <;> exact ⟨admits_of (by decide), by decide, by decide⟩

/-- A device with this firmware state. -/
def withFw (f : FwSt → FwSt) : State := upWith (Dev.onFw f)
/-- A bundle of one image, of component 5. -/
def bundle5 (installed : Bool) : Manifest := { entries := [{ component := 5, installed := installed }] }

theorem test_FirmwareCommandsRun_met :
    up.Admits fwStatusRow (cmd []) ∧
    (∃ d, up.Admits (fwInstallRow 0) d ∧ fwInstallBad ((fwInstallRow 0).apply d).params = none) ∧
    (∃ d, up.Admits (fwInstallRow 1) d ∧ fwInstallBad ((fwInstallRow 1).apply d).params = none) ∧
    (∃ (s : State) (d : Datagram) (m : Manifest), s.Admits fwActivateRow d ∧ fieldU d.params 0 1 ≤ 1 ∧ fieldU d.params 1 3 = 0 ∧
      s.dev.fw.pending = some m ∧ (∀ e ∈ m.entries, e.installed = true)) ∧
    (∃ (s : State) (d : Datagram), s.Admits fwActivateRow d ∧ fieldU d.params 0 1 ≤ 1 ∧ fieldU d.params 1 3 = 0 ∧ s.dev.fw.pending = none) ∧
    (∃ (s : State) (d : Datagram), s.Admits fwConfirmRow d ∧ fieldU d.params 0 1 ≤ 5 ∧ fieldU d.params 1 3 = 0 ∧
      s.dev.fw.trialComp = some (fieldU d.params 0 1)) ∧
    (∃ (s : State) (d : Datagram), s.Admits fwConfirmRow d ∧ fieldU d.params 0 1 ≤ 5 ∧ fieldU d.params 1 3 = 0 ∧
      s.dev.fw.trialComp ≠ some (fieldU d.params 0 1)) ∧
    (∀ r ∈ [[], [5]], ∃ (s : State) (d : Datagram), s.Admits fwRevertRow d ∧ s.dev.fw.canRevert = true ∧ s.dev.fw.reverting = r) ∧
    ∃ (s : State) (d : Datagram), s.Admits fwRevertRow d ∧ s.dev.fw.canRevert = false :=
  ⟨admits_of (by decide), ⟨cmd (par 8 [(7, 64)]), admits_of (by decide), by decide⟩, ⟨cmd (par 8 [(5, 128)]), admits_of (by decide), by decide⟩,
    ⟨withFw fun f => { f with pending := some (bundle5 true) }, cmd (par 4 [(0, 1)]), _, admits_of (by decide), by decide, by decide, rfl, by decide⟩,
    ⟨up, cmd (par 4 []), admits_of (by decide), by decide, by decide, by decide⟩,
    ⟨withFw fun f => { f with bundle := .trial, onTrial := true, current := some (bundle5 true) }, cmd (par 4 [(0, 5)]), admits_of (by decide), by decide,
      by decide, by decide⟩,
    ⟨up, cmd (par 4 []), admits_of (by decide), by decide, by decide, by decide⟩,
    fun r _ => ⟨withFw fun f => { f with bundle := .trial, reverting := r }, cmd [], admits_of (by cases r <;> rfl), rfl, rfl⟩,
    ⟨up, cmd [], admits_of (by decide), by decide⟩⟩

/-- A device in which a firmware step waits for two commits of one capture channel. -/
def queued2 : State :=
  (withFw fun f => { f with queueWait := some 0 }).onDev fun v =>
    { v with daond := { v.daond with commits := [{ effective := 2 ^ 60, order := 1, left := [.capture 511] }, { effective := 2 ^ 60, order := 2, left := [.capture 511] }] } }

theorem test_TrialsAndRestartsRun_met :
    up.dev.alive = true ∧ up.dev.mediaOn = true ∧ up.dev.fw.onTrial = false ∧ up.dev.fw.trialComp ≠ some 5 ∧ up.dev.fw.queueWait = none ∧
    up.dev.pow.coreDown.contains 2 = false ∧
    (∀ late : Bool, ∃ (s : State) (t : Nat), s.dev.alive = true ∧ s.dev.fw.onTrial = true ∧
      decide (s.dev.fw.trialSince + secQ * s.dev.fw.trialLen ≤ t) = late) ∧
    (∀ healthy : Bool, ∃ s : State, s.dev.alive = true ∧ s.dev.fw.trialComp = some 5 ∧ (s.arrive 0).dev.healthy 5 = healthy) ∧
    (∀ x ∈ [(true, 0), (false, 0), (false, secQ)], ∃ (s : State) (w : Nat), s.dev.alive = true ∧ s.dev.fw.queueWait = some w ∧
      let u := min x.2 (secQ + w)
      (s.arrive u).dev.allArmed = x.1 ∧ decide (secQ + w ≤ (s.arrive u).dev.clk.now) = decide (x.2 = secQ)) ∧
    ∀ k ∈ [0, 1, 2], ∃ (s : State) (e : Nat), s.dev.alive = true ∧ s.dev.pow.coreDown.contains k = true ∧ smFind k s.dev.pow.downT = some e := by
  refine ⟨by decide, by decide, by decide, by decide, by decide, by decide, ?_, ?_, ?_, ?_⟩
  · intro late
    exact ⟨withFw fun f => { f with bundle := .trial, onTrial := true, current := some (bundle5 true) }, if late then secQ * 120 else 0, by cases late <;> decide⟩
  · intro healthy
    exact ⟨(withFw fun f => { f with bundle := .trial, onTrial := true, current := some (bundle5 true) }).onDev fun v =>
      { v with daond := { v.daond with net := { v.daond.net with linkUp := healthy } } }, by cases healthy <;> decide⟩
  · simp only [List.forall_mem_cons, List.not_mem_nil, false_implies, implies_true, and_true]
    exact ⟨⟨withFw fun f => { f with queueWait := some 0 }, 0, by decide⟩,
      ⟨queued2, 0, by decide +kernel⟩,
      ⟨queued2, 0, by decide +kernel⟩⟩
  · simp only [List.forall_mem_cons, List.not_mem_nil, false_implies, implies_true, and_true]
    refine ⟨?_, ?_, ?_⟩ <;> exact ⟨upWith fun v => { v with pow := { v.pow with coreDown := [0, 1, 2], downT := [(0, 5), (1, 6), (2, 7)] } }, _, by decide, by decide, rfl⟩

/-- A device with these settings. -/
def withSet (f : SettingsSt → SettingsSt) : State := upWith fun v => { v with settings := f v.settings }
/-- A device with this security state. -/
def withSec (f : SecSt → SecSt) : State := upWith (Dev.onSec f)
/-- A preset of one operation that releases ingress stream 0. -/
def preset1023 : State := withSet fun x => { x with live := { x.live with presets := [(1023, release0)] } }

/-- A device whose preset pool is full, with a transaction open. -/
def poolFull (p : List Byte) : State :=
  upWith fun v => { v with
    daond := { v.daond with open_ := some { ops := release0 } }
    settings := { v.settings with live := { v.settings.live with presets := [(0, [{ params := p }])] } } }

theorem test_SettingsCommandsRun_met :
    up.Admits setStatusRow (cmd []) ∧ (∃ d, up.Admits setReadRow d ∧ setBad false d.params = none) ∧
    (∃ (d : Datagram) (m : SMap (List Byte)), up.Admits setWriteRow d ∧ setBad true d.params = none ∧ fieldU d.params 0 1 = 1 ∧
      profileWrite up.dev.settings.live (fieldU d.params 4 4) (d.params.drop 12) = .ok m) ∧
    (∃ (d : Datagram) (o : Nat), up.Admits setWriteRow d ∧ setBad true d.params = none ∧ fieldU d.params 0 1 = 1 ∧
      profileWrite up.dev.settings.live (fieldU d.params 4 4) (d.params.drop 12) = .error o) ∧
    (∀ b : Bool, ∃ d : Datagram, up.Admits setWriteRow d ∧ setBad true d.params = none ∧ fieldU d.params 0 1 ≠ 1 ∧
      bootOkBytes (splice up.dev.settings.live.bootBytes (fieldU d.params 4 4) (d.params.drop 12)) = b) ∧
    (∀ os ∈ [[], release0], ∃ d : Datagram, (opened os).Admits setPresetSaveRow d ∧ fieldU d.params 0 2 ≤ 1023 ∧ fieldU d.params 2 6 = 0 ∧
      let x := (opened os).dev.settings.live
      let m := if os = [] then smErase (fieldU d.params 0 2) x.presets else smPut (fieldU d.params 0 2) os x.presets
      ({ x with presets := m } : Sections).poolUsed ≤ presetPool) ∧
    (∃ d, preset1023.Admits setPresetLoadRow d ∧ presetLoadBad d.params = none ∧ preset1023.dev.settings.live.preset (fieldU d.params 0 2) = release0 ∧
      fieldU d.params 2 1 = 0 ∧ ∃ s1 us, admitOps (settleU + (preset1023.begun setPresetLoadRow 0 d).dev.nowU) true release0
        (preset1023.begun setPresetLoadRow 0 d) = (s1, .ok us)) ∧
    (∃ d, preset1023.Admits setPresetLoadRow d ∧ presetLoadBad d.params = none ∧ preset1023.dev.settings.live.preset (fieldU d.params 0 2) = release0 ∧
      fieldU d.params 2 1 ≠ 0 ∧ (preset1023.begun setPresetLoadRow 0 d).dev.timeVerdict (fieldT d.params 4) = none ∧
      ∃ s1 us, admitOps (fieldT d.params 4) true release0 (preset1023.begun setPresetLoadRow 0 d) = (s1, .ok us)) ∧
    (∃ s : State, let b := (s.arrive s.dev.settings.writeFrom).dev
      s.dev.alive = true ∧ 0 < s.dev.settings.writeFrom ∧ b.coreUp .c = true ∧ b.settings.pending = true ∧ b.storeOpen = true ∧ b.writeReady = true) ∧
    up.dev.alive = true ∧ up.dev.settings.pending = false ∧
    (∃ (s : State) (w : Nat), s.dev.alive = true ∧ s.dev.settings.writing.isSome = true ∧ s.dev.settings.lastWriteT = some w) ∧
    up.dev.settings.writing = none := by
  refine ⟨admits_of (by decide), ⟨cmd (par 12 [(0, 4), (10, 32)]), admits_of (by decide), by decide⟩,
    ⟨cmd (par 12 [(0, 1), (11, 12)] ++ defaultProfile), _, admits_of (by decide), by decide, by decide, rfl⟩,
    ⟨cmd (par 24 [(0, 1), (11, 12), (13, 1)]), _, admits_of (by decide), by decide, by decide, rfl⟩, ?_, ?_,
    ⟨cmd (par 16 [(0, 3), (1, 255)]), admits_of (by decide), by decide, by decide, by decide, ok_of (by decide +kernel)⟩,
    ⟨cmd (par 16 [(0, 3), (1, 255), (2, 1), (9, 1)]), admits_of (by decide), by decide, by decide, by decide, by decide +kernel, ok_of (by decide +kernel)⟩,
    ⟨withSet fun x => { x with pending := true, provisional := false, lastWriteT := some 0 }, by decide⟩, by decide, by decide,
    ⟨withSet fun x => { x with writing := some 0, lastWriteT := some 0 }, _, by decide, by decide, rfl⟩, by decide⟩
  · intro b
    cases b
    · exact ⟨cmd (par 14 [(0, 2), (11, 2), (12, 4)]), admits_of (by decide), by decide, by decide, by decide⟩
    · exact ⟨cmd (par 14 [(0, 2), (11, 2), (12, 3), (13, 255)]), admits_of (by decide), by decide, by decide, by decide⟩
  · simp only [List.forall_mem_cons, List.not_mem_nil, false_implies, implies_true, and_true]
    constructor <;> exact ⟨cmd (par 8 [(0, 3), (1, 255)]), admits_of (by decide), by decide, by decide, by decide⟩

theorem test_SettingsCommandsRun_full_met :
    ∃ (s : State) (d : Datagram) (tx : OpenTx), s.Admits setPresetSaveRow d ∧ fieldU d.params 0 2 ≤ 1023 ∧ fieldU d.params 2 6 = 0 ∧
      s.dev.daond.open_ = some tx ∧ tx.ops ≠ [] ∧
      presetPool < ({ s.dev.settings.live with presets := smPut (fieldU d.params 0 2) tx.ops s.dev.settings.live.presets } : Sections).poolUsed := by
  obtain ⟨p, hp⟩ : ∃ p : List Byte, p.length = 12582908 := ⟨List.replicate _ 0, List.length_replicate⟩
  refine ⟨poolFull p, cmd (par 8 [(0, 3), (1, 255)]), _, admits_of (by rfl), by decide, by decide, rfl, by simp [release0], ?_⟩
  have h : fieldU (cmd (par 8 [(0, 3), (1, 255)])).params 0 2 = 1023 := by decide
  rw [h]
  simp [poolFull, up, upWith, smPut, Sections.poolUsed, stageBytes, presetPool, hp]
  decide

/-- A SEC.UNLOCK PASSWORD of eight zero bytes for 60 s. -/
def unlockCmd : Datagram := cmd (par 72 [(1, 3), (2, 8), (7, 60)])
/-- A device whose password has that hash. -/
def locked (hash : List Byte) : State := withSet fun x => { x with live := { x.live with hash := hash } }

theorem length_fitBytes (n : Nat) (l : List Byte) : (fitBytes n l).length = n := by
  simp [fitBytes, zeros]; omega

theorem test_SecurityCommandsRun_unlock_met :
    up.Admits secStatusRow (cmd []) ∧ unlockPasswordBad ((secUnlockRow 0 72).apply unlockCmd).params = none ∧
    (∃ s : State, s.Admits (secUnlockRow 0 72) unlockCmd ∧ s.dev.hasPassword = true ∧ (s.arrive 0).dev.backingOff = true) ∧
    (∃ s : State, s.Admits (secUnlockRow 0 72) unlockCmd ∧ s.dev.hasPassword = true ∧ (s.arrive 0).dev.backingOff = false ∧
      fitBytes 32 (Config.shake256 (s.dev.settings.live.salt ++ sliceB ((secUnlockRow 0 72).apply unlockCmd).params 8 8)) = s.dev.settings.live.hash) ∧
    (∃ s : State, s.Admits (secUnlockRow 0 72) unlockCmd ∧ s.dev.hasPassword = true ∧ (s.arrive 0).dev.backingOff = false ∧
      fitBytes 32 (Config.shake256 (s.dev.settings.live.salt ++ sliceB ((secUnlockRow 0 72).apply unlockCmd).params 8 8)) ≠ s.dev.settings.live.hash) ∧
    (∃ d, up.Admits (secUnlockRow 1 2960) d ∧ unlockResponseBad ((secUnlockRow 1 2960).apply d).params = none) ∧
    (∃ d o, up.Admits (secUnlockRow 1 2960) d ∧ unlockResponseBad ((secUnlockRow 1 2960).apply d).params = some o) ∧ up.Admits secSealRow (cmd []) := by
  refine ⟨admits_of (by decide), by decide,
    ⟨{ locked [1] with dev := (locked [1]).dev.onSec fun q => { q with backoff := some 1 } }, admits_of (by decide), by decide, by decide⟩,
    ⟨locked (fitBytes 32 (Config.shake256 (zeros 8))), admits_of (by rfl), ?_, by rfl, by rfl⟩,
    ⟨locked [1], admits_of (by decide), by decide, by decide, ?_⟩,
    ⟨cmd (List.replicate 2960 0 |>.set 1 7 |>.set 7 60), admits_of (by decide +kernel), by decide +kernel⟩,
    ⟨cmd (List.replicate 2960 0), 4, admits_of (by decide +kernel), by decide +kernel⟩, admits_of (by decide)⟩
  · show (!(fitBytes 32 (Config.shake256 (zeros 8))).isEmpty) = true
    have h := length_fitBytes 32 (Config.shake256 (zeros 8))
    cases e : fitBytes 32 (Config.shake256 (zeros 8)) with
    | nil => rw [e] at h; cases h
    | cons => rfl
  · intro h
    have := congrArg List.length h
    rw [length_fitBytes] at this
    cases this

theorem test_SecurityCommandsRun_met :
    (∀ s ∈ [up, locked [1]], ∃ d : Datagram, s.Admits (secPasswordRow 0) d ∧ passwordBad true ((secPasswordRow 0).apply d).params = none ∧
      s.dev.passwordFree = s.dev.settings.live.hash.isEmpty) ∧
    (∃ d : Datagram, up.Admits (secPasswordRow 1) d ∧ passwordBad false ((secPasswordRow 1).apply d).params = none ∧ up.dev.passwordFree = true) ∧
    up.Admits secChallengeRow (cmd []) ∧
    (∃ (s : State) (d : Datagram), s.Admits secAttestRow d ∧ fieldU d.params 32 4 = 0 ∧ s.dev.settings.live.retired = false ∧
      s.dev.sec.nextIndex < s.dev.settings.live.reservedEnd) ∧
    (∀ b : Bool, ∃ (s : State) (d : Datagram), s.Admits secAttestRow d ∧ fieldU d.params 32 4 = 0 ∧ s.dev.settings.live.retired = false ∧
      s.dev.settings.live.reservedEnd ≤ s.dev.sec.nextIndex ∧ (s.arrive 0).dev.writeReady = b) ∧
    (∃ (s : State) (nonce : List Byte), s.dev.sec.challenge = some (nonce, 0) ∧ 0 < 300 * secQ) ∧
    (∃ s : State, s.dev.sec.backoff = some 1) ∧ (∃ s : State, s.dev.sec.scope ≠ 0 ∧ 0 < s.dev.sec.openUntil) ∧
    up.dev.sec.scope = 0 ∧ up.dev.sec.challenge = none ∧ up.dev.sec.backoff = none := by
  refine ⟨?_, ⟨cmd (par 68 []), admits_of (by decide), by decide, by decide⟩, admits_of (by decide),
    ⟨withSet fun x => { x with live := { x.live with reservedEnd := 1 } }, cmd (par 36 []), admits_of (by decide), by decide, by decide, by decide⟩, ?_,
    ⟨withSec fun q => { q with challenge := some ([], 0) }, [], rfl, by decide⟩, ⟨withSec fun q => { q with backoff := some 1 }, rfl⟩,
    ⟨withSec fun q => { q with scope := 1, openUntil := 1 }, by decide, by decide⟩, by decide, by decide, by decide⟩
  · simp only [List.forall_mem_cons, List.not_mem_nil, false_implies, implies_true, and_true]
    constructor <;> exact ⟨cmd (par 68 [(1, 64)]), admits_of (by decide), by decide, by decide⟩
  · intro b
    cases b
    · exact ⟨withSet fun x => { x with writing := some 0 }, cmd (par 36 []), admits_of (by decide), by decide, by decide, by decide, by decide⟩
    · exact ⟨up, cmd (par 36 []), admits_of (by decide), by decide, by decide, by decide, by decide⟩

theorem test_ServicePlaneRuns_met :
    (∃ d, (withSec fun q => { q with scope := 7 }).Admits svcRegReadRow d ∧ svcRegBad d.params = none) ∧
    (∃ d, (withSec fun q => { q with scope := 1 }).Admits svcRegWriteRow d ∧ svcRegBad d.params = none) ∧
    (∃ d, (withSec fun q => { q with scope := 2 }).Admits svcEyeRow d ∧ svcLaneBad d.params = none) ∧
    (∃ d, (withSec fun q => { q with scope := 2 }).Admits svcMarginRow d ∧ svcLaneBad d.params = none) ∧
    up.dev.sec.scope.testBit 2 = false ∧ (withSec fun q => { q with scope := 4 }).dev.sec.scope.testBit 2 = true :=
  ⟨⟨cmd (par 8 [(4, 8)]), admits_of (by decide), by decide⟩, ⟨cmd (par 12 [(5, 1)]), admits_of (by decide), by decide⟩,
    ⟨cmd (par 8 [(0, 1), (1, 255)]), admits_of (by decide), by decide⟩, ⟨cmd (par 8 [(0, 1), (1, 255)]), admits_of (by decide), by decide⟩,
    by decide, by decide⟩

/-- A device in a phase, as if it had come to it. -/
def inPhase (p : Phase) : State := upWith fun v => { v with pow := { v.pow with phase := p } }
/-- The parameters of POWER.DOMAIN for the last domain. -/
def domainCmd : Datagram := cmd (par 8 [(0, 29)])

theorem test_PowerCommandsRun_domain_met :
    up.Admits powerStatusRow (cmd []) ∧
    (∀ x ∈ [(true, powerDomainRow 0), (false, powerDomainRow 1)], powerDomainBad (x.2.apply domainCmd).params = none ∧
      fieldU (x.2.apply domainCmd).params 0 1 = 29 ∧
      (∃ s : State, s.Admits x.2 domainCmd ∧ s.dev.domainOff 29 ≠ x.1) ∧
      (∃ s : State, s.Admits x.2 domainCmd ∧ s.dev.domainOff 29 = x.1 ∧ (x.1 = true ∨ (s.begun x.2 0 domainCmd).dev.domainServes 29 = none) ∧
        s.dev.mediaOn = true) ∧
      ∃ s : State, s.Admits x.2 domainCmd ∧ s.dev.domainOff 29 = x.1 ∧ (x.1 = true ∨ (s.begun x.2 0 domainCmd).dev.domainServes 29 = none) ∧
        s.dev.mediaOn = false) ∧
    (∃ (s : State) (d : Datagram) (n k i : Nat), s.Admits (powerDomainRow 1) d ∧ powerDomainBad ((powerDomainRow 1).apply d).params = none ∧
      fieldU ((powerDomainRow 1).apply d).params 0 1 = n ∧ s.dev.domainOff n = false ∧
      (s.begun (powerDomainRow 1) 0 d).dev.domainServes n = some (k, i)) ∧
    ∃ d, up.Admits (powerDomainRow 2) d ∧ powerDomainBad ((powerDomainRow 2).apply d).params = none := by
  refine ⟨admits_of (by decide), ?_,
    ⟨streams, cmd (par 8 [(0, 9)]), 9, _, _, admits_of (by decide), by decide, by decide, by decide, by rfl⟩,
    ⟨cmd (par 8 [(0, 29)]), admits_of (by decide), by decide⟩⟩
  simp only [List.forall_mem_cons, List.not_mem_nil, false_implies, implies_true, and_true]
  exact ⟨⟨by decide, by decide, ⟨up, admits_of (by decide), by decide⟩, ⟨probesOff, admits_of (by decide), by decide, by decide, by decide⟩,
      ⟨{ probesOff with dev := { probesOff.dev with pow := { probesOff.dev.pow with phase := .asleep } } }, admits_of (by decide), by decide, by decide, by decide⟩⟩,
    ⟨by decide, by decide, ⟨probesOff, admits_of (by decide), by decide⟩, ⟨up, admits_of (by decide), by decide, by decide, by decide⟩,
      ⟨inPhase .asleep, admits_of (by decide), by decide, by decide, by decide⟩⟩⟩

theorem test_PowerCommandsRun_met :
    (∃ d, (inPhase .asleep).Admits powerSleepRow d ∧ fieldU d.params 0 8 = 0) ∧
    (∃ (s : State) (d : Datagram), s.Admits powerSleepRow d ∧ fieldU d.params 0 8 = 0 ∧ s.dev.pow.phase = .running ∧ s.dev.daond.prepared = [] ∧
      (∀ c ∈ s.dev.daond.commits, c.left = [])) ∧
    (∃ (s : State) (d : Datagram) (g : Prepared) (r : List Prepared), s.Admits powerSleepRow d ∧ fieldU d.params 0 8 = 0 ∧ s.dev.pow.phase = .running ∧
      s.dev.daond.prepared = g :: r ∧ (∀ c ∈ s.dev.daond.commits, c.left = [])) ∧
    (∀ b : Bool, ∃ s : State, s.Admits sysWakeRow (cmd []) ∧ s.dev.pow.phase = .asleep ∧ s.dev.pow.hold = b) ∧
    (∀ p ∈ [Phase.entering, .waking, .running], (inPhase p).Admits sysWakeRow (cmd []) ∧ (inPhase p).dev.pow.phase = p) ∧
    ((inPhase .entering).dev.pow.phase = .entering ∧ (inPhase .waking).dev.pow.phase = .waking ∧ up.dev.pow.phase ≠ .entering ∧ up.dev.pow.phase ≠ .waking) ∧
    (∃ (s : State) (x : Deferred), s.dev.alive = true ∧ s.dev.daond.deferred.find? (fun x => x.kind == DeferKind.domain 29) = some x) ∧
    up.dev.daond.deferred.find? (fun x => x.kind == DeferKind.domain 29) = none ∧
    (∃ s : State, s.dev.pow.hotSince = some 0 ∧ s.dev.alive = true ∧ s.dev.pow.hold = false) ∧ up.dev.pow.hotSince = none := by
  refine ⟨⟨cmd (par 8 []), admits_of (by decide), by decide⟩, ⟨up, cmd (par 8 []), admits_of (by decide), by decide⟩,
    ⟨prepared9, cmd (par 8 []), _, _, admits_of (by decide), by decide, by decide, rfl, by decide⟩, ?_, ?_, by decide,
    ⟨upWith fun v => { v with daond := { v.daond with deferred := [{ kind := .domain 29 }] } }, _, by decide, rfl⟩, by decide,
    ⟨upWith fun v => { v with pow := { v.pow with hotSince := some 0 } }, by decide⟩, by decide⟩
  · intro b
    cases b
    · exact ⟨inPhase .asleep, admits_of (by decide), by decide⟩
    · exact ⟨{ inPhase .asleep with dev := (inPhase .asleep).dev.onPow fun p => { p with hold := true } }, admits_of (by decide), by decide⟩
  · simp only [List.forall_mem_cons, List.not_mem_nil, false_implies, implies_true, and_true]
    exact ⟨⟨admits_of (by decide), by decide⟩, ⟨admits_of (by decide), by decide⟩, admits_of (by decide), by decide⟩

theorem test_ResetAndBootRun_met :
    State.reset.dev.pow.resetN = false ∧ State.reset.dev.pow.phase = .reset ∧ up.dev.pow.resetN = true ∧ up.dev.pow.phase ≠ .reset ∧
    up.dev.pow.phase ≠ .booting ∧ up.dev.alive = true ∧ 0 < up.dev.pow.sampleT + msQ ∧
    (∀ hold : Bool, let s := (inPhase .booting).onDev fun v => v.onPow fun p => { p with hold := hold }
      s.dev.pow.phase = .booting ∧ s.dev.fw.bootOk = true ∧ s.dev.fw.dead = false ∧ s.dev.pow.hold = hold) ∧
    ((readings 16 (List.replicate 16 480) ++ readings 4 [480, 480, 480, 480]).any fun x => decide (480 < x)) = false ∧
    ((readings 16 (List.replicate 16 480) ++ readings 4 [480, 480, 480, 481]).any fun x => decide (480 < x)) = true := by decide

/-- A device whose communication core restarts. -/
def cDown : State := upWith fun v => { v with pow := { v.pow with coreDown := [0], downT := [(0, 0)] } }

theorem test_EthernetHappeningsRun_met :
    up.dev.alive = true ∧ up.dev.coreUp .c = true ∧ bit up.dev.daond.net.cfg.ipMode 0 = true ∧ (cDown.dev.alive = true ∧ cDown.dev.coreUp .c = false) ∧
    (isCommand (cmd []) (up.arrive 0).dev.countRx = true ∧ headerCheck 0x0108 (cmd []) = none) ∧
    isCommand { cmd [] with magic := 0 } (up.arrive 0).dev.countRx = false := by decide

theorem test_OperationsSetOnlyTheirObject_met : (∃ p : List Byte, fieldU p 2 1 = 0) ∧ ∃ p : List Byte, fieldU p 2 1 ≠ 0 :=
  ⟨⟨[0, 0, 0], by decide⟩, ⟨[0, 0, 1], by decide⟩⟩

/-! ### Worked examples and check values of the spec -/

/-- The nine ASCII bytes of the check values. -/
def digits : List Byte := [0x31, 0x32, 0x33, 0x34, 0x35, 0x36, 0x37, 0x38, 0x39]

/-- R57. -/
theorem test_crc16_check_value : crc16 digits = 0x29B1 := by decide +kernel
/-- R94. -/
theorem test_crc8_check_value : crc8 digits = 0xF4 := by decide +kernel
/-- R226. -/
theorem test_crc32_check_value : crc32 digits = 0xCBF43926#32 := by decide +kernel
/-- Worked example of R103: one 4:2:2 pixel pair at 10 bits. -/
theorem test_pixel_pair_packs : packLine 2 10 2 true [[64, 940], [512], [512]] = [0x40, 0x00, 0xC8, 0x3A, 0x80] := by decide
/-- Worked example of R15: unwrapping a ts40 value, in picoseconds. -/
theorem test_ts40_unwraps : unwrap40 1000250000000000 100000000000 = 1000655581276160 := by decide
/-- Worked example of R209: interpolation in a host table. -/
theorem test_lut_interpolates : lutBlend 300000 301024 411206 = 300582 := by decide
/-- Worked example of R213: one matrix row. -/
theorem test_matrix_row :
    matOut { c00 := 65536, c01 := 0, c02 := 103206, pre1 := -524288, pre2 := -524288 } 0 600000
      (matT { c00 := 65536, c01 := 0, c02 := 103206, pre1 := -524288, pre2 := -524288 } 0 524288 700000) = 876711 := by decide
/-- Worked example of R221: one straight-alpha pixel. -/
theorem test_straight_alpha :
    blendPx false 49152 { c0 := expand 8 200, c1 := expand 8 100, c2 := expand 8 50, a := expandA 8 128 } { c0 := 100000, c1 := 500000, c2 := 900000 } =
      { c0 := 371967, c1 := 466572, c2 := 638580, a := 65535 } := by decide
/-- The same example: its output at 10 bits. -/
theorem test_output_depth : [371967, 466572, 638580].map (reduce 10) = [363, 455, 623] := by decide
/-- Worked example of R235: positions of a horizontal 2x upscale. -/
theorem test_scale_positions : scalePos 0 1920 3840 0 = -16 ∧ scalePos 1 1920 3840 0 = 16 := by decide
/-- Worked example of R168: a tile of four identical lines codes in two sectors. -/
theorem test_mtf_tile :
    let t := List.replicate 4 [(List.range 32).map (16 + ·), List.replicate 16 128, List.replicate 16 128]
    (writeTile 2 8 t).1 = 0x02 ∧ (writeTile 2 8 t).2.take 3 = [0x00, 0xB1, 0x6D] ∧ (codeTile 8 [none, none, none] t).length = 573 := by decide +kernel
/-- Worked example of R412: a window across the wrap. -/
theorem test_sequence_window :
    classify { newest := 0xFFFFFFF0 } 5 = .fresh ∧ classify { newest := 5 } 0xFFFFFFF8 = .inside ∧
    classify { newest := 5, cache := [(0xFFFFFFF0, {})] } 0xFFFFFFF0 = .answered {} ∧ classify { newest := 5 } 0xFFFFFE00 = .stale ∧
    classify { newest := 5 } 0x80000005 = .stale := by decide

/-! ### Single steps -/

/-- The status and parameters of the one reply that leaves in a step's next state. -/
def replies (o : Host.Outcome State Fault Refusal) : List (Status × List Byte) :=
  match o with
  | .next s => s.dev.out.filterMap fun x => match x with | .reply r => some (r.status, r.params) | _ => none
  | _ => []
/-- What a step's next state shows. -/
def shows {α : Type} (o : Host.Outcome State Fault Refusal) (f : State → α) : Option α := match o with | .next s => some (f s) | _ => none
/-- A state with one command waiting. -/
def sent (c : Instr) (s : State) : State := { s with pending := [c] }

/-- R436: SYS.PING echoes its value, followed by device time. -/
theorem test_ping_echoes : replies (step (sent (.sysPing 0 (cmd (par 8 [(7, 1)]))) up)) = [(.ok, par 20 [(7, 1)])] := by decide
/-- R411 step 5: a command that needs the lease from a host without it. -/
theorem test_no_lease : (replies (step (sent (.sysWake 0 { cmd [] with leaseTag := 8 }) up))).map (·.1) = [.noLease] := by decide
/-- R411: an opcode that is not assigned. -/
theorem test_unknown_opcode : (replies (step (sent (.unknownOpcode 0 0x0108 (cmd [])) up))).map (·.1) = [.unknownOpcode] := by decide
/-- R518, R523: loss of power resets a running device, with cause 3. -/
theorem test_power_loss_resets : shows (step (sent (.pwrOkFall 0) up)) (fun s => (s.dev.pow.phase, s.dev.pow.cause)) = some (.reset, 3) := by decide
/-- R433: the first byte of a bulk write lands at its address, and the write is answered. -/
theorem test_bulk_write_lands : shows (step (sent (.bulkWrite 0 (cmd (par 80 [(7, 64), (15, 128), (16, 0xAB)]))) up))
    (fun s => (memGet 128 s.mem, memGet 129 s.mem, s.mem.length)) = some (0xAB, 0, 1) := by decide
/-- R417: a lease times out when timeout_s have passed. -/
theorem test_lease_times_out : shows (step (sent (.leaseTimeout (5 * secQ)) up)) (fun s => s.dev.daond.lease.isNone) = some true := by decide
/-- R522: the thermal trip resets a running device. -/
theorem test_thermal_trip : shows (step (sent (.thermalSample msQ (List.replicate 16 481) [0, 0, 0, 0]) up)) (fun s => (s.dev.pow.phase, s.dev.pow.cause)) =
    some (.reset, 2) := by decide
/-- R65: an announced idle becomes IDLE at signal loss. -/
theorem test_idle_after_announcement : shows (step (sent (.signalLoss 0 511) (withLane fun l => { l with rx := .idlePending }))) (fun s => (s.dev.lane 511).rx) =
    some .idle := by decide
/-- R519: a pulse of RESET_N below 100 ns is ignored. -/
theorem test_short_reset_ignored : shows (step (sent (.resetNFall 0 99) up)) (fun s => s.dev.pow.phase) = some .running := by decide

/-! ### WellFormed -/

/-- A well-formed term of several shapes. -/
theorem test_wf_accepts : [Instr.sysPing 0 (cmd (par 8 [])), .sysLeaseAcquire 0 (cmd (par 8 [])), .probeFreezeArm 0 (cmd (par 28 [(3, 1)])),
    .streamStatusEgress 0 (cmd (par 8 [(2, 2)])), .blockReceived 0 0 (List.replicate 64 0), .format 0 0 {}, .unknownOpcode 0 0x0108 (cmd []),
    .thermalSample 0 (List.replicate 16 100) (List.replicate 4 100), .scrubbing 0 0 0x17FFFFFFF true].all Instr.wf = true := by decide
/-- An ill-formed term for each check on a datagram. -/
theorem test_wf_refuses_datagrams : ([Instr.sysInfo 0 { addr := 2 ^ 128 }, .sysInfo 0 { port := 65536 }, .sysInfo 0 { magic := 65536 },
    .sysInfo 0 { version := 256 }, .sysInfo 0 { flags := 256 }, .sysInfo 0 { device := 65536 }, .sysInfo 0 { leaseTag := 65536 },
    .sysInfo 0 { status := 65536 }, .sysInfo 0 { paramLen := 65536 }, .sysInfo 0 { rsvd := 2 ^ 48 }, .sysLeaseAcquire 0 (cmd [1]),
    .sysLeaseRenew 0 (cmd [0]), .laneIdleEnter 0 (cmd [0, 0, 0]), .streamStatusIngress 0 (cmd [0, 0, 2]), .streamStatusEgress 0 (cmd [0, 0, 0]),
    .probeFreezeCancel 0 (cmd [0, 0, 0, 1]), .probeFreezeArm 0 (cmd [0, 0, 0, 0]), .unknownOpcode 0 65536 (cmd []), .unknownOpcode 0 0x0101 (cmd []),
    .unknownOpcode 0 0x0108 { port := 65536 }]).any Instr.wf = false := by decide
/-- A datagram whose parameters do not fit a UDP datagram. -/
theorem test_wf_refuses_long_datagram : Instr.wf (.sysInfo 0 { params := List.replicate 65536 0 }) = false := by
  show Datagram.wf _ = false
  simp only [Datagram.wf, List.length_replicate]; decide
/-- A packet longer than the parser delivers. -/
theorem test_wf_refuses_long_packet : Instr.wf (.aux 0 0 { payload := List.replicate 8193 0 }) = false := by
  show Packet.wf _ = false
  simp only [Packet.wf, List.length_replicate]; decide
/-- An ill-formed term for each check on what is no datagram. -/
theorem test_wf_refuses_others : ([Instr.serviceFrame 0 (.arpRequest (2 ^ 32)), .serviceFrame 0 (.dhcpAck (2 ^ 32)), .serviceFrame 0 (.neighborSolicit (2 ^ 128)),
    .serviceFrame 0 (.routerAdvert (2 ^ 64)), .ptpMessage 0 (.announce 256 0 0 0), .ptpMessage 0 (.sync 0 (2 ^ 64) false 0 0), .ptpMessage 0 (.pdelayReq 256),
    .stageExpired 0 65536, .commitEffectiveTime 0 (.head 256), .commitEffectiveTime 0 (.take 512), .commitEffectiveTime 0 (.surface 8191),
    .commitEffectiveTime 0 (.slot 1024), .commitEffectiveTime 0 (.audioChannel 16384), .commitEffectiveTime 0 (.tone 64), .blockReceived 0 0 [],
    .reservedTypePacket 0 0 9 {}, .lineStart 0 0 65536 none, .lineStart 0 0 0 (some 65536),
    .thermalSample 0 [] [0, 0, 0, 0], .thermalSample 0 (List.replicate 16 0) [], .thermalSample 0 (List.replicate 16 32768) [0, 0, 0, 0],
    .scrubbing 0 0 0x180000000 true, .jtagTapAccess 0 256 []]).any Instr.wf = false := by decide

end Sys2Proof.Tests
end

section
/-! Proofs of the statements about the architecture (file 01). -/
namespace Sys2Proof.Proofs
open Sys2Proof Sys2Proof.Machine

/-! ### The instant at which a happening acts (log entry 1) -/

@[simp] theorem mediaOn_arrive (t : Nat) (v : Dev) : (v.arrive t).mediaOn = v.mediaOn := rfl
@[simp] theorem alive_arrive (t : Nat) (v : Dev) : (v.arrive t).alive = v.alive := rfl
@[simp] theorem coreUp_arrive (t : Nat) (k : CoreId) (v : Dev) : (v.arrive t).coreUp k = v.coreUp k := rfl
@[simp] theorem clk_cfg_arrive (t : Nat) (v : Dev) : (v.arrive t).clk.cfg = v.clk.cfg := rfl
@[simp] theorem ptpReceiver_arrive (t : Nat) (v : Dev) : (v.arrive t).clk.ptpReceiver = v.clk.ptpReceiver := rfl
@[simp] theorem txClockId_arrive (t : Nat) (v : Dev) : (v.arrive t).clk.txClockId = v.clk.txClockId := rfl
@[simp] theorem ptpBest_arrive (t : Nat) (v : Dev) : (v.arrive t).clk.ptpBest = v.clk.ptpBest := rfl

theorem due_of_lt {d t : Nat} (h : t < d) (f : State → State) (s : State) : s.due d t f = s.arrive t := if_pos h
theorem due_of_le {d t : Nat} (h : d ≤ t) (f : State → State) (s : State) : s.due d t f = f (s.arrive d) := if_neg (by omega)

/-- A change of the device at an instant is what another does there when they agree on the device of that instant. -/
theorem arrive_onDev_congr {t : Nat} {f g : Dev → Dev} {s : State} (h : f (s.dev.arrive t) = g (s.dev.arrive t)) :
    (s.arrive t).onDev f = s.happens t g := by
  simp only [State.happens, State.onDev, State.arrive_dev, h]

/-- A change that leaves the device of an instant as it is leaves only the arrival. -/
theorem arrive_onDev_same {t : Nat} {f : Dev → Dev} {s : State} (h : f (s.dev.arrive t) = s.dev.arrive t) : (s.arrive t).onDev f = s.arrive t :=
  arrive_onDev_congr (g := id) h

/-- A command acts as of instant `d` by changing the device by `f`, and one that comes before only moves the instant on. -/
def ActsAt (s : State) (t : Nat) (i : Instr) (d : Nat) (f : Dev → Dev) : Prop :=
  (t < d → exec i s = .next (s.arrive t)) ∧ (d ≤ t → exec i s = .next (s.happens d f))

theorem actsAt_of_due {s : State} {t d : Nat} {i : Instr} {f g : Dev → Dev} (e : exec i s = .next (s.due d t (State.onDev g)))
    (h : g (s.dev.arrive d) = f (s.dev.arrive d)) : ActsAt s t i d f :=
  ⟨fun ht => by rw [e, due_of_lt ht], fun ht => by rw [e, due_of_le ht, arrive_onDev_congr h]⟩

/-! ### The queue of commits (R37) -/

theorem before_iff (a b : Commit) :
    a.before b = true ↔ a.effective < b.effective ∨ a.effective = b.effective ∧ a.order ≤ b.order := by
  simp only [Commit.before, Bool.or_eq_true, Bool.and_eq_true, decide_eq_true_eq, beq_iff_eq]

theorem before_trans {a b c : Commit} (h : a.before b = true) (k : b.before c = true) : a.before c = true := by
  rw [before_iff] at *
  omega

theorem before_of_not_before {a b : Commit} (h : ¬ a.before b = true) : b.before a = true := by
  rw [before_iff] at *
  omega

theorem mem_queueCommit (k x : Commit) (q : List Commit) : x ∈ queueCommit k q ↔ x = k ∨ x ∈ q := by
  induction q with
  | nil => simp only [queueCommit, List.mem_cons]
  | cons y r ih =>
    unfold queueCommit
    split
    · rw [List.mem_cons, ih, List.mem_cons, or_left_comm]
    · exact List.mem_cons

theorem queueCommit_pairwise (k : Commit) {q : List Commit} (h : q.Pairwise (fun a b => a.before b = true)) :
    (queueCommit k q).Pairwise (fun a b => a.before b = true) := by
  induction q with
  | nil => exact List.pairwise_singleton _ k
  | cons y r ih =>
    obtain ⟨hy, hr⟩ := List.pairwise_cons.mp h
    unfold queueCommit
    split
    · next hyk =>
      refine List.pairwise_cons.mpr ⟨fun x hx => ?_, ih hr⟩
      obtain rfl | hx := (mem_queueCommit k x r).mp hx
      · exact hyk
      · exact hy x hx
    · next hyk =>
      have hky : k.before y = true := before_of_not_before hyk
      refine List.pairwise_cons.mpr ⟨fun x hx => ?_, h⟩
      obtain rfl | hx := List.mem_cons.mp hx
      · exact hky
      · exact before_trans hky (hy x hx)

/-- Settles O21, by induction on the queue: `Commit.before` is total and transitive, and the new commit goes in front of the first commit
that does not come before it. -/
theorem commitsStayInOrder : Obligations.CommitsStayInOrder := fun k q h => ⟨queueCommit_pairwise k h, fun x => mem_queueCommit k x q⟩


/-! ### COMMIT_EFFECTIVE_TIME (R34, R129, R148, R174, R182, R200, R256) -/

theorem coreUp_mod (t : Nat) : Machine.coreUp t % 3200 = 0 := Nat.mul_mod_left ..

theorem le_coreUp (t : Nat) : t ≤ Machine.coreUp t := by
  unfold Machine.coreUp ceilDiv
  omega

theorem coreUp_lt (t : Nat) : Machine.coreUp t < t + 3200 := by
  unfold Machine.coreUp ceilDiv
  omega

theorem firstE_of_find {u : UnitId} {v : Dev} {k : Commit} (h : v.daond.commits.find? (fun k => k.left.contains u) = some k) :
    v.firstE u = some (Machine.coreUp (v.clk.instantOf (ceilDiv (1000 * k.effective - 500) 16384))) := by
  rw [Dev.firstE, h, Option.map_some]

theorem exec_commitEffectiveTime_of_none {s : State} {t : Nat} {u : UnitId} (h : s.dev.firstE u = none) :
    exec (.commitEffectiveTime t u) s = .next (s.arrive t) := by
  show execCommitEffectiveTime t u s = _
  rw [execCommitEffectiveTime, h]

theorem exec_commitEffectiveTime_of_some {s : State} {t d : Nat} {u : UnitId} (hm : s.dev.mediaOn = true) (h : s.dev.firstE u = some d) :
    exec (.commitEffectiveTime t u) s = .next (s.due d t (State.onDev (Dev.unitAtE u))) := by
  show execCommitEffectiveTime t u s = _
  simp only [execCommitEffectiveTime, h, hm, if_true]

/-- A unit takes its due commits by `f` where `c` holds at the first CORE cycle at or after their E, and waits for its own boundary where not. -/
def TakesAtE (s : State) (t : Nat) (u : UnitId) (c : Dev → Bool) (f : Dev → Dev) : Prop :=
  ∀ d, s.dev.firstE u = some d →
    (t < d → exec (.commitEffectiveTime t u) s = .next (s.arrive t)) ∧
    (d ≤ t → (c (s.dev.arrive d) = true → exec (.commitEffectiveTime t u) s = .next (s.happens d f)) ∧
      (c (s.dev.arrive d) = false → exec (.commitEffectiveTime t u) s = .next (s.arrive d)))

theorem takesAtE_of_unitAtE {s : State} {t : Nat} {u : UnitId} {c : Dev → Bool} {f : Dev → Dev} (hm : s.dev.mediaOn = true)
    (hu : ∀ v : Dev, v.unitAtE u = if c v then f v else v) : TakesAtE s t u c f := by
  intro d hd
  rw [exec_commitEffectiveTime_of_some hm hd]
  refine ⟨fun ht => by rw [due_of_lt ht], fun ht => ?_⟩
  rw [due_of_le ht]
  exact ⟨fun hc => by rw [arrive_onDev_congr (g := f) (by rw [hu, if_pos hc])],
    fun hc => by rw [arrive_onDev_same (by rw [hu, hc, if_neg Bool.false_ne_true])]⟩

theorem takesAtE_always {s : State} {t : Nat} {u : UnitId} {f : Dev → Dev} (hm : s.dev.mediaOn = true) (hu : ∀ v : Dev, v.unitAtE u = f v) :
    TakesAtE s t u (fun _ => true) f :=
  takesAtE_of_unitAtE hm hu

theorem takesAtE_never {s : State} {t : Nat} {u : UnitId} (hm : s.dev.mediaOn = true) (hu : ∀ v : Dev, v.unitAtE u = v) (f : Dev → Dev) :
    TakesAtE s t u (fun _ => false) f :=
  takesAtE_of_unitAtE hm hu

/-- A unit that keeps its configuration where `b` holds takes its commits where `b` does not. -/
theorem takesAtE_unless {s : State} {t : Nat} {u : UnitId} {b : Dev → Bool} {f : Dev → Dev} (hm : s.dev.mediaOn = true)
    (hu : ∀ v : Dev, v.unitAtE u = if b v then v else f v) : TakesAtE s t u (fun v => !b v) f :=
  takesAtE_of_unitAtE hm fun v => by rw [hu]; cases b v <;> rfl

theorem unitAtE_take (n : Nat) (v : Dev) : v.unitAtE (.take n) = if v.takeFree n then v.takeNow n else v := rfl
theorem unitAtE_ingress (n : Nat) (v : Dev) : v.unitAtE (.ingress n) = if (v.is n).state == .locked then v else v.ingressLive n := rfl
theorem unitAtE_egress (n : Nat) (v : Dev) : v.unitAtE (.egress n) = if v.carries n then v else v.egressLive n := rfl
theorem unitAtE_capture (n : Nat) (v : Dev) : v.unitAtE (.capture n) = if (v.is n).state == .locked then v else v.captureLive n 0 := rfl
theorem unitAtE_tone (n : Nat) (v : Dev) : v.unitAtE (.tone n) =
    if v.cfg.audio.any fun a => a.2.sourceKind == 2 && a.2.source == n then v else (v.toneLive n 0).1 := rfl

/-- Settles O27: what `Dev.unitAtE` does to each kind of unit, at the CORE cycle that `Dev.firstE` gives. -/
theorem commitReachesItsUnitAtE : Obligations.CommitReachesItsUnitAtE := by
  intro s t n hm
  refine ⟨fun u k hk => ⟨_, firstE_of_find hk, coreUp_mod _, le_coreUp _, coreUp_lt _⟩, fun u hu => exec_commitEffectiveTime_of_none hu,
    ?head, ?surface, ?slot, ?ingress, ?capture, ?egress, ?take, ?audioChannel, ?audioStream, ?tone⟩
  case head => exact takesAtE_always (u := .head n) hm fun _ => rfl
  case surface => exact takesAtE_always (u := .surface n) hm fun _ => rfl
  case slot => exact takesAtE_always (u := .slot n) hm fun _ => rfl
  case ingress => exact takesAtE_unless hm (unitAtE_ingress n)
  case capture => exact takesAtE_unless hm (unitAtE_capture n)
  case egress => exact takesAtE_unless hm (unitAtE_egress n)
  case take => exact takesAtE_of_unitAtE hm (unitAtE_take n)
  case audioChannel => exact takesAtE_never (u := .audioChannel n) hm (fun _ => rfl) _
  case audioStream => exact takesAtE_never (u := .audioStream n) hm (fun _ => rfl) _
  case tone => exact takesAtE_unless hm (unitAtE_tone n)

/-! ### Watchdogs, trials and core restarts (R42, R479 to R481) -/

theorem exec_watchdogReset {s : State} (t : Nat) {k : Fin 3} (ha : s.dev.alive = true) (hk : s.dev.mediaOn = true ∨ k.val = 0) :
    exec (.watchdogReset t k) s = .next (s.happens t (Dev.watchdog k)) := by
  refine congrArg Host.Outcome.next (arrive_onDev_congr (if_pos ?_))
  rw [alive_arrive, mediaOn_arrive, ha, Bool.true_and, Bool.or_eq_true, decide_eq_true_eq]
  exact hk

theorem actsAt_trialTimeout {s : State} (t : Nat) (ha : s.dev.alive = true) (ht : s.dev.fw.onTrial = true) :
    ActsAt s t (.trialTimeout t) (s.dev.fw.trialSince + secQ * s.dev.fw.trialLen) (Dev.revertBundle 2) := by
  refine actsAt_of_due (g := Dev.revertBundle 2) ?_ rfl
  show execTrialTimeout t s = _
  simp only [execTrialTimeout, ha, ht, Bool.and_self, if_true]

theorem exec_trialTimeout_of_not_onTrial {s : State} (t : Nat) (ht : s.dev.fw.onTrial = false) : exec (.trialTimeout t) s = .next (s.arrive t) := by
  show execTrialTimeout t s = _
  simp only [execTrialTimeout, ht, Bool.and_false, Bool.false_eq_true, if_false]

theorem exec_selfConfirmation {s : State} {t : Nat} {c : Fin 6} (ha : s.dev.alive = true) (hc : s.dev.fw.trialComp = some c.val)
    (hh : (s.arrive t).dev.healthy c = true) : exec (.selfConfirmation t c) s = .next (s.happens t fun v =>
      (v.onFw fun f => f.modComp c fun x => { x with selfConfirmed := true }).checkTrial) := by
  refine congrArg Host.Outcome.next (arrive_onDev_congr (if_pos ?_))
  rw [State.arrive_dev] at hh
  simp only [alive_arrive, Dev.arrive_fw, ha, hc, hh, decide_true, Bool.and_self]

theorem exec_selfConfirmation_ignored {s : State} {t : Nat} {c : Fin 6}
    (h : s.dev.fw.trialComp ≠ some c.val ∨ (s.arrive t).dev.healthy c = false) : exec (.selfConfirmation t c) s = .next (s.arrive t) := by
  refine congrArg Host.Outcome.next (arrive_onDev_same (if_neg ?_))
  rw [State.arrive_dev] at h
  rw [Dev.arrive_fw, Bool.and_eq_true, Bool.and_eq_true, decide_eq_true_eq]
  rintro ⟨⟨-, hc⟩, hh⟩
  obtain h | h := h
  · exact h hc
  · exact Bool.false_ne_true (h.symm.trans hh)

theorem exec_queueWaitEnd {s : State} (t : Nat) {w : Nat} (ha : s.dev.alive = true) (hw : s.dev.fw.queueWait = some w) :
    exec (.queueWaitEnd t) s = .next ((s.arrive (min t (secQ + w))).onDev fun v =>
      if v.allArmed || decide (secQ + w ≤ v.clk.now) then v.waitEnds else v) := by
  show execQueueWaitEnd t s = _
  rw [execQueueWaitEnd, hw]
  refine congrArg Host.Outcome.next (arrive_onDev_congr ?_)
  rw [alive_arrive, ha, Bool.true_and]

theorem exec_queueWaitEnd_of_none {s : State} (t : Nat) (hw : s.dev.fw.queueWait = none) : exec (.queueWaitEnd t) s = .next (s.arrive t) := by
  show execQueueWaitEnd t s = _
  rw [execQueueWaitEnd, hw]

theorem exec_coreRestartComplete {s : State} (t : Nat) {k : Fin 3} {e : Nat}
    (hk : s.dev.pow.coreDown.contains k.val = true) (he : smFind k.val s.dev.pow.downT = some e) :
    exec (.coreRestartComplete t k) s = .next ((s.arrive (min t (e + restartTime k.val))).coreBack k.val) := by
  show execCoreRestartComplete t k s = _
  simp only [execCoreRestartComplete, he, hk, if_true]
  rfl

/-- The restart of a core that is down, on a device that is alive. -/
theorem coreBack_of_down {s : State} {k : Nat} (ha : s.dev.alive = true) (hk : s.dev.pow.coreDown.contains k = true) : s.coreBack k =
    (let a := s.onDev fun v => v.onPow fun p => { p with coreDown := p.coreDown.filter (· != k) }
     let b := a.onDev fun v => if k = 0 then v.coreCBack else if !v.mediaOn then v else if k = 1 then v.coreTBack else v.coreMBack
     let c := b.onDev (Dev.afterRestart (k + 1))
     if c.dev.coreUp .c then c.drainQueue.resume else c) := by
  refine if_neg ?_
  rw [ha, hk]
  exact Bool.false_ne_true

theorem exec_coreRestartComplete_of_up {s : State} (t : Nat) {k : Fin 3} (hk : s.dev.pow.coreDown.contains k.val = false) :
    exec (.coreRestartComplete t k) s = .next (s.arrive t) := by
  show execCoreRestartComplete t k s = _
  rw [execCoreRestartComplete]
  split
  · rw [hk, if_neg Bool.false_ne_true]
  · rfl

/-- Settles O54, command by command: each acts as of its instant under its own condition, and else only arrives. -/
theorem trialsAndRestartsRun : Obligations.TrialsAndRestartsRun := by
  intro s t ha
  refine ⟨fun k hk => exec_watchdogReset t ha hk, ⟨?trialEnds, ?trialGoesOn⟩,
    fun c => ⟨fun hc hh => exec_selfConfirmation ha hc hh, exec_selfConfirmation_ignored⟩, ?wait,
    exec_queueWaitEnd_of_none t, ?restart, fun k hk => exec_coreRestartComplete_of_up t hk⟩
  case trialEnds => exact fun ht => (actsAt_trialTimeout t ha ht).2
  case trialGoesOn =>
    intro h
    cases ht : s.dev.fw.onTrial with
    | false => exact exec_trialTimeout_of_not_onTrial t ht
    | true => exact (actsAt_trialTimeout t ha ht).1 (h.resolve_left (ne_false_of_eq_true ht))
  case wait =>
    intro w hw
    rw [exec_queueWaitEnd t ha hw]
    refine ⟨fun h => congrArg Host.Outcome.next (arrive_onDev_congr (if_pos ?_)), fun h hn => congrArg Host.Outcome.next (arrive_onDev_same (if_neg ?_))⟩
    · rw [Bool.or_eq_true, decide_eq_true_eq]
      exact h
    · rw [Bool.or_eq_true, decide_eq_true_eq]
      rintro (h' | h')
      · exact Bool.false_ne_true (h.symm.trans h')
      · exact absurd hn (Nat.not_lt.mpr h')
  case restart => exact fun k e hk he => ⟨_, (exec_coreRestartComplete t hk he).trans (congrArg _ (coreBack_of_down ha hk)), rfl⟩

/-! ### Epochs and replicas (R29, R31, R32) -/

theorem nextEpochQ_mod (v : Dev) : v.nextEpochQ % (1024 * 4000) = 0 := Nat.mul_mod_left ..

theorem epoch_lt_nextEpochQ (v : Dev) : v.clk.epoch * (1024 * 4000) < v.nextEpochQ := by
  have h : v.clk.epoch + 1 ≤ max (v.clk.epoch + 1) (v.nowQ / epochQ) := Nat.le_max_left ..
  exact Nat.mul_lt_mul_of_pos_right h (by decide)

/-- The state in which the next epoch boundary has been sent, where it has come by `t` (R29). -/
def epochSent (t : Nat) (s : State) : State :=
  if t < s.dev.clk.instantOf s.dev.nextEpochQ then s.arrive t else s.happens (s.dev.clk.instantOf s.dev.nextEpochQ) Dev.epochStarts

theorem exec_epochBoundary_of_no_step {s : State} {t : Nat}
    (h : ∀ b x, (epochSent t s).dev.clk.step = some (b, x) → (epochSent t s).dev.nowQ < b → t < (epochSent t s).dev.clk.instantOf b) :
    exec (.epochBoundary t) s = .next (epochSent t s) := by
  refine congrArg Host.Outcome.next ?_
  change (match (epochSent t s).dev.clk.step with | some (b, _) => _ | none => epochSent t s) = _
  split
  · next b x hs =>
    refine if_neg fun hc => ?_
    rw [Bool.and_eq_true, decide_eq_true_eq, decide_eq_true_eq] at hc
    exact absurd (h b x hs hc.2) (Nat.not_lt.mpr hc.1)
  · rfl

theorem exec_epochBoundary_of_step {s : State} {t b : Nat} {x : Int} (hs : (epochSent t s).dev.clk.step = some (b, x))
    (hb : (epochSent t s).dev.nowQ < b) (ht : (epochSent t s).dev.clk.instantOf b ≤ t) :
    exec (.epochBoundary t) s = .next ((epochSent t s).happens ((epochSent t s).dev.clk.instantOf b) Dev.epochStarts) := by
  refine congrArg Host.Outcome.next ?_
  change (match (epochSent t s).dev.clk.step with | some (b, _) => _ | none => epochSent t s) = _
  rw [hs]
  have hc : (decide ((epochSent t s).dev.clk.instantOf b ≤ t) && decide ((epochSent t s).dev.nowQ < b)) = true := by
    rw [decide_eq_true ht, decide_eq_true hb, Bool.and_self]
  exact (if_pos hc).trans (due_of_le ht ..)

theorem epochStarts_of_mediaOn {v : Dev} (hm : v.mediaOn = true) :
    let w := Dev.applyStep { v with clk := { v.clk.rebase with rate := v.clk.rateAdj } }
    v.epochStarts = { w with clk := { w.clk with epoch := w.nowQ / (1024 * 4000) } } := by
  refine if_neg ?_
  rw [hm]
  exact Bool.false_ne_true

theorem actsAt_replicaRecalibration {s : State} (t : Nat) (hm : s.dev.mediaOn = true) (hc : s.dev.coreUp .t = true) :
    ActsAt s t (.replicaRecalibration t) (s.dev.clk.calT + 10 * secQ) Dev.recalibrate := by
  refine actsAt_of_due rfl (if_pos ?_)
  rw [mediaOn_arrive, coreUp_arrive, hm, hc, Bool.and_self]

/-! ### Frame-pulse outputs (R354, R355) -/

theorem exec_realignment_of_none {s : State} (t : Nat) (h : s.dev.realignQ = none) : exec (.realignment t) s = .next (s.arrive t) := by
  show execRealignment t s = _
  rw [execRealignment, h]

theorem actsAt_realignment {s : State} (t : Nat) {q : Nat} (h : s.dev.realignQ = some q) :
    ActsAt s t (.realignment t) (s.dev.clk.instantOf q) Dev.realign := by
  refine actsAt_of_due (g := Dev.realign) ?_ rfl
  show execRealignment t s = _
  rw [execRealignment, h]

/-- The realignment of an output that is due at a device time, with the output's number. -/
def realignEntry (q : Nat) (e : Nat × FpoSt) : Option (Nat × Nat) :=
  e.2.pendingU.bind fun u => if qOfU u ≤ q then some (u, e.1) else none

/-- The outputs of a list place their pulse 0 and start their new grids, with one event for each T. -/
def realignAll (due : List (Nat × Nat)) (v : Dev) : Dev :=
  (due.map (·.1)).eraseDups.foldl (fun v u => v.raise evFpRealign ((due.filter (fun e => e.1 == u)).map (fun e => 2 ^ e.2)).sum)
    (due.foldl (fun v e =>
      (v.modFpo e.2 fun x => { x with pendingU := none, gridP := some ((v.tc (v.fpo e.2).cfg.tc).phaseAt v.clk.now), nextK := 0 }).pulse e.2) v)

theorem realign_eq (v : Dev) : v.realign = if !v.mediaOn then v else realignAll (v.fpos.filterMap (realignEntry v.nowQ)) v := by
  have he : realignEntry v.nowQ = fun e => match e.2.pendingU with
      | some u => if qOfU u ≤ v.nowQ then some (u, e.1) else none
      | none => none := by
    funext e
    unfold realignEntry
    cases e.2.pendingU <;> rfl
  rw [he]
  rfl

theorem realignAll_singleton (u n : Nat) (v : Dev) : realignAll [(u, n)] v =
    ((v.modFpo n fun y => { y with pendingU := none, gridP := some ((v.tc (v.fpo n).cfg.tc).phaseAt v.clk.now), nextK := 0 }).pulse n).raise
      evFpRealign (2 ^ n) := by
  have hs : (([(u, n)].filter fun e => e.1 == u).map fun e => 2 ^ e.2).sum = 2 ^ n := by
    simp only [List.filter_cons, beq_self_eq_true, if_true, List.filter_nil, List.map_cons, List.map_nil, List.sum_singleton]
  rw [← hs]
  rfl

theorem realignEntry_eq_ite (q : Nat) : realignEntry q =
    fun e => if (e.2.pendingU.any fun w => decide (qOfU w ≤ q)) = true then realignEntry q e else none := by
  funext e
  unfold realignEntry
  cases e.2.pendingU with
  | none => rfl
  | some u =>
    by_cases h : qOfU u ≤ q
    · exact (if_pos (decide_eq_true h)).symm
    · simp only [Option.bind_some, if_neg h, ite_self]

theorem realignEntries_of_filter {v : Dev} {n u : Nat} {x : FpoSt}
    (hf : (v.fpos.filter fun e => e.2.pendingU.any fun w => decide (qOfU w ≤ v.nowQ)) = [(n, x)]) (hu : x.pendingU = some u) :
    v.fpos.filterMap (realignEntry v.nowQ) = [(u, n)] := by
  have hq : qOfU u ≤ v.nowQ := by
    have hm : (n, x) ∈ v.fpos.filter fun e => e.2.pendingU.any fun w => decide (qOfU w ≤ v.nowQ) := hf ▸ List.mem_singleton_self _
    have h := (List.mem_filter.mp hm).2
    rw [hu] at h
    exact of_decide_eq_true h
  have he : realignEntry v.nowQ (n, x) = some (u, n) := by
    simp only [realignEntry, hu, Option.bind_some, if_pos hq]
  rw [realignEntry_eq_ite, ← List.filterMap_filter, hf, List.filterMap_cons_some he, List.filterMap_nil]

/-- One output whose realignment is due places its pulse 0 and starts its grid, and one event is raised (R355). -/
theorem realign_of_one_due {v : Dev} {n u : Nat} {x : FpoSt} (hm : v.mediaOn = true)
    (hf : (v.fpos.filter fun e => e.2.pendingU.any fun w => decide (qOfU w ≤ v.nowQ)) = [(n, x)]) (hu : x.pendingU = some u) :
    v.realign = ((v.modFpo n fun y => { y with pendingU := none, gridP := some ((v.tc (v.fpo n).cfg.tc).phaseAt v.clk.now), nextK := 0 }).pulse n).raise
      evFpRealign (2 ^ n) := by
  rw [realign_eq, hm, realignEntries_of_filter hf hu]
  exact realignAll_singleton u n v

theorem framePulse_of_suppressed {n : Nat} {v : Dev} (hm : v.mediaOn = true) (h : (v.fpo n).suppressed v.clk.now v.nowU = true) :
    v.framePulse n = v.setFpo n { v.fpo n with nextK := (v.fpo n).nextK + 1 } := by
  simp only [Dev.framePulse, hm, h, Bool.not_true, Bool.false_eq_true, if_false, if_true]

theorem framePulse_of_not_suppressed {n : Nat} {v : Dev} (hm : v.mediaOn = true) (h : (v.fpo n).suppressed v.clk.now v.nowU = false) :
    v.framePulse n = v.pulse n := by
  simp only [Dev.framePulse, hm, h, Bool.not_true, Bool.false_eq_true, if_false]

theorem exec_framePulse_of_none {s : State} (t : Nat) {n : Fin 32}
    (h : (s.dev.fpo n).pulseT (s.dev.tc (s.dev.fpo n).cfg.tc) (s.dev.fpo n).nextK = none) : exec (.framePulse t n) s = .next (s.arrive t) := by
  show execFramePulse t n s = _
  simp only [execFramePulse, h]

theorem exec_framePulse_of_some {s : State} (t : Nat) {n : Fin 32} {q : Nat}
    (h : (s.dev.fpo n).pulseT (s.dev.tc (s.dev.fpo n).cfg.tc) (s.dev.fpo n).nextK = some q) :
    exec (.framePulse t n) s = .next (s.due q t (State.onDev (Dev.framePulse n))) := by
  show execFramePulse t n s = _
  simp only [execFramePulse, h]

/-! ### The PTP time receiver (R313, R360, R362) -/

theorem mediaOn_setPtp (id rank : Nat) (v : Dev) : (v.setPtp id rank).mediaOn = v.mediaOn := by
  simp only [Dev.mediaOn, Dev.setPtp, Dev.raiseIf_pow, Dev.raiseIf_fw]

theorem actsAt_ptpSyncTimeout {s : State} (t : Nat) (hm : s.dev.mediaOn = true) (ha : s.dev.alive = true) (hb : s.dev.pow.phase ≠ .booting) :
    ActsAt s t (.ptpSyncTimeout t) (s.dev.clk.syncT + 4 * s.dev.clk.syncGap) (fun v => let w := (v.setPtp 0 0).loseActivity 32
      if w.clk.cfg.source = 1 then w.timeHoldover else w) := by
  refine actsAt_of_due rfl ?_
  simp only [alive_arrive, Dev.arrive_pow, mediaOn_setPtp, mediaOn_arrive, ha, hm, beq_eq_false_iff_ne.mpr hb, Bool.not_true, Bool.or_self,
    Bool.false_eq_true, if_false, if_true]

/-- What it takes for PTP messages to be exchanged: the device is alive and booted, and CORE.C runs (R39). -/
def PtpRuns (v : Dev) : Prop := (!v.alive || v.pow.phase == .booting || !v.coreUp .c) = false

theorem ptpRuns_of {v : Dev} (ha : v.alive = true) (hb : v.pow.phase ≠ .booting) (hc : v.coreUp .c = true) : PtpRuns v := by
  rw [PtpRuns, ha, hc, beq_eq_false_iff_ne.mpr hb]
  rfl

theorem PtpRuns.arrive {v : Dev} (h : PtpRuns v) (t : Nat) :
    ¬ (!(v.arrive t).alive || (v.arrive t).pow.phase == .booting || !(v.arrive t).coreUp .c) = true := by
  rw [alive_arrive, Dev.arrive_pow, coreUp_arrive, h]
  exact Bool.false_ne_true

section Messages
variable {s : State} (t : Nat) (hr : PtpRuns s.dev)
include hr

theorem exec_announce_foreign {dom : Nat} (rank id : Nat) (utc : Int) (h : dom ≠ s.dev.clk.cfg.ptpDomain) :
    exec (.ptpMessage t (.announce dom rank id utc)) s = .next (s.arrive t) := by
  refine congrArg Host.Outcome.next (arrive_onDev_same ((if_neg (hr.arrive t)).trans (if_pos ?_)))
  rw [clk_cfg_arrive, bne_iff_ne.mpr h, Bool.true_or]

/-- A Sync or Follow_Up of another domain is none of the time transmitter that is followed. -/
theorem exec_sync_foreign {dom : Nat} (id : Nat) (two : Bool) (gap : Nat) (x : Int) (h : dom ≠ s.dev.clk.cfg.ptpDomain) :
    exec (.ptpMessage t (.sync dom id two gap x)) s = .next (s.arrive t) := by
  refine congrArg Host.Outcome.next (arrive_onDev_same ((if_neg (hr.arrive t)).trans (if_pos ?_)))
  simp only [clk_cfg_arrive, beq_eq_false_iff_ne.mpr h, Bool.false_and, Bool.not_false]

theorem exec_followUp_foreign {dom : Nat} (id : Nat) (x : Int) (h : dom ≠ s.dev.clk.cfg.ptpDomain) :
    exec (.ptpMessage t (.followUp dom id x)) s = .next (s.arrive t) := by
  refine congrArg Host.Outcome.next (arrive_onDev_same ((if_neg (hr.arrive t)).trans (if_neg ?_)))
  simp only [clk_cfg_arrive, beq_eq_false_iff_ne.mpr h, Bool.false_and, Bool.false_eq_true, not_false_eq_true]

/-- A better time transmitter, or the one followed, is followed with its UTC offset. -/
theorem exec_announce_followed {rank id : Nat} (utc : Int) (hid : id ≠ 0)
    (h : s.dev.clk.ptpReceiver = false ∨ id = s.dev.clk.txClockId ∨ rank < s.dev.clk.ptpBest) :
    exec (.ptpMessage t (.announce s.dev.clk.cfg.ptpDomain rank id utc)) s = .next (s.happens t fun v =>
      { v.setPtp id rank with clk := { (v.setPtp id rank).clk with utcPtp := utc } }) := by
  refine congrArg Host.Outcome.next (arrive_onDev_congr ((if_neg (hr.arrive t)).trans ((if_neg ?_).trans (if_pos ?_))))
  · rw [clk_cfg_arrive, bne_self_eq_false, decide_eq_false hid]
    exact Bool.false_ne_true
  · rw [ptpReceiver_arrive, txClockId_arrive, ptpBest_arrive, Bool.or_eq_true, Bool.or_eq_true, Bool.not_eq_true', decide_eq_true_eq,
      decide_eq_true_eq, or_assoc]
    exact h

theorem exec_pdelayReq_answered (h : s.dev.clk.cfg.ptpDelay = 1) :
    exec (.ptpMessage t (.pdelayReq s.dev.clk.cfg.ptpDomain)) s = .next (s.happens t fun v => v.emit (.ptp 2)) := by
  refine congrArg Host.Outcome.next (arrive_onDev_congr ((if_neg (hr.arrive t)).trans (if_pos ?_)))
  rw [clk_cfg_arrive, beq_self_eq_true, h]
  rfl

theorem exec_sync_measured (gap : Nat) (x : Int) (h : s.dev.clk.ptpReceiver = true) :
    exec (.ptpMessage t (.sync s.dev.clk.cfg.ptpDomain s.dev.clk.txClockId false gap x)) s = .next (s.happens t fun v =>
      (Dev.ptpOffset x { v with clk := { v.clk with syncT := v.clk.now, syncGap := gap } }).emit
        (.ptp (if s.dev.clk.cfg.ptpDelay = 1 then 1 else 0))) := by
  refine congrArg Host.Outcome.next (arrive_onDev_congr ((if_neg (hr.arrive t)).trans (if_neg ?_)))
  simp only [clk_cfg_arrive, ptpReceiver_arrive, txClockId_arrive, beq_self_eq_true, h, Bool.and_self, Bool.not_true, Bool.false_eq_true,
    not_false_eq_true]

end Messages

/-- Settles O50, happening by happening: each acts as of the instant that the model computes for it. -/
theorem deviceTimeRuns : Obligations.DeviceTimeRuns := by
  intro s t hm
  refine ⟨⟨nextEpochQ_mod _, epoch_lt_nextEpochQ _, exec_epochBoundary_of_no_step, fun b x => exec_epochBoundary_of_step⟩,
    fun v => epochStarts_of_mediaOn, actsAt_replicaRecalibration t hm, fun v => ⟨rfl, rfl, rfl⟩,
    exec_realignment_of_none t, fun q => actsAt_realignment t, fun v n x u => realign_of_one_due,
    fun n => ⟨exec_framePulse_of_none t, ?pulse⟩, fun ha hb => ⟨actsAt_ptpSyncTimeout t hm ha hb, ?messages⟩⟩
  case pulse =>
    intro q hq
    rw [exec_framePulse_of_some t hq]
    refine ⟨fun ht => by rw [due_of_lt ht], fun ht hs => ?_, fun ht hs => ?_⟩
    · rw [due_of_le ht, arrive_onDev_congr (framePulse_of_not_suppressed hm hs)]
    · rw [due_of_le ht]
      exact congrArg Host.Outcome.next (arrive_onDev_congr (framePulse_of_suppressed hm hs))
  case messages =>
    intro hc
    have hr : PtpRuns s.dev := ptpRuns_of ha hb hc
    exact ⟨fun dom rank id utc two gap x h => ⟨exec_announce_foreign t hr rank id utc h, exec_sync_foreign t hr id two gap x h,
        exec_followUp_foreign t hr id x h⟩,
      fun rank id utc => exec_announce_followed t hr utc, exec_pdelayReq_answered t hr, exec_sync_measured t hr⟩

end Sys2Proof.Proofs
end

section
/-! Proofs of the statements about the lanes (file 02). -/
namespace Sys2Proof.Proofs
open Sys2Proof Sys2Proof.Machine

/-! ### Symbols (R52, R53) -/

theorem enc4_lt (rd alt : Bool) {y : Nat} (hy : y < 8) : enc4 rd alt y < 16 := by
  revert y rd alt; decide

theorem enc6_lt (rd : Bool) {x : Nat} (hx : x < 32) : enc6 rd x < 64 := by
  revert x rd; decide

/-- No data code begins as a K symbol of the same disparity does. -/
theorem enc6_ne_k (rd : Bool) {x : Nat} (hx : x < 32) : enc6 rd x ≠ k285 rd / 16 ∧ enc6 rd x ≠ k281 rd / 16 := by
  revert x rd; decide

/-- The six-bit code is found again at its own disparity. -/
theorem find_enc6 (rd : Bool) {x : Nat} (hx : x < 32) : (List.range 32).find? (fun z => enc6 rd z == enc6 rd x) = some x := by
  revert x rd; decide +kernel

/-- The four-bit code is found again where the same low five bits choose the alternate code. -/
theorem find_enc4 (rd alt : Bool) {y : Nat} (hy : y < 8) :
    (List.range 8).find? (fun z => enc4 rd (z == 7 && alt) z == enc4 rd (y == 7 && alt) y) = some y := by
  revert y rd alt; decide

/-- The four-bit code of a byte's data symbol, at the disparity that its six-bit code leaves. -/
def fourBits (rd : Bool) (b : Byte) : Nat :=
  let r6 := rdNext 6 rd (enc6 rd (b.toNat % 32))
  enc4 r6 (b.toNat / 32 == 7 && useAlt r6 (b.toNat % 32)) (b.toNat / 32)

theorem encData_eq (rd : Bool) (b : Byte) : encData rd b = enc6 rd (b.toNat % 32) * 16 + fourBits rd b := rfl

theorem fourBits_lt (rd : Bool) (b : Byte) : fourBits rd b < 16 :=
  enc4_lt _ _ (Nat.div_lt_of_lt_mul b.isLt)

theorem encData_div (rd : Bool) (b : Byte) : encData rd b / 16 = enc6 rd (b.toNat % 32) := by
  have := fourBits_lt rd b
  rw [encData_eq]
  omega

theorem encData_mod (rd : Bool) (b : Byte) : encData rd b % 16 = fourBits rd b := by
  have := fourBits_lt rd b
  rw [encData_eq]
  omega

theorem encData_lt (rd : Bool) (b : Byte) : encData rd b < 1024 := by
  have h := enc6_lt rd (Nat.mod_lt b.toNat (by decide : 0 < 32))
  rw [← encData_div rd b] at h
  omega

/-- A data symbol decodes to its byte at the disparity at which it was coded (R53). -/
theorem decSym_encData (rd : Bool) (b : Byte) : decSym rd (encData rd b) = .data b := by
  have hx : b.toNat % 32 < 32 := Nat.mod_lt _ (by decide)
  have hy : b.toNat / 32 < 8 := by omega
  obtain ⟨h5, h1⟩ := enc6_ne_k rd hx
  rw [← encData_div rd b] at h5 h1
  have n5 : encData rd b ≠ k285 rd := fun h => h5 (by rw [h])
  have n1 : encData rd b ≠ k281 rd := fun h => h1 (by rw [h])
  simp only [decSym, if_neg n5, if_neg n1, encData_div, encData_mod, fourBits, find_enc6 rd hx, find_enc4 _ _ hy]
  rw [Nat.div_add_mod' , BitVec.ofNat_toNat, BitVec.setWidth_eq]

theorem decSym_k285 (rd : Bool) : decSym rd (k285 rd) = .k5 := if_pos rfl

theorem decSym_k281 (rd : Bool) : decSym rd (k281 rd) = .k1 := by
  have h : k281 rd ≠ k285 rd := by cases rd <;> decide
  rw [decSym, if_neg h, if_pos rfl]

/-- Bytes coded in order decode in order, at whatever disparity they begin (R52). -/
theorem decSyms_encSyms (rd : Bool) (bs : List Byte) : (decSyms rd (encSyms rd bs)).1 = bs.map .data := by
  induction bs generalizing rd with
  | nil => rfl
  | cons b r ih => simp only [encSyms, decSyms, decSym_encData, ih, List.map_cons]

theorem lt_of_mem_encSyms {rd : Bool} {bs : List Byte} {x : Nat} (h : x ∈ encSyms rd bs) : x < 1024 := by
  induction bs generalizing rd with
  | nil => exact absurd h List.not_mem_nil
  | cons b r ih =>
    obtain rfl | h := List.mem_cons.mp h
    · exact encData_lt rd b
    · exact ih h

/-! ### Bytes and the CRC-16 (R5, R57) -/

theorem length_toBE (n v : Nat) : (toBE n v).length = n := by
  induction n generalizing v with
  | zero => rfl
  | succ n ih => rw [toBE, List.length_append, ih, List.length_singleton]

theorem beNat_toBE (n v : Nat) : beNat (toBE n v) = v % 256 ^ n := by
  induction n generalizing v with
  | zero => rw [Nat.pow_zero, Nat.mod_one]; rfl
  | succ n ih =>
    have h : beNat (toBE (n + 1) v) = beNat (toBE n (v / 256)) * 256 + v % 256 := by
      simp only [beNat, toBE, List.foldl_append, List.foldl_cons, List.foldl_nil, BitVec.toNat_ofNat]
    rw [h, ih, Nat.pow_succ', Nat.mod_mul]
    omega

theorem crc16Bit_lt (c : Nat) : crc16Bit c < 65536 := by
  unfold crc16Bit
  split <;> exact Nat.mod_lt _ (by decide)

theorem crc16Byte_lt (c : Nat) (b : Byte) : crc16Byte c b < 65536 := by
  unfold crc16Byte
  exact crc16Bit_lt _

theorem crc16_lt (bs : List Byte) : crc16 bs < 65536 :=
  List.foldlRecOn (motive := fun c => c < 65536) bs crc16Byte (by decide) fun c _ b _ => crc16Byte_lt c b

/-! ### The block (R55 to R58, R67) -/

/-- The 61 bytes of a block that its CRC covers (R56, R57). -/
def blockBytes (kind seq : Nat) (payload : List Byte) : List Byte := BitVec.ofNat 8 (kind * 16 + seq % 16) :: payload

/-- The bytes of a block from symbol 1 on, its CRC with them (R57). -/
def blockBody (kind seq : Nat) (payload : List Byte) : List Byte :=
  blockBytes kind seq payload ++ toBE 2 (crc16 (blockBytes kind seq payload))

/-- The K symbol of a block type at a running disparity (R55). -/
def kSym (rd : Bool) (kind : Nat) : Nat := if kind = 0 then k285 rd else k281 rd

theorem kSym_lt (rd : Bool) (kind : Nat) : kSym rd kind < 1024 := by
  unfold kSym
  cases rd <;> split <;> decide

theorem decSym_kSym (rd : Bool) (kind : Nat) : decSym rd (kSym rd kind) = if kind = 0 then .k5 else .k1 := by
  unfold kSym
  split
  · exact decSym_k285 rd
  · exact decSym_k281 rd

/-- The numbers of the symbols that a transmitter sends: the K symbol, then the bytes and their CRC coded in order. -/
theorem toNat_encodeBlock (rd : Bool) (kind seq : Nat) (payload : List Byte) : (encodeBlock rd kind seq payload).map BitVec.toNat =
    kSym rd kind :: encSyms (rdNext 10 rd (kSym rd kind)) (blockBody kind seq payload) := by
  show List.map BitVec.toNat (List.map (BitVec.ofNat 10) (kSym rd kind :: encSyms _ (blockBody kind seq payload))) = _
  rw [List.map_map]
  refine (List.map_congr_left fun x hx => ?_).trans (List.map_id _)
  have hlt : x < 1024 := by
    obtain rfl | hx := List.mem_cons.mp hx
    · exact kSym_lt rd kind
    · exact lt_of_mem_encSyms hx
  rw [Function.comp_apply, BitVec.toNat_ofNat, Nat.mod_eq_of_lt hlt, id]

/-- The symbols of a block decode to its K symbol and its bytes (R53). -/
theorem decSyms_encodeBlock (rd : Bool) (kind seq : Nat) (payload : List Byte) :
    (decSyms rd ((encodeBlock rd kind seq payload).map BitVec.toNat)).1 =
      (if kind = 0 then .k5 else .k1) :: (blockBody kind seq payload).map .data := by
  rw [toNat_encodeBlock, decSyms, decSym_kSym, decSyms_encSyms]

/-- An inverted lane inverts the symbols of an inverted wire back (R67). -/
theorem toNat_inverted (s : Sym) : 1023 - (1023 - s).toNat = s.toNat := by
  have := s.isLt
  bv_omega

/-- A block is as its transmitter made it: a valid header of that type and sequence number, that payload, a good CRC, no code error. -/
def Intact (kind seq : Nat) (payload : List Byte) (b : Block) : Prop :=
  b.header = true ∧ b.kind = kind ∧ b.seq = seq ∧ b.payload = payload ∧ b.good = true ∧ b.errors = 0

theorem beNat_crc (bs : List Byte) : beNat (toBE 2 (crc16 bs)) = crc16 bs :=
  (beNat_toBE 2 _).trans (Nat.mod_eq_of_lt (crc16_lt bs))

/-- The type and sequence number of a block stand in the two halves of its first byte (R56). -/
theorem blockHeader_toNat {kind seq : Nat} (hk : kind ≤ 4) (hs : seq < 16) : (BitVec.ofNat 8 (kind * 16 + seq % 16)).toNat = kind * 16 + seq := by
  rw [BitVec.toNat_ofNat]
  omega

/-- No data symbol is a code error. -/
theorem filter_bad_data (bs : List Byte) : (bs.map Symbol.data).filter Symbol.bad = [] :=
  List.filter_eq_nil_iff.mpr fun x hx => by
    obtain ⟨b, -, rfl⟩ := List.mem_map.mp hx
    exact Bool.false_ne_true

theorem map_byte_data (bs : List Byte) : (bs.map Symbol.data).map Symbol.byte = bs :=
  List.map_map.trans (List.map_id _)

/-- Whether a first symbol makes a valid header of a block type (R55, R56). -/
def headerOk : Symbol → Nat → Bool
  | .k5, k => k == 0
  | .k1, k => decide (1 ≤ k) && decide (k ≤ 4)
  | _, _ => false

/-- What a receiver reads from a block whose symbols 1 to 63 are the bytes `t` and `bs` (R56, R57, R58). -/
theorem decodeBlock_of_data {inverted rd : Bool} {syms : List Sym} {k : Symbol} {t : Byte} {bs : List Byte}
    (h : (decSyms rd (syms.map fun s => if inverted then 1023 - s.toNat else s.toNat)).1 = k :: (t :: bs).map .data) :
    let b := decodeBlock inverted rd syms
    b.header = headerOk k (t.toNat / 16) ∧ b.kind = t.toNat / 16 ∧ b.seq = t.toNat % 16 ∧ b.payload = bs.take 60 ∧
    b.good = (headerOk k (t.toNat / 16) && (bs.length + 1 == 63) && (crc16 (t :: bs.take 60) == beNat (bs.drop 60))) ∧
    b.errors = if k == .err then 1 else 0 := by
  have hb := filter_bad_data (t :: bs)
  have hm := map_byte_data (t :: bs)
  simp only [decodeBlock, h, List.drop_succ_cons, List.drop_zero, hm, hb]
  refine ⟨?_, rfl, rfl, trivial, ?_, Nat.zero_add _⟩
  · cases k <;> rfl
  · cases k <;> simp [headerOk, Symbol.bad]

theorem headerOk_kind {kind : Nat} (hk : kind ≤ 4) : headerOk (if kind = 0 then .k5 else .k1) kind = true := by
  split
  · next h => rw [h]; rfl
  · rw [headerOk, Bool.and_eq_true, decide_eq_true_eq, decide_eq_true_eq]
    omega

/-- A block of which every symbol reads as it was coded is intact (R56, R57, R58). -/
theorem decodeBlock_intact {inverted rd : Bool} {syms : List Sym} {kind seq : Nat} {payload : List Byte}
    (hk : kind ≤ 4) (hs : seq < 16) (hp : payload.length = 60)
    (h : (decSyms rd (syms.map fun s => if inverted then 1023 - s.toNat else s.toNat)).1 =
      (if kind = 0 then .k5 else .k1) :: (blockBody kind seq payload).map .data) :
    Intact kind seq payload (decodeBlock inverted rd syms) := by
  obtain ⟨hheader, hkind, hseq, hpayload, hgood, herrors⟩ :=
    decodeBlock_of_data (bs := payload ++ toBE 2 (crc16 (blockBytes kind seq payload))) h
  have ht := blockHeader_toNat hk hs
  have hdiv : (kind * 16 + seq) / 16 = kind := by omega
  have hcrc := beNat_crc (blockBytes kind seq payload)
  have hlen := length_toBE 2 (crc16 (blockBytes kind seq payload))
  rw [ht, hdiv, headerOk_kind hk] at hheader hgood
  rw [ht, hdiv] at hkind
  rw [List.take_left' hp] at hpayload hgood
  rw [List.drop_left' hp, List.length_append, hlen, hp, hcrc] at hgood
  refine ⟨hheader, hkind, hseq.trans (by rw [ht]; omega), hpayload, hgood.trans ?_, herrors.trans ?_⟩
  · exact beq_self_eq_true _
  · exact if_neg (by split <;> decide)

/-- Settles O35: the symbols of a coded block decode to its K symbol and bytes, on the wire as it is and on an inverted one. -/
theorem blockCodeRoundTrips : Obligations.BlockCodeRoundTrips := by
  intro rd kind seq payload hk hs hp
  refine ⟨decodeBlock_intact hk hs hp ?_, decodeBlock_intact hk hs hp ?_⟩
  · simp only [Bool.false_eq_true, if_false]
    exact decSyms_encodeBlock rd kind seq payload
  · simp only [List.map_map, if_true]
    exact (congrArg (fun l => (decSyms rd l).1) (List.map_congr_left fun s _ => toNat_inverted s)).trans (decSyms_encodeBlock rd kind seq payload)

end Sys2Proof.Proofs
end
section
/-! Proofs of the statements about the receivers of the lanes (file 02). -/
namespace Sys2Proof.Proofs
open Sys2Proof Sys2Proof.Machine

/-! ### Valid and invalid headers (R65) -/

/-- A valid header in VERIFY is counted. -/
theorem advance_verify_of_lt {l : LaneSt} (h : l.rx = .verify) (hc : l.verifyCount + 1 < 32) :
    (l.advance true).rx = .verify ∧ (l.advance true).verifyCount = l.verifyCount + 1 ∧ (l.advance true).lockLosses = l.lockLosses := by
  simp only [LaneSt.advance, h, if_true, Bool.not_true, Bool.false_eq_true, if_false, ge_iff_le, if_neg (Nat.not_le.mpr hc), and_self]

/-- The 32nd valid header in a row locks the lane. -/
theorem advance_verify_of_le {l : LaneSt} (h : l.rx = .verify) (hc : 32 ≤ l.verifyCount + 1) :
    (l.advance true).rx = .locked ∧ (l.advance true).lockLosses = l.lockLosses := by
  simp only [LaneSt.advance, h, if_true, Bool.not_true, Bool.false_eq_true, if_false, ge_iff_le, if_pos hc, and_self]

theorem advance_verify_invalid {l : LaneSt} (h : l.rx = .verify) : (l.advance false).rx = .hunt := by
  simp only [LaneSt.advance, h, Bool.false_eq_true, if_false, Bool.not_false, if_true, LaneSt.rxHunt]

/-- Fewer than 32 valid headers in a row leave the lane in VERIFY, each of them counted. -/
theorem foldl_advance_verify (n : Nat) {l : LaneSt} (h : l.rx = .verify) (hc : l.verifyCount + n < 32) :
    let u := (List.replicate n true).foldl LaneSt.advance l
    u.rx = .verify ∧ u.verifyCount = l.verifyCount + n ∧ u.lockLosses = l.lockLosses := by
  induction n generalizing l with
  | zero => exact ⟨h, rfl, rfl⟩
  | succ n ih =>
    obtain ⟨hrx, hcount, hlost⟩ := advance_verify_of_lt h (by omega)
    obtain ⟨urx, ucount, ulost⟩ := ih hrx (by omega)
    exact ⟨urx, by rw [List.replicate_succ, List.foldl_cons, ucount, hcount]; omega, ulost.trans hlost⟩

/-- A LOCKED lane whose last 64 positions hold 8 invalid headers falls to HUNT, a lock loss. -/
theorem advance_locked_of_le {l : LaneSt} {ok : Bool} (h : l.rx = .locked) (hb : 8 ≤ (((ok :: l.history).take 64).filter (!·)).length) :
    (l.advance ok).rx = .hunt ∧ (l.advance ok).lockLosses = satInc l.lockLosses := by
  cases ok <;>
    simp only [LaneSt.advance, h, if_true, Bool.false_eq_true, if_false, ge_iff_le, if_pos hb, LaneSt.lose, LaneSt.rxHunt, and_self]

theorem advance_locked_of_lt {l : LaneSt} {ok : Bool} (h : l.rx = .locked) (hb : (((ok :: l.history).take 64).filter (!·)).length < 8) :
    (l.advance ok).rx = .locked := by
  cases ok <;>
    simp only [LaneSt.advance, h, if_true, Bool.false_eq_true, if_false, ge_iff_le, if_neg (Nat.not_le.mpr hb)]

/-- Settles O32: 30 valid headers leave the lane in VERIFY, and the next one locks it. -/
theorem thirtyTwoHeadersLock : Obligations.ThirtyTwoHeadersLock := by
  refine ⟨fun l h h1 => ?_, fun l => advance_verify_invalid, fun l ok => advance_locked_of_le, fun l ok => advance_locked_of_lt⟩
  obtain ⟨hrx, hcount, hlost⟩ := foldl_advance_verify 30 h (by omega)
  obtain ⟨lrx, llost⟩ := advance_verify_of_le hrx (by omega)
  rw [List.replicate_succ' (n := 30), List.foldl_append]
  exact ⟨lrx, llost.trans hlost, fun n hn => (foldl_advance_verify n h (by omega)).1⟩

/-! ### The PRBS checker (R84, R85) -/

/-- A checker at the bit that its recurrence predicts. -/
def prbsGoodBit (x : LaneSt) : LaneSt := x.prbsBit (prbsPredict x.rxPattern x.prbsReg)

/-- A checker that holds as many bits as its polynomial is long, after `n` predicted bits in a row on the lane `l`. -/
structure PrbsRun (l : LaneSt) (n : Nat) (x : LaneSt) : Prop where
  synced : x.prbsSynced = decide (64 ≤ n)
  bits : x.prbsBits = l.prbsBits
  errors : x.prbsErrors = l.prbsErrors
  good : x.prbsGood = n
  full : x.prbsReg.length = (prbsTaps x.rxPattern).1

/-- A predicted bit is one good bit more for a checker that is not in sync. -/
theorem PrbsRun.goodBit {l x : LaneSt} {n : Nat} (h : PrbsRun l n x) (hn : n < 64) : PrbsRun l (n + 1) (prbsGoodBit x) := by
  obtain ⟨hsynced, hbits, herrors, hgood, hfull⟩ := h
  rw [decide_eq_false (Nat.not_le.mpr hn)] at hsynced
  have e : prbsGoodBit x = { x with
      prbsReg := (prbsPredict x.rxPattern x.prbsReg :: x.prbsReg).take (prbsTaps x.rxPattern).1
      prbsGood := n + 1, prbsSynced := decide (64 ≤ n + 1), prbsWindow := [] } := by
    simp only [prbsGoodBit, LaneSt.prbsBit, hfull, Nat.lt_irrefl, if_false, hsynced, Bool.not_false, if_true, beq_self_eq_true, hgood, ge_iff_le]
  rw [e]
  refine ⟨rfl, hbits, herrors, rfl, List.length_take.trans ?_⟩
  rw [List.length_cons, hfull]
  exact Nat.min_eq_left (Nat.le_succ _)

theorem prbsRun_repeat {l : LaneSt} (hs : l.prbsSynced = false) (hg : l.prbsGood = 0) (hr : l.prbsReg.length = (prbsTaps l.rxPattern).1)
    {n : Nat} (hn : n ≤ 64) : PrbsRun l n (Nat.repeat prbsGoodBit n l) := by
  induction n with
  | zero => exact ⟨hs, rfl, rfl, hg, hr⟩
  | succ n ih => exact (ih (by omega)).goodBit hn

/-- The checker of a powered, clocked and enabled lane in a PRBS mode takes its bits. -/
theorem prbsBits_of_running {n : Nat} {v : Dev} (hm : v.mediaOn = true) (hb : v.blockOn (n / 32) = true)
    (hc : (v.block (n / 32)).refclk = true) (he : (v.lane n).rxEnable = true) (hp : (v.lane n).rxPattern ≠ 0) (bits : List Bool) :
    v.prbsBits n bits = bits.foldl (Dev.prbsBit n) v := by
  refine if_pos ?_
  simp only [hm, hb, hc, he, Bool.true_and, bne_iff_ne]
  exact hp

/-- Settles O33: the three happenings run `Dev.prbsBits`, and the run of predicted bits is counted by induction. -/
theorem prbsCheckerTakesItsBits : Obligations.PrbsCheckerTakesItsBits := by
  refine ⟨?happenings, ?synchronises⟩
  case happenings =>
    intro s t lane bits hm hb hc he hp
    have h : (s.arrive t).onDev (Dev.prbsBits lane bits) = s.happens t fun v => bits.foldl (Dev.prbsBit lane) v :=
      arrive_onDev_congr (prbsBits_of_running (v := s.dev.arrive t) hm hb hc he hp bits)
    exact ⟨congrArg Host.Outcome.next h, congrArg Host.Outcome.next h, congrArg Host.Outcome.next h⟩
  case synchronises =>
    intro l hs hg hr good n hn
    have run := prbsRun_repeat hs hg hr hn
    exact ⟨run.synced, run.bits, run.errors⟩

/-! ### Signal, CDR and blocks (R54, R65, R72, R79) -/

@[simp] theorem lane_arrive (t n : Nat) (v : Dev) : (v.arrive t).lane n = v.lane n := rfl
@[simp] theorem rxThere_arrive (t n : Nat) (v : Dev) : (v.arrive t).rxThere n = v.rxThere n := rfl

section Signal
variable {s : State} (t : Nat) {lane : Fin 512}

theorem exec_signalLoss (hr : s.dev.rxThere lane = true) :
    exec (.signalLoss t lane) s = .next (s.happens t fun v => v.rxChange lane (s.dev.lane lane).signalLost) :=
  congrArg Host.Outcome.next (arrive_onDev_congr (if_pos hr))

theorem exec_signalDetect (hr : s.dev.rxThere lane = true) (hi : (s.dev.lane lane).rx = .idle) :
    exec (.signalDetect t lane) s = .next (s.happens t fun v => v.rxChange lane
      { s.dev.lane lane with rx := .relock, relockGood := 0, detectT := max s.dev.clk.now t, disparity := none, rxTail := (0, 0) }) := by
  refine congrArg Host.Outcome.next (arrive_onDev_congr (if_pos ?_))
  rw [rxThere_arrive, lane_arrive, hr, hi]
  rfl

theorem relockOver_iff (l : LaneSt) (limit now : Nat) : l.relockOver limit now = true ↔ l.rx = .relock ∧ l.detectT + limit ≤ now := by
  rw [LaneSt.relockOver, Bool.and_eq_true, beq_iff_eq, decide_eq_true_eq]

theorem exec_relockTimeout (hr : s.dev.rxThere lane = true) (hl : (s.dev.lane lane).rx = .relock)
    (ht : (s.dev.lane lane).detectT + 24 * blockQ (s.dev.block (lane / 32)).rateCode ≤ max s.dev.clk.now t) :
    exec (.relockTimeout t lane) s = .next (s.happens t fun v => v.rxChange lane { (s.dev.lane lane).lose with cdr := true }) := by
  refine congrArg Host.Outcome.next (arrive_onDev_congr (if_pos ?_))
  rw [Bool.and_eq_true]
  exact ⟨hr, (relockOver_iff ..).mpr ⟨hl, ht⟩⟩

theorem exec_relockTimeout_early (h : (s.dev.lane lane).rx ≠ .relock ∨
    max s.dev.clk.now t < (s.dev.lane lane).detectT + 24 * blockQ (s.dev.block (lane / 32)).rateCode) :
    exec (.relockTimeout t lane) s = .next (s.arrive t) := by
  refine congrArg Host.Outcome.next (arrive_onDev_same (if_neg ?_))
  rw [Bool.and_eq_true, relockOver_iff]
  rintro ⟨-, hl, ht⟩
  obtain h | h := h
  · exact h hl
  · exact absurd ht (Nat.not_le.mpr h)

theorem exec_cdrLock (hr : s.dev.rxThere lane = true) (hh : (s.dev.lane lane).rx = .hunt) :
    exec (.cdrLock t lane) s = .next (s.happens t fun v => v.setLane lane { s.dev.lane lane with cdr := true }) := by
  refine congrArg Host.Outcome.next (arrive_onDev_congr (if_pos ?_))
  rw [rxThere_arrive, lane_arrive, hr, hh]
  rfl

end Signal

/-- An announced signal loss idles the lane, which keeps what R65 retains. -/
theorem signalLost_idlePending {l : LaneSt} (h : l.rx = .idlePending) :
    l.signalLost.rx = .idle ∧ l.signalLost.idleEntries = l.idleEntries + 1 ∧ l.signalLost.lockLosses = l.lockLosses ∧
      l.signalLost.laneIndex = l.laneIndex ∧ l.signalLost.polarity = l.polarity := by
  simp only [LaneSt.signalLost, h, and_self]

/-- A signal loss that no IDLE_ENTER announced is a lock loss. -/
theorem signalLost_locked {l : LaneSt} (h : l.rx = .locked ∨ l.rx = .relock) :
    l.signalLost.rx = .hunt ∧ l.signalLost.lockLosses = satInc l.lockLosses := by
  obtain h | h := h <;> simp only [LaneSt.signalLost, h, LaneSt.lose, LaneSt.rxHunt, and_self]

/-- After a block that leaves the lane in HUNT other bits are left to frame, and nothing else of what the block did differs. -/
theorem rxStep_search (r : RxStep) (rest : Nat × Nat) :
    (if r.lane.rx == .hunt then { r with lane := { r.lane with rxTail := rest } } else r) =
      { r with lane := if r.lane.rx = .hunt then { r.lane with rxTail := rest } else r.lane } := by
  by_cases h : r.lane.rx = .hunt
  · rw [if_pos (beq_iff_eq.mpr h), if_pos h]
  · rw [if_neg (mt beq_iff_eq.mp h), if_neg h]

/-- What a block does to the device once its effect on the lane is known. -/
def takeStep (n : Nat) (v : Dev) (r : RxStep) : Dev :=
  let w := (v.updLane n r.lane).afterBlock n r
  match w.cfg.ingressAt n with
  | some (k, _) => w.settle k
  | none => w

/-- Settles O31, happening by happening; what a block does is `Dev.takeBlock` with the search after an invalid header written out. -/
theorem laneReceiverFollowsItsInput : Obligations.LaneReceiverFollowsItsInput := by
  intro s t lane
  refine ⟨fun hr => ⟨exec_signalLoss t hr, exec_signalDetect t hr, ⟨exec_relockTimeout t hr, exec_relockTimeout_early t⟩, exec_cdrLock t hr⟩,
    fun syms hr => congrArg Host.Outcome.next (arrive_onDev_congr (if_pos hr)), ?block, signalLost_idlePending, signalLost_locked⟩
  case block =>
    intro v x len bits first r
    exact congrArg (takeStep lane v) (rxStep_search r (len - 1, bits % 2 ^ (len - 1)))

end Sys2Proof.Proofs
end
section
/-! Proofs of the statements about LANE. commands and the transmitters of the lanes (file 02). -/
namespace Sys2Proof.Proofs
open Sys2Proof Sys2Proof.Machine Sys2Proof.Laws

/-! ### The work of the LANE. commands (R50, R74, R76, R86, R437) -/

@[simp] theorem begun_cfg (r : OpRow) (t : Nat) (d : Datagram) (s : State) : (s.begun r t d).dev.cfg = s.dev.cfg := by
  obtain ⟨l, h⟩ := begun_eq r t d s
  rw [h, Dev.arrive_cfg]

@[simp] theorem begun_pow (r : OpRow) (t : Nat) (d : Datagram) (s : State) : (s.begun r t d).dev.pow = s.dev.pow := by
  obtain ⟨l, h⟩ := begun_eq r t d s
  rw [h, Dev.arrive_pow]

/-- A row that fixes no byte leaves its datagram as it is. -/
theorem apply_of_fix_nil {r : OpRow} (h : r.fix = []) (d : Datagram) : r.apply d = d := by
  rw [OpRow.apply, h, List.foldl_nil]

section Work
variable {d : Datagram} {s : State}

theorem laneConfigEff_free (hb : laneConfigBad d.params = none) (hs : s.dev.cfg.streamOn (fieldU d.params 0 1) = none)
    (ho : s.dev.pow.off.contains (8 + fieldU d.params 0 1) = false) : laneConfigEff d s =
      (s.onDev fun v => (v.stopBlock (fieldU d.params 0 1)).modBlock (fieldU d.params 0 1) fun x => { x with rateCode := fieldU d.params 1 1 }, .ok []) := by
  simp only [laneConfigEff, hb, hs, ho, Bool.false_eq_true, if_false]

theorem laneConfigEff_owned {k i : Nat} (hb : laneConfigBad d.params = none) (hs : s.dev.cfg.streamOn (fieldU d.params 0 1) = some (k, i)) :
    laneConfigEff d s = (s.onDev fun v => v, .fail (ownedBy k i)) := by
  simp only [laneConfigEff, hb, hs, onDev_id]

theorem laneIdleEff_lane {one bond : Nat → Dev → Dev} (hb : laneIdleBad d.params = none) (he : s.dev.cfg.egressAt (fieldU d.params 0 2) = none)
    (ho : s.dev.pow.off.contains (8 + fieldU d.params 0 2 / 32) = false) :
    laneIdleEff one bond d s = (s.onDev (one (fieldU d.params 0 2)), .ok []) := by
  simp only [laneIdleEff, hb, he, ho, Bool.false_eq_true, if_false]

theorem laneIdleEff_bond {one bond : Nat → Dev → Dev} {c : EgressCfg} (hb : laneIdleBad d.params = none)
    (he : s.dev.cfg.egressAt (fieldU d.params 0 2) = some (fieldU d.params 0 2, c)) :
    laneIdleEff one bond d s = (s.onDev (bond (fieldU d.params 0 2)), .ok []) := by
  simp only [laneIdleEff, hb, he, if_true]

section Prbs
variable (hb : lanePrbsBad d.params = none) (ho : s.dev.pow.off.contains (8 + fieldU d.params 0 2 / 32) = false)
include hb ho

theorem lanePrbsEff_tx (hd : fieldU d.params 2 1 = 0) (he : s.dev.cfg.egressAt (fieldU d.params 0 2) = none) :
    lanePrbsEff d s = (s.onDev (Dev.prbsTx (fieldU d.params 0 2) (fieldU d.params 3 1)), .ok []) := by
  simp only [lanePrbsEff, hb, ho, hd, he, Bool.false_eq_true, if_false, if_true]

theorem lanePrbsEff_tx_owned {e : Nat} {c : EgressCfg} (hd : fieldU d.params 2 1 = 0)
    (he : s.dev.cfg.egressAt (fieldU d.params 0 2) = some (e, c)) : lanePrbsEff d s = (s.onDev fun v => v, .fail (ownedBy 3 e)) := by
  simp only [lanePrbsEff, hb, ho, hd, he, Bool.false_eq_true, if_false, if_true, onDev_id]

theorem lanePrbsEff_rx (hd : fieldU d.params 2 1 ≠ 0) (hi : s.dev.cfg.ingressAt (fieldU d.params 0 2) = none) :
    lanePrbsEff d s = (s.onDev (Dev.prbsRx (fieldU d.params 0 2) (fieldU d.params 3 1) (fieldU d.params 4 4)), .ok []) := by
  simp only [lanePrbsEff, hb, ho, hd, hi, Bool.false_eq_true, if_false]

theorem lanePrbsEff_rx_owned {i : Nat} {c : IngressCfg} (hd : fieldU d.params 2 1 ≠ 0)
    (hi : s.dev.cfg.ingressAt (fieldU d.params 0 2) = some (i, c)) : lanePrbsEff d s = (s.onDev fun v => v, .fail (ownedBy 2 i)) := by
  simp only [lanePrbsEff, hb, ho, hd, hi, Bool.false_eq_true, if_false, onDev_id]

end Prbs
end Work

/-- What an admitted command comes to, when its work changes the device by `f` and answers `a`. -/
theorem next_served {r : OpRow} {i : Instr} {t : Nat} {d : Datagram} {eff : Effect} {s : State} {f : Dev → Dev} {a : Answer}
    (e : exec i s = .next (serve r i t d eff s)) (ha : s.Admits r d) (h : eff (r.apply d) (s.begun r t d) = ((s.begun r t d).onDev f, a)) :
    exec i s = .next (s.served r t d f fun _ => a) :=
  e.trans (congrArg Host.Outcome.next (serve_served f (fun _ => a) ha h))

/-- A LANE.IDLE command of a row acts on a lane alone by `one`, and on the bond whose lowest lane it names by `bond`. -/
theorem exec_laneIdle {s : State} {t : Nat} {d : Datagram} {r : OpRow} {i : Instr} {one bond : Nat → Dev → Dev}
    (e : exec i s = .next (serve r i t d (laneIdleEff one bond) s)) (ha : s.Admits r d) (hb : laneIdleBad (r.apply d).params = none) :
    let n := fieldU (r.apply d).params 0 2
    (s.dev.cfg.egressAt n = none → s.dev.pow.off.contains (8 + n / 32) = false → exec i s = .next (s.served r t d (one n) fun _ => .ok [])) ∧
      ∀ c, s.dev.cfg.egressAt n = some (n, c) → exec i s = .next (s.served r t d (bond n) fun _ => .ok []) :=
  ⟨fun he ho => next_served e ha (laneIdleEff_lane hb (by rw [begun_cfg]; exact he) (by rw [begun_pow]; exact ho)),
    fun _ he => next_served e ha (laneIdleEff_bond hb (by rw [begun_cfg]; exact he))⟩

/-- Settles O30: each command serves its row, and its work is that of the owner it finds. -/
theorem laneCommandsRun : Obligations.LaneCommandsRun := by
  intro s t d
  refine ⟨fun ha hb => ⟨?configFree, ?configOwned⟩, ⟨fun ha hb => ?idleEnter, fun ha hb => ?idleExit⟩, fun ha hb ho => ?prbs⟩
  case configFree => exact fun hs ho => next_served rfl ha (laneConfigEff_free hb (by rw [begun_cfg]; exact hs) (by rw [begun_pow]; exact ho))
  case configOwned => exact fun k i hs => next_served rfl ha (laneConfigEff_owned hb (by rw [begun_cfg]; exact hs))
  case idleEnter => exact exec_laneIdle (one := fun l => Dev.duskEnter l 1) (bond := Dev.bondEnter) rfl ha hb
  case idleExit => exact exec_laneIdle (one := Dev.duskExit) (bond := Dev.bondExit) rfl ha hb
  case prbs =>
    have hoff : (s.begun lanePrbsRow t d).dev.pow.off.contains (8 + fieldU d.params 0 2 / 32) = false := by rw [begun_pow]; exact ho
    have hcfg := begun_cfg lanePrbsRow t d s
    exact ⟨fun hd he => next_served rfl ha (lanePrbsEff_tx hb hoff hd (by rw [hcfg]; exact he)),
      fun hd hi => next_served rfl ha (lanePrbsEff_rx hb hoff hd (by rw [hcfg]; exact hi)),
      fun e c hd he => next_served rfl ha (lanePrbsEff_tx_owned hb hoff hd (by rw [hcfg]; exact he)),
      fun i c hd hi => next_served rfl ha (lanePrbsEff_rx_owned hb hoff hd (by rw [hcfg]; exact hi))⟩

/-! ### Clocks of a block (R60, R73, R548) -/

section Transmitters
variable {s : State} (t : Nat)

/-- The guard under which a happening on a lane reference clock does no more than record the clock. -/
theorem not_mediaOff_or_blockOff {v : Dev} {b : Nat} (hm : v.mediaOn = true) (hb : v.blockOn b = true) : ¬ (!v.mediaOn || !v.blockOn b) = true := by
  rw [hm, hb]
  exact Bool.false_ne_true

theorem exec_txPllLock {b : Fin 16} (hm : s.dev.mediaOn = true) (hb : s.dev.blockOn b = true) (hc : (s.dev.block b).refclk = true) :
    exec (.txPllLock t b) s = .next (s.happens t fun v =>
      (List.range 32).foldl (fun v i => v.pllStart (32 * b + i)) (v.modBlock b fun x => { x with pll := true })) := by
  refine congrArg Host.Outcome.next (arrive_onDev_congr (if_pos ?_))
  rw [Bool.and_eq_true, Bool.and_eq_true]
  exact ⟨⟨hb, hc⟩, hm⟩

theorem exec_skRefclkLoss {b : Fin 16} (hm : s.dev.mediaOn = true) (hb : s.dev.blockOn b = true) :
    exec (.skRefclkLoss t b) s = .next (s.happens t fun v => ((List.range 32).foldl (fun v i => v.laneDies (32 * b + i))
      (v.modBlock b fun x => { x with refclk := false })).modBlock b fun x => { x with pll := false }) :=
  congrArg Host.Outcome.next (arrive_onDev_congr (if_neg (not_mediaOff_or_blockOff (v := s.dev.arrive t) hm hb)))

theorem exec_skRefclkReturn {b : Fin 16} (hm : s.dev.mediaOn = true) (hb : s.dev.blockOn b = true) :
    exec (.skRefclkReturn t b) s = .next (s.happens t fun v => (v.modBlock b fun x => { x with refclk := true }).stopBlock b) :=
  congrArg Host.Outcome.next (arrive_onDev_congr (if_neg (not_mediaOff_or_blockOff
    (v := (s.dev.arrive t).modBlock b fun x => { x with refclk := true }) hm hb)))

/-! ### Ends of training, dwell and burst (R73, R75 to R78) -/

variable {n : Fin 512}

theorem exec_trainPeriodEnd (h : (s.dev.arrive t).trained n = true) : exec (.trainPeriodEnd t n) s = .next (s.happens t (Dev.txRun n)) :=
  congrArg Host.Outcome.next (arrive_onDev_congr (if_pos h))

theorem exec_trainPeriodEnd_early (h : (s.dev.arrive t).trained n = false) : exec (.trainPeriodEnd t n) s = .next (s.arrive t) :=
  congrArg Host.Outcome.next (arrive_onDev_same (if_neg (ne_true_of_eq_false h)))

/-- What follows the dwell of a lane: the start of a bond that waited for it, the exit decision that was held, or nothing. -/
def afterDwell (n : Nat) (l : LaneSt) (v : Dev) : Dev :=
  if l.startHeld then (match v.cfg.egressAt n with | some (e, _) => v.bondStart (v.cfg.egressLanes e) | none => v)
  else if l.exitHeld then v.burstNow n else v

theorem exec_duskDwellEnd (h : (s.dev.arrive t).dwelt n = true) : exec (.duskDwellEnd t n) s = .next (s.happens t fun v =>
    afterDwell n (s.dev.lane n) (v.setLane n { s.dev.lane n with dwelling := false })) :=
  congrArg Host.Outcome.next (arrive_onDev_congr (if_pos h))

theorem exec_duskDwellEnd_early (h : (s.dev.arrive t).dwelt n = false) : exec (.duskDwellEnd t n) s = .next (s.arrive t) :=
  congrArg Host.Outcome.next (arrive_onDev_same (if_neg (ne_true_of_eq_false h)))

/-- The end of a dwell acts as `f` where what follows the dwell does so with the configuration of the state. -/
theorem exec_duskDwellEnd_of {f : Dev → Dev} (h : (s.dev.arrive t).dwelt n = true)
    (hf : ∀ v : Dev, v.cfg = s.dev.cfg → afterDwell n (s.dev.lane n) v = f v) :
    exec (.duskDwellEnd t n) s = .next (s.happens t fun v => f (v.setLane n { s.dev.lane n with dwelling := false })) :=
  (exec_duskDwellEnd t h).trans (congrArg Host.Outcome.next (arrive_onDev_congr (hf _ rfl)))

/-- What the end of a lane's burst does beyond the lane: the SR_EXIT of the head that feeds its stream leaves (R271). -/
def afterBurst (n : Nat) (s : State) : State :=
  match s.dev.cfg.egressAt n with
  | some (e, _) => (match (s.dev.cfg.route e).source with
    | .head h => s.sendSrExit (s.dev.cfg.rasterHead h) false
    | _ => s)
  | none => s

theorem exec_dawnBurstEnd (h : (s.dev.arrive t).burstDone n = true) :
    exec (.dawnBurstEnd t n) s = .next (afterBurst n (s.happens t (Dev.txRun n))) :=
  congrArg Host.Outcome.next (if_neg (by rw [State.arrive_dev, h]; exact Bool.false_ne_true))

theorem exec_dawnBurstEnd_early (h : (s.dev.arrive t).burstDone n = false) : exec (.dawnBurstEnd t n) s = .next (s.arrive t) :=
  congrArg Host.Outcome.next (if_pos (by rw [State.arrive_dev, h]; rfl))

end Transmitters

theorem txRun_cfg (n : Nat) (v : Dev) : (v.txRun n).cfg = v.cfg := by
  unfold Dev.txRun
  dsimp only
  split
  · rfl
  · split <;> rfl

/-- A burst on a lane whose stream no head feeds ends with the lane alone. -/
theorem afterBurst_of_no_head {n : Nat} {s : State}
    (h : ∀ e c k, s.dev.cfg.egressAt n = some (e, c) → (s.dev.cfg.route e).source ≠ .head k) : afterBurst n s = s := by
  unfold afterBurst
  split
  · next e c he =>
    split
    · next k hk => exact absurd hk (h e c k he)
    · rfl
  · rfl

theorem afterBurst_of_head {n e k : Nat} {c : EgressCfg} {s : State} (he : s.dev.cfg.egressAt n = some (e, c))
    (hk : (s.dev.cfg.route e).source = .head k) : afterBurst n s = s.sendSrExit (s.dev.cfg.rasterHead k) false := by
  simp only [afterBurst, he, hk]

/-- Settles O34, happening by happening: each acts under its own condition, and else only arrives. -/
theorem laneTransmitterFollowsItsTimers : Obligations.LaneTransmitterFollowsItsTimers := by
  intro s t
  refine ⟨fun b hm hb => ⟨exec_txPllLock t hm hb, exec_skRefclkLoss t hm hb, exec_skRefclkReturn t hm hb⟩, fun n => ?_⟩
  have hcfg : (s.happens t (Dev.txRun n)).dev.cfg = s.dev.cfg := txRun_cfg _ _
  refine ⟨exec_trainPeriodEnd t, exec_trainPeriodEnd_early t, fun h => ⟨?stays, ?exits, ?free, ?starts⟩, exec_duskDwellEnd_early t,
    fun h hn => ?alone, fun e c k h he hk => ?head, exec_dawnBurstEnd_early t⟩
  case stays => exact fun hs hx => exec_duskDwellEnd_of t (f := id) h fun v _ => by rw [afterDwell, hs, hx]; rfl
  case exits => exact fun hs hx => exec_duskDwellEnd_of t h fun v _ => by rw [afterDwell, hs, hx]; rfl
  case free => exact fun hs he => exec_duskDwellEnd_of t (f := id) h fun v hv => by rw [afterDwell, hs, hv, he]; rfl
  case starts => exact fun e c hs he => exec_duskDwellEnd_of t h fun v hv => by rw [afterDwell, hs, hv, he]; rfl
  case alone => rw [exec_dawnBurstEnd t h, afterBurst_of_no_head (by rw [hcfg]; exact hn)]
  case head => rw [exec_dawnBurstEnd t h, afterBurst_of_head (by rw [hcfg]; exact he) (by rw [hcfg]; exact hk), hcfg]

end Sys2Proof.Proofs
end
section
/-! Proofs of the statements about the packets of ingress streams (file 03). -/
namespace Sys2Proof.Proofs
open Sys2Proof Sys2Proof.Machine

@[simp] theorem parses_arrive (t n : Nat) (v : Dev) : (v.arrive t).parses n = v.parses n := rfl

/-! ### Packet rows (R117, R120) -/

/-- An intact packet's bytes have left the delivered bytes, and it is counted. -/
def packetBegun (t n len : Nat) (s : State) : State := s.happens t fun v =>
  (v.modIs n (IngressSt.take (4 + len))).modIs n fun x => { x with rxPackets := x.rxPackets + 1 }

/-- After the work of a packet's type its bytes count towards the bandwidth window, where its type is one of 1 to 4. -/
def packetDone (n len type : Nat) (a : State) : State :=
  (if type ≤ 4 then a.onDev (Dev.modIs n fun x => { x with exBytes := x.exBytes + 4 + len }) else a).onDev (Dev.settle n)

/-- What a packet that lost a byte does to the device. -/
def packetDamaged (n len type : Nat) (v : Dev) : Dev :=
  let v := v.modIs n fun y => y.take (4 + len)
  let v := v.isCount n fun y => { y with damaged := satInc y.damaged }
  let v := if type = 1 then v.modIs n fun y => { y with fresh := false } else v
  (if type ≤ 4 then (v.breakFrame n).modIs n fun y => { y with exBytes := y.exBytes + 4 + len } else v).settle n

section PacketRow
variable {s : State} {t n type : Nat} {p : Packet} {body : State → State}

theorem packetRow_of_intact (hp : s.dev.parses n = true) (hl : p.lost = false) :
    packetRow t n type p body s = packetDone n p.payload.length type (body (packetBegun t n p.payload.length s)) := by
  simp only [packetRow, State.arrive_dev, parses_arrive, hp, hl, Bool.not_true, Bool.false_eq_true, if_false]
  rfl

theorem packetRow_of_lost (hp : s.dev.parses n = true) (hl : p.lost = true) :
    packetRow t n type p body s = s.happens t (packetDamaged n p.payload.length type) := by
  simp only [packetRow, State.arrive_dev, parses_arrive, hp, hl, Bool.not_true, Bool.false_eq_true, if_false, if_true]
  by_cases h : type ≤ 4 <;> simp only [State.happens, State.onDev, packetDamaged, h, if_true, if_false]

theorem packetRow_of_not_parses (hp : s.dev.parses n = false) : packetRow t n type p body s = s.arrive t := by
  refine if_pos ?_
  rw [State.arrive_dev, parses_arrive, hp]
  rfl

end PacketRow

/-- The commands of the packets of a stream, one for each packet type, with that type. -/
def packetRows (t : Nat) (n : Fin 512) (ptype : Nat) (p : Packet) : List (Nat × Instr) :=
  [(1, .format t n p), (2, .frameStart t n p), (3, .videoLine t n p), (4, .frameEnd t n p), (5, .audio t n p), (6, .clockInfo t n p),
    (7, .aux t n p), (8, .srEnter t n p), (9, .srExit t n p), (15, .idle t n p), (ptype + 16, .reservedTypePacket t n ptype p)]

/-- Every packet command is a packet row of its type. -/
theorem exec_of_mem_packetRows (s : State) (t : Nat) (n : Fin 512) (ptype : Nat) (p : Packet) :
    ∀ x ∈ packetRows t n ptype p, ∃ body, exec x.2 s = .next (packetRow t n x.1 p body s) := by
  simp only [packetRows, List.forall_mem_cons, List.not_mem_nil, false_imp_iff, implies_true, and_true]
  exact ⟨⟨_, rfl⟩, ⟨_, rfl⟩, ⟨_, rfl⟩, ⟨_, rfl⟩, ⟨_, rfl⟩, ⟨_, rfl⟩, ⟨_, rfl⟩, ⟨_, rfl⟩, ⟨_, rfl⟩, ⟨_, rfl⟩, ⟨_, rfl⟩⟩

/-- Settles O37: every packet command is a packet row, and a packet row never looks at its work where a byte is lost or nothing is parsed. -/
theorem damagedPacketsAreCounted : Obligations.DamagedPacketsAreCounted := by
  intro s t n p ptype
  refine ⟨fun hp hl x hx => ?lost, fun hp x hx => ?unparsed⟩
  case lost =>
    obtain ⟨body, he⟩ := exec_of_mem_packetRows s t n ptype p x hx
    exact he.trans (congrArg _ (packetRow_of_lost hp hl))
  case unparsed =>
    obtain ⟨body, he⟩ := exec_of_mem_packetRows s t n ptype p x hx
    exact he.trans (congrArg _ (packetRow_of_not_parses hp))

/-! ### The record of a stream (R116, R141) -/

@[simp] theorem rxPackets_take (k : Nat) (x : IngressSt) : (x.take k).rxPackets = x.rxPackets := by
  unfold IngressSt.take
  split <;> rfl

@[simp] theorem frame_sawTs (u : Unwrap) (x : IngressSt) : (x.sawTs u).frame = x.frame := by
  unfold IngressSt.sawTs
  split <;> rfl

@[simp] theorem pixelCount_sawTs (u : Unwrap) (x : IngressSt) : (x.sawTs u).pixelCount = x.pixelCount := by
  unfold IngressSt.sawTs
  split <;> rfl

@[simp] theorem frame_setAnchor (a : Anchor) (t : Nat) (x : IngressSt) : (x.setAnchor a t).frame = x.frame := rfl

theorem rxPackets_packetBegun (t n len : Nat) (s : State) : ((packetBegun t n len s).dev.is n).rxPackets = (s.dev.is n).rxPackets + 1 := by
  rw [packetBegun, State.happens, State.onDev_dev, Dev.modIs_eq, Dev.is_setIs_self, Dev.modIs_eq, Dev.is_setIs_self, rxPackets_take]
  rfl

/-! ### FORMAT and FRAME_START (R101, R102, R130, R137) -/

theorem is_raiseIf (n : Nat) (b : Bool) (src detail : Nat) (v : Dev) : (v.raiseIf b src detail).is n = v.is n := by
  simp only [Dev.is, Dev.raiseIf_ingress]

/-- A FORMAT that is accepted outside MISMATCH is held, fresh for the next FRAME_START. -/
theorem is_holdFormat_of_accepts {v : Dev} {n : Nat} {c : IngressCfg} {d : Desc} (hc : smFind n v.cfg.ingress = some c)
    (hs : (v.is n).state ≠ .mismatch) (ha : accepts c d = true) :
    ((v.holdFormat n d).is n).held = some d ∧ ((v.holdFormat n d).is n).fresh = true ∧ ((v.holdFormat n d).is n).accepted = true := by
  have hm : ((v.is n).state == .mismatch) = false := beq_eq_false_iff_ne.mpr hs
  simp only [Dev.holdFormat, hc, ha, hm, Bool.false_eq_true, if_true, if_false, is_raiseIf, Dev.is_setIs_self, and_self]

theorem periodCheck_of_unchecked {v : Dev} {n : Nat} {c : IngressCfg} (hc : smFind n v.cfg.ingress = some c) (h0 : c.rateTolPpm = 0)
    (startQ flags : Nat) : v.periodCheck n startQ flags = v := by
  unfold Dev.periodCheck
  simp only [hc, h0, decide_true, Bool.true_or, if_true]
  split <;> rfl

/-- A FRAME_START of the held descriptor behind a fresh FORMAT, on a stream in SEARCH with no frame in progress, opens a whole frame. -/
theorem frameStartIn_opens {u : State} {n : Nat} {c : IngressCfg} {d : Desc} {q : List Byte} (hc : smFind n u.dev.cfg.ingress = some c)
    (h0 : c.rateTolPpm = 0) (hq : q.length = 12) (hf : fieldU q 10 1 ≤ 2) (hs : (u.dev.is n).state = .search) (hn : (u.dev.is n).frame = none)
    (hfr : (u.dev.is n).fresh = true) (hh : (u.dev.is n).held = some d) (hd : d.descriptorId = fieldU q 9 1) :
    ∃ f, ((frameStartIn n q u).dev.is n).frame = some f ∧ f.frameNumber = fieldU q 0 4 ∧
          f.meter.desc = d ∧ f.meter.field = fieldU q 10 1 ∧ f.flags = fieldU q 11 1 ∧ f.whole = true ∧ f.discard = false := by
  have hvalid : ¬ (q.length != 12 || decide (fieldU q 10 1 > 2)) = true := by
    rw [Bool.or_eq_true, bne_iff_ne, decide_eq_true_eq]
    omega
  unfold frameStartIn
  rw [if_neg hvalid]
  extract_lets s1 inSr s2 v x startQ ts number held known anchors val present unwrap whole f delays y v1 v2 v3 v4 s3
  have hs1 : s1 = u := if_neg (by rw [hn]; exact Bool.false_ne_true)
  have hsr : inSr = false := by simp only [inSr, hs1, hs]; rfl
  have hs2 : s2 = u := (if_neg (ne_true_of_eq_false hsr)).trans hs1
  clear_value s2
  subst hs2
  have hknown : known = true := by simp only [known, x, v, hh, hd, beq_self_eq_true]
  have hheld : held = d := by simp only [held, x, v, hh, Option.getD_some]
  have hlive : f.inLocked = false := by simp only [f, x, v, hs]; rfl
  have hdrop : f.discard = false := by simp only [f, hknown, Bool.not_true]
  have hwhole : whole = true := by simp only [whole, hknown, x, v, hfr, Bool.and_self]
  have hv2 : v2 = v1 := if_pos hwhole
  have hv3 : v3 = v1 := (periodCheck_of_unchecked (by rw [hv2]; exact hc) h0 ..).trans hv2
  have hframe : (v1.is n).frame = some f := by
    simp only [v1, Dev.is_setIs_self]
    split <;> simp only [frame_setAnchor, y, frame_sawTs]
  have hv4 : (v4.is n).frame = some f := by simp only [v4, Dev.modIs_eq, Dev.is_setIs_self, hv3, hframe]
  rw [hlive, Bool.and_false, Bool.false_and, if_neg Bool.false_ne_true]
  exact ⟨f, hv4, rfl, hheld, rfl, rfl, rfl, hdrop⟩

/-! ### VIDEO_LINE and FRAME_END (R103, R105, R117) -/

theorem captureLine_of_no_surface {s : State} {n : Nat} {f : FrameRx} (hf : (s.dev.is n).frame = some f) (hs : f.surface = none)
    (line : Nat) (vals : List (List Nat)) : s.captureLine n line vals = s := by
  simp only [State.captureLine, hf, hs]

/-- The state with the line of a VIDEO_LINE counted in the frame in progress. -/
def lineCounted (n : Nat) (q : List Byte) (f : FrameRx) (u : State) : State :=
  u.onDev (Dev.modIs n fun y => { y with frame := some { f with meter := (f.meter.add q).1 } })

theorem is_lineCounted (n : Nat) (q : List Byte) (f : FrameRx) (u : State) :
    (lineCounted n q f u).dev.is n = { u.dev.is n with frame := some { f with meter := (f.meter.add q).1 } } := Dev.is_setIs_self ..

theorem videoLineIn_inOrder {u : State} {n : Nat} {q : List Byte} {f : FrameRx} (hf : (u.dev.is n).frame = some f) (hd : f.discard = false)
    (hl : lineValid f.meter.desc f.meter.field q = true) (ho : f.meter.inOrder (fieldU q 0 2) (fieldU q 2 2) = true)
    (hs : (u.dev.is n).state = .search) (hn : f.surface = none) : videoLineIn n q u = lineCounted n q f u := by
  have hcounted : u.onDev (Dev.modIs n fun x => { x with frame := x.frame.map fun g => { g with meter := (f.meter.add q).1 } }) =
      lineCounted n q f u := by
    simp only [lineCounted, State.onDev, Dev.modIs_eq, hf, Option.map_some]
  have hframe : ((lineCounted n q f u).dev.is n).frame = some { f with meter := (f.meter.add q).1 } := by rw [is_lineCounted]
  have hsearch : ((lineCounted n q f u).dev.is n).state = .search := by rw [is_lineCounted]; exact hs
  have hcapture : ∀ line vals, (lineCounted n q f u).captureLine n line vals = lineCounted n q f u := captureLine_of_no_surface hframe hn
  have hlive : (f.inLocked && IsState.search == IsState.locked) = false := Bool.and_false _
  unfold videoLineIn
  simp only [hf, hd, hl, ho, hcounted, hcapture, Bool.not_true, Bool.false_eq_true, if_false]
  split <;> simp only [hsearch, hlive, Bool.false_eq_true, if_false]

theorem frameEndIn_completes {u : State} {n : Nat} {q : List Byte} {f : FrameRx} (hf : (u.dev.is n).frame = some f) (hd : f.discard = false)
    (hq : q.length = 20) (hs : (u.dev.is n).state = .search) (hw : f.whole = true) (hno : fieldU q 0 4 = f.frameNumber)
    (hsent : fieldU q 16 2 = f.meter.lines) (hall : f.meter.lines = f.meter.desc.frameLines) :
    let w := u.onDev (Dev.completeFrame n f (readFrameEnd q))
    frameEndIn n q u = w.onDev (Dev.modIs n fun y => { y with endX := some w.dev.clk.now, lastEndX := some w.dev.clk.now }) := by
  have hlive : (f.inLocked && (u.dev.is n).state == .locked) = false := by rw [hs]; exact Bool.and_false _
  simp only [frameEndIn, hf, hd, hq, hlive, hw, readFrameEnd, hno, hsent, hall, bne_self_eq_false, beq_self_eq_true, Bool.and_self,
    Bool.false_eq_true, if_true, if_false]

/-! ### CLOCK_INFO (R108) -/

/-- The unwrapped pixel count behind a CLOCK_INFO: it goes on from the last one, but where the restart flag is set. -/
def unwrappedCount (x : IngressSt) (q : List Byte) : Nat :=
  match (if bit (fieldU q 11 1) 1 then none else x.pixelCount) with
  | some c => c.1 + (fieldU q 0 6 + 2 ^ 48 - c.1 % 2 ^ 48) % 2 ^ 48
  | none => fieldU q 0 6

/-- CLOCK_INFO leaves the unwrapped count, which is a sample of the references bound to the stream where it is valid, and goes on. -/
theorem clockInfoIn_counts {u : State} {n : Nat} {q : List Byte} (hq : q.length = 12) :
    ∃ (v : Dev) (at_ : Nat), (v.is n).pixelCount = some (unwrappedCount (u.dev.is n) q, at_) ∧
      clockInfoIn n q u = State.forward n 6 q (u.onDev fun _ =>
        if bit (fieldU q 11 1) 0 = true ∧ ((u.dev.is n).state = .locked ∨ (u.dev.is n).state = .selfRefresh)
        then v.lrcSample n at_ (unwrappedCount (u.dev.is n) q) (bit (fieldU q 11 1) 1) else v) := by
  have hlen : ¬ (q.length != 12) = true := by rw [bne_iff_ne]; exact not_not_intro hq
  unfold clockInfoIn
  rw [if_neg hlen]
  simp only [State.onDev, Bool.and_eq_true, Bool.or_eq_true, beq_iff_eq]
  exact ⟨_, _, by rw [Dev.is_setIs_self, pixelCount_sawTs]; rfl, rfl⟩

/-! ### AUX (R109) -/

section Aux
variable {s : State} {t : Nat} {n : Fin 512} {p : Packet} (hp : s.dev.parses n = true) (hl : p.lost = false)
include hp hl

theorem exec_aux_of_le (hlen : p.payload.length ≤ 8192) : exec (.aux t n p) s =
    .next (packetDone n p.payload.length 7 ((packetBegun t n p.payload.length s).forward n 7 p.payload)) :=
  congrArg Host.Outcome.next ((packetRow_of_intact hp hl).trans (congrArg (packetDone n _ 7) (if_neg (Nat.not_lt.mpr hlen))))

theorem exec_aux_of_lt (hlen : 8192 < p.payload.length) : exec (.aux t n p) s =
    .next (packetDone n p.payload.length 7 ((packetBegun t n p.payload.length s).onDev (Dev.malformedPacket n 7))) :=
  congrArg Host.Outcome.next ((packetRow_of_intact hp hl).trans (congrArg (packetDone n _ 7) (if_pos hlen)))

end Aux

/-- Settles O36: an intact packet begins and ends alike in every packet row, and between them does the work of its type. -/
theorem packetsOfAStreamAreTaken : Obligations.PacketsOfAStreamAreTaken := by
  intro s t n p hp hl
  have hrow (type : Nat) (body : State → State) : (.next (packetRow t n type p body s) : Result) =
      .next (packetDone n p.payload.length type (body (packetBegun t n p.payload.length s))) := congrArg _ (packetRow_of_intact hp hl)
  refine ⟨rxPackets_packetBegun .., hrow 1 _, hrow 2 _, hrow 3 _, hrow 4 _, hrow 5 _, hrow 6 _, exec_aux_of_le hp hl, exec_aux_of_lt hp hl,
    hrow 8 _, hrow 9 _, hrow 15 _, fun ptype => hrow _ _, fun u q => ⟨?format, ?frameStart, ?videoLine, ?frameEnd, clockInfoIn_counts⟩⟩
  case format => exact fun c => is_holdFormat_of_accepts
  case frameStart => exact fun c d => frameStartIn_opens
  case videoLine => exact fun f => videoLineIn_inOrder
  case frameEnd => exact fun f hf hd hq hs hw hno hsent hall => ⟨_, rfl, frameEndIn_completes hf hd hq hs hw hno hsent hall⟩

end Sys2Proof.Proofs
end
section
/-! Proofs of the statements about the timers of the streams, the packet hunt and takes (file 03). -/
namespace Sys2Proof.Proofs
open Sys2Proof Sys2Proof.Machine

/-! ### The hunt and the stream timers (R118, R132, R138) -/

section Timers
variable {s : State} (t : Nat) {n : Fin 512}

/-- A happening of a stream's parser acts on a stream whose packets are parsed, and on another it leaves only the arrival. -/
theorem exec_of_parses {i : Instr} {f : Dev → Dev}
    (e : exec i s = .next ((s.arrive t).onDev fun v => if v.parses n then f v else v)) :
    (s.dev.parses n = true → exec i s = .next (s.happens t f)) ∧ (s.dev.parses n = false → exec i s = .next (s.arrive t)) :=
  ⟨fun h => e.trans (congrArg _ (arrive_onDev_congr (if_pos h))), fun h => e.trans (congrArg _ (arrive_onDev_same (if_neg (ne_true_of_eq_false h))))⟩

theorem exec_packetHunt (cause : HuntCause) (run : List Byte) :
    (s.dev.parses n = true → exec (.packetHunt t n cause run) s = .next (s.happens t fun v => (v.hunt n cause run).settle n)) ∧
      (s.dev.parses n = false → exec (.packetHunt t n cause run) s = .next (s.arrive t)) :=
  exec_of_parses t rfl

theorem exec_excessWindow :
    (s.dev.parses n = true → exec (.excessWindow t n) s = .next (s.happens t fun v => (v.excessEnd n).settle n)) ∧
      (s.dev.parses n = false → exec (.excessWindow t n) s = .next (s.arrive t)) :=
  exec_of_parses t rfl

theorem exec_frameStartTimeout (hm : s.dev.mediaOn = true) (hl : (s.arrive t).dev.startLate n = true) :
    exec (.frameStartTimeout t n) s = .next (s.happens t fun v => (v.isLose n .search 0 0).settle n) := by
  refine congrArg Host.Outcome.next (arrive_onDev_congr (if_pos ?_))
  rw [mediaOn_arrive, hm, Bool.true_and]
  exact hl

theorem exec_frameStartTimeout_early (hl : (s.arrive t).dev.startLate n = false) : exec (.frameStartTimeout t n) s = .next (s.arrive t) := by
  refine congrArg Host.Outcome.next (arrive_onDev_same (if_neg ?_))
  rw [State.arrive_dev] at hl
  rw [hl, Bool.and_false]
  exact Bool.false_ne_true

end Timers

/-! ### Takes (R148, R150) -/

section Takes
variable {s : State} (t : Nat) {n : Fin 512}

theorem exec_takeWindow_of_none (h : s.dev.takeT n = none) : exec (.takeWindow t n) s = .next (s.arrive t) := by
  show execTakeWindow t n s = _
  rw [execTakeWindow, h]

theorem actsAt_takeWindow (hm : s.dev.mediaOn = true) {d : Nat} (h : s.dev.takeT n = some d) :
    ActsAt s t (.takeWindow t n) d (Dev.takeNow n) := by
  refine actsAt_of_due (g := fun v => if v.mediaOn then v.takeNow n else v) ?_ (if_pos hm)
  show execTakeWindow t n s = _
  rw [execTakeWindow, h]

theorem exec_takeNotExecuted_of_none (h : s.dev.takeLostT n = none) : exec (.takeNotExecuted t n) s = .next (s.arrive t) := by
  show execTakeNotExecuted t n s = _
  rw [execTakeNotExecuted, h]

theorem actsAt_takeNotExecuted (hm : s.dev.mediaOn = true) {d : Nat} (h : s.dev.takeLostT n = some d) :
    ActsAt s t (.takeNotExecuted t n) d (fun v => if v.takeLost n then v.takeFails n else v) := by
  refine actsAt_of_due (g := fun v => if v.mediaOn && v.takeLost n then v.takeFails n else v) ?_ ?_
  · show execTakeNotExecuted t n s = _
    rw [execTakeNotExecuted, h]
  · rw [mediaOn_arrive, hm, Bool.true_and]

/-- A failure recorded with an egress stream stays there through the event and the ledger entry that report it. -/
theorem es_failed (u : Dev) (e src detail boundary : Nat) (g : U32) :
    let w := ((u.modEs e fun y => { y with outcome := 2, takeTime := u.nowU }).raise src detail).ledger g 1 1 e boundary 0
    (w.es e).outcome = 2 ∧ (w.es e).takeTime = w.nowU := by
  have h : ((u.modEs e fun y => { y with outcome := 2, takeTime := u.nowU }).es e) = { u.es e with outcome := 2, takeTime := u.nowU } :=
    Dev.es_setEs_self ..
  exact ⟨congrArg EgressSt.outcome h, congrArg EgressSt.takeTime h⟩

theorem takeFails_es {v : Dev} {e : Nat} {k : Commit} {r : List Commit} (h : v.due (.take e) = k :: r) :
    ((v.takeFails e).es e).outcome = 2 ∧ ((v.takeFails e).es e).takeTime = (v.takeFails e).nowU := by
  unfold Dev.takeFails
  rw [h]
  exact es_failed ..

end Takes

/-- Settles O40, happening by happening: each acts under its own condition, and else only arrives. -/
theorem streamTimersTheHuntAndTakesRun : Obligations.StreamTimersTheHuntAndTakesRun := by
  intro s t n
  refine ⟨fun hp => ⟨fun cause run => (exec_packetHunt t cause run).1 hp, (exec_excessWindow t).1 hp⟩,
    fun hp => ⟨fun cause run => (exec_packetHunt t cause run).2 hp, (exec_excessWindow t).2 hp⟩,
    exec_frameStartTimeout t, exec_frameStartTimeout_early t, fun hm => ⟨fun d hd => ?window, fun d hd => ?lost⟩,
    exec_takeWindow_of_none t, exec_takeNotExecuted_of_none t, fun v k r => takeFails_es⟩
  case window =>
    obtain ⟨early, acts⟩ := actsAt_takeWindow t hm hd
    exact ⟨acts, early⟩
  case lost =>
    obtain ⟨early, acts⟩ := actsAt_takeNotExecuted t hm hd
    exact ⟨fun ht hl => (acts ht).trans (congrArg _ (arrive_onDev_congr (if_pos hl))),
      fun ht hl => (acts ht).trans (congrArg _ (arrive_onDev_same (if_neg (ne_true_of_eq_false hl)))), early⟩

end Sys2Proof.Proofs
end
section
/-! Proofs of the statement about CLOCK_INFO on egress streams (file 03). -/
namespace Sys2Proof.Proofs
open Sys2Proof Sys2Proof.Machine

/-! ### The packet of a head (R108, R252, R272) -/

section Packet
variable {v : Dev} {h ms : Nat} {c : TimingCfg}

theorem restart_flags (b : Bool) : 1 + 2 * b01 b = if b then 3 else 1 := by cases b <;> rfl

/-- A head's pixel count at the instant at which device time reads `q`. -/
def headPixels (h q : Nat) (c : TimingCfg) (v : Dev) : Nat := (v.head h).pixelsAt c ((v.tc c.tc).phaseAt (v.clk.instantOf q))

/-- The payload of a CLOCK_INFO: pixel count, ts40 and flags. -/
def clockPayload (pixels q flags : Nat) : List Byte := toBE 6 (pixels % 2 ^ 48) ++ toBE 5 (ts40OfQ q) ++ toBE 1 flags

/-- The first CLOCK_INFO of a head for a millisecond is made from its raster, and takes the restart mark with it. -/
theorem clockInfoOf_new (hn : ∀ m q, (v.head h).clockInfo = some (m, q) → m ≠ ms) :
    let p := clockPayload (headPixels h (ms * msQ) c v) (ms * msQ) (if (v.head h).restarted then 3 else 1)
    v.clockInfoOf h ms c = (v.setHead h { v.head h with clockInfo := some (ms, p), restarted := false }, p) := by
  rw [← restart_flags]
  unfold Dev.clockInfoOf
  dsimp only
  split
  · next m q hm => exact if_neg (hn m q hm)
  · rfl

theorem clockInfoOf_again {q : List Byte} (hq : (v.head h).clockInfo = some (ms, q)) : v.clockInfoOf h ms c = (v, q) := by
  unfold Dev.clockInfoOf
  simp only [hq, if_true]

end Packet

/-! ### When it goes (R108, R123) -/

/-- CLOCK_INFO may go on an egress stream whose head has raster `r`: a new millisecond has come, 100 us have passed, the raster runs, and
the stream may carry it. -/
def ClockOpens (e r : Nat) (a : Dev) : Prop :=
  a.nowQ / msQ ≠ (a.es e).clockMs ∧ (∀ b, (a.es e).clockT = some b → b + 100 * usQ ≤ a.clk.now) ∧ (a.head r).startQ = none ∧
    a.headOpen r e = true ∧ a.txFlows e = true

/-- A CLOCK_INFO with payload `p` goes to an egress stream, with the device before it changed by `f`. -/
def clockSent (e : Nat) (f : Dev → Dev) (p : List Byte) (a : State) : State :=
  ((a.onDev f).onDev (Dev.modEs e fun x => { x with clockT := some a.dev.clk.now, clockMs := a.dev.nowQ / msQ })).toEgress e 6 p

section Send
variable {s : State} {t h : Nat} {e : Fin 512} {c : TimingCfg}

/-- A guard that fails exactly where `P` holds chooses by `P`. -/
theorem ite_guard {b : Bool} {P : Prop} (hb : b = false ↔ P) (x y : State) :
    (P → (if b then x else y) = y) ∧ (¬ P → (if b then x else y) = x) :=
  ⟨fun h => if_neg (ne_true_of_eq_false (hb.mpr h)), fun h => if_pos (Bool.of_not_eq_false (mt hb.mp h))⟩

theorem exec_clockInfoSend {a : State} {v : Dev} {p : List Byte} (ha : s.arrive t = a) (hm : a.dev.mediaOn = true)
    (hs : (a.dev.cfg.route e).source = .head h) (hc : (a.dev.cfg.head (a.dev.cfg.rasterHead h)).timing = some c)
    (hp : a.dev.clockInfoOf (a.dev.cfg.rasterHead h) (a.dev.nowQ / msQ) c = (v, p)) :
    (ClockOpens e (a.dev.cfg.rasterHead h) a.dev → exec (.clockInfoSend t e) s = .next (clockSent e (fun _ => v) p a)) ∧
      (¬ ClockOpens e (a.dev.cfg.rasterHead h) a.dev → exec (.clockInfoSend t e) s = .next a) := by
  have hx : exec (.clockInfoSend t e) s = execClockInfoSend t e s := rfl
  simp only [hx, execClockInfoSend, ha, hs, hc, hp, Host.Outcome.next.injEq]
  refine ite_guard ?_ _ _
  simp only [hm, Bool.or_eq_false_iff, Bool.not_true, decide_eq_false_iff_not, Bool.not_eq_false', Option.isSome_eq_false_iff,
    Option.isNone_iff_eq_none, true_and, and_assoc, ClockOpens, ne_eq]
  refine and_congr_right' (and_congr_left' ?_)
  cases hb : (a.dev.es e).clockT with
  | none => simp only [reduceCtorEq, false_imp_iff, implies_true]
  | some b => simp only [decide_eq_false_iff_not, Nat.not_lt, Option.some.injEq, forall_eq']

theorem exec_clockInfoSend_of_no_head (hs : ∀ k, (s.dev.cfg.route e).source ≠ .head k) : exec (.clockInfoSend t e) s = .next (s.arrive t) := by
  show execClockInfoSend t e s = _
  cases hk : (s.dev.cfg.route e).source with
  | head k => exact absurd hk (hs k)
  | none | ingress k => simp only [execClockInfoSend, State.arrive_dev, Dev.arrive_cfg, hk]

end Send

/-- Settles O42: where CLOCK_INFO may go, the packet is the head's own for the millisecond, made now or made for another stream of it. -/
theorem clockInfoIsSent : Obligations.ClockInfoIsSent := by
  intro s t e hm
  refine ⟨fun h c hs hc => ⟨fun ho hn => ?new, fun q ho hq => ?again, fun ho => ?stopped⟩, exec_clockInfoSend_of_no_head⟩
  case new => exact (exec_clockInfoSend (a := s.arrive t) rfl hm hs hc (clockInfoOf_new hn)).1 ho
  case again => exact (exec_clockInfoSend (a := s.arrive t) rfl hm hs hc (clockInfoOf_again hq)).1 ho
  case stopped => exact (exec_clockInfoSend (a := s.arrive t) rfl hm hs hc rfl).2 ho

end Sys2Proof.Proofs
end
section
/-! Proofs of the statement about the lock and the self-refresh of ingress streams (file 04). -/
namespace Sys2Proof.Proofs
open Sys2Proof Sys2Proof.Machine

/-! ### What the lock of a stream depends on (R132) -/

/-- What of a stream's record decides, with the period check, whether a complete frame locks it. -/
def lockBasis (x : IngressSt) : IsState × Bool × Nat := (x.state, x.accepted, x.goodFrames)

@[simp] theorem lockBasis_setAnchor (a : Anchor) (t : Nat) (x : IngressSt) : lockBasis (x.setAnchor a t) = lockBasis x := rfl

/-- A change of other parts of a stream's record keeps the basis. -/
theorem lockBasis_modIs {n : Nat} {g : IngressSt → IngressSt} (v : Dev) (hg : ∀ x, lockBasis (g x) = lockBasis x) :
    lockBasis ((v.modIs n g).is n) = lockBasis (v.is n) := by
  rw [Dev.modIs_eq, Dev.is_setIs_self, hg]

/-- The end of a capture touches only the frame in the record of its stream. -/
theorem lockBasis_endCapture (n : Nat) (complete crcFailed : Bool) (v : Dev) :
    lockBasis ((v.endCapture n complete crcFailed).is n) = lockBasis (v.is n) := by
  unfold Dev.endCapture
  split
  · split
    · exact lockBasis_modIs _ fun _ => rfl
    · rfl
  · rfl

/-- A stream takes a state, and its record keeps the rest. -/
theorem is_isTo (n : Nat) (new : IsState) (reason bondError : Nat) (v : Dev) :
    (v.isTo n new reason bondError).is n = { v.is n with state := new, mismatch := reason, bondError := bondError } :=
  (is_raiseIf ..).trans (Dev.is_setIs_self ..)

/-- A complete frame is one more good frame of its stream; the second in a row locks it where no period is checked (R132, R137). -/
theorem completeFrame_counts {v : Dev} {n : Nat} {c : IngressCfg} (f : FrameRx) (e : FrameEnd) (hc : smFind n v.cfg.ingress = some c)
    (h0 : c.rateTolPpm = 0) (hs : (v.is n).state = .search) (ha : (v.is n).accepted = true) :
    ((v.completeFrame n f e).is n).goodFrames = (v.is n).goodFrames + 1 ∧
      ((v.completeFrame n f e).is n).state = if 1 ≤ (v.is n).goodFrames then .locked else .search := by
  unfold Dev.completeFrame
  simp -zeta only [hc]
  extract_lets failed v1 bits v2 v3 x flagged ivOk locks y v4
  have hv1 : lockBasis (v1.is n) = lockBasis (v.is n) := by
    unfold v1
    split
    · exact lockBasis_modIs _ fun _ => rfl
    · rfl
  have hv2 : lockBasis (v2.is n) = lockBasis (v.is n) := by
    unfold v2
    split <;> exact hv1
  obtain ⟨hstate, haccepted, hgood⟩ : x.state = .search ∧ x.accepted = true ∧ x.goodFrames = (v.is n).goodFrames := by
    have hx : lockBasis x = lockBasis (v.is n) := (lockBasis_endCapture ..).trans hv2
    simpa only [lockBasis, Prod.mk.injEq, hs, ha] using hx
  have hlocks : locks = decide (1 ≤ (v.is n).goodFrames) := by
    simp only [locks, ivOk, h0, hstate, haccepted, hgood, beq_self_eq_true, decide_true, Bool.true_or, Bool.true_and, Bool.and_true, ge_iff_le]
  obtain ⟨hstate4, -, hgood4⟩ : (v4.is n).state = .search ∧ (v4.is n).accepted = true ∧ (v4.is n).goodFrames = (v.is n).goodFrames + 1 := by
    have hy : lockBasis (v4.is n) = lockBasis y := by
      rw [Dev.is_setIs_self, apply_ite lockBasis, lockBasis_setAnchor, ite_self]
    simpa only [lockBasis, Prod.mk.injEq, y, hstate, haccepted, hgood] using hy
  rw [hlocks]
  by_cases hg : 1 ≤ (v.is n).goodFrames
  · simp only [hg, decide_true, if_true, is_isTo, hgood4, and_self]
  · simp only [hg, decide_false, Bool.false_eq_true, if_false, hgood4, hstate4, and_self]

/-! ### Self-refresh (R116, R124) -/

@[simp] theorem state_sawTs (u : Unwrap) (x : IngressSt) : (x.sawTs u).state = x.state := by
  unfold IngressSt.sawTs
  split <;> rfl

/-- The timestamp of a self-refresh packet leaves the state of its stream as it was. -/
@[simp] theorem state_srTs (n ts : Nat) (v : Dev) : ((v.srTs n ts).is n).state = (v.is n).state := by
  rw [Dev.srTs, Dev.modIs_eq, Dev.is_setIs_self, state_sawTs]

section SelfRefresh
variable {n : Nat} {p : List Byte} {s : State}

theorem state_stamped_bne_iff (ts : Nat) (st : IsState) :
    (((s.onDev (Dev.srTs n ts)).dev.is n).state != st) = true ↔ (s.dev.is n).state ≠ st := by
  rw [State.onDev_dev, state_srTs, bne_iff_ne]

/-- A stream that takes a state at the end of a packet's work is in it, whatever else its record takes. -/
theorem state_of_isTo (u : State) (new : IsState) (g : Dev → IngressSt → IngressSt) (hg : ∀ v x, (g v x).state = x.state) :
    ((u.onDev fun v => (v.isTo n new 0 0).modIs n (g v)).dev.is n).state = new := by
  rw [State.onDev_dev, Dev.modIs_eq, Dev.is_setIs_self, hg, is_isTo]

/-- An SR_ENTER of 12 bytes with a valid field is not malformed. -/
theorem srEnter_good (hp : p.length = 12) (hf : fieldU p 9 1 ≤ 1) : ¬ (p.length != 12 || decide (fieldU p 9 1 > 1)) = true := by
  rw [Bool.or_eq_true, bne_iff_ne, decide_eq_true_eq]
  omega

theorem srExit_good (hp : p.length = 12) : ¬ (p.length != 12) = true := by
  rw [bne_iff_ne]
  exact not_not_intro hp

theorem srEnterIn_locked (hp : p.length = 12) (hf : fieldU p 9 1 ≤ 1) (hs : (s.dev.is n).state = .locked) :
    ((srEnterIn n p s).dev.is n).state = .selfRefresh := by
  rw [srEnterIn, if_neg (srEnter_good hp hf), if_neg (mt (state_stamped_bne_iff ..).mp (not_not_intro hs))]
  exact state_of_isTo _ _ _ fun _ _ => rfl

theorem srEnterIn_not_locked (hp : p.length = 12) (hf : fieldU p 9 1 ≤ 1) (hs : (s.dev.is n).state ≠ .locked) :
    srEnterIn n p s = s.onDev (Dev.srTs n (fieldU p 4 5)) := by
  rw [srEnterIn, if_neg (srEnter_good hp hf), if_pos ((state_stamped_bne_iff ..).mpr hs)]

theorem srExitIn_selfRefresh (hp : p.length = 12) (hs : (s.dev.is n).state = .selfRefresh) :
    ((srExitIn n p s).dev.is n).state = .locked := by
  rw [srExitIn, if_neg (srExit_good hp), if_neg (mt (state_stamped_bne_iff ..).mp (not_not_intro hs))]
  exact state_of_isTo _ _ _ fun _ _ => rfl

theorem srExitIn_not_selfRefresh (hp : p.length = 12) (hs : (s.dev.is n).state ≠ .selfRefresh) :
    srExitIn n p s = s.onDev (Dev.srTs n (fieldU p 4 5)) := by
  rw [srExitIn, if_neg (srExit_good hp), if_pos ((state_stamped_bne_iff ..).mpr hs)]

end SelfRefresh

/-- Settles O39: a complete frame counts and may lock its stream; a self-refresh packet stamps its stream, and moves it on only from the
state that the packet ends. -/
theorem streamsLockAndRefresh : Obligations.StreamsLockAndRefresh :=
  ⟨fun _ f e _ _ => completeFrame_counts f e, fun _ _ _ hp =>
    ⟨srEnterIn_locked hp, srEnterIn_not_locked hp, srExitIn_selfRefresh hp, srExitIn_not_selfRefresh hp⟩⟩

end Sys2Proof.Proofs
end

section
/-! Proofs of the statement about the reads of layers, events, the log and the ledger (files 06, 07 and 14). -/
namespace Sys2Proof.Proofs
open Sys2Proof Sys2Proof.Machine Sys2Proof.Laws

/-! ### Fields and their rules (R6, R7, R421) -/

theorem length_sliceB (bs : List Byte) (o n : Nat) : (sliceB bs o n).length = n := by
  rw [sliceB, List.length_append, List.length_replicate]
  have h : ((bs.drop o).take n).length ≤ n := List.length_take_le ..
  omega

/-- Bytes read on from a value `a` stay below the next value at their place. -/
theorem foldl_beNat_lt (bs : List Byte) (a : Nat) : bs.foldl (fun a b => a * 256 + b.toNat) a < (a + 1) * 256 ^ bs.length := by
  induction bs generalizing a with
  | nil => rw [List.length_nil, Nat.pow_zero, Nat.mul_one]; exact Nat.lt_succ_self a
  | cons b r ih =>
    have hb : b.toNat < 256 := b.isLt
    calc (b :: r).foldl (fun a b => a * 256 + b.toNat) a
      _ < (a * 256 + b.toNat + 1) * 256 ^ r.length := ih _
      _ ≤ (a + 1) * 256 * 256 ^ r.length := Nat.mul_le_mul_right _ (by omega)
      _ = (a + 1) * 256 ^ (b :: r).length := by rw [List.length_cons, Nat.pow_succ', Nat.mul_assoc]

theorem beNat_lt (bs : List Byte) : beNat bs < 256 ^ bs.length := by
  have h := foldl_beNat_lt bs 0
  rwa [Nat.zero_add, Nat.one_mul] at h

theorem fieldU_lt (p : List Byte) (o n : Nat) : fieldU p o n < 256 ^ n := by
  have h := beNat_lt (sliceB p o n)
  rwa [length_sliceB] at h

/-- No field breaks its rule when the first one obeys its own and none of the others breaks one. -/
theorem firstBad_cons {f : FieldRule} {fs : List FieldRule} {p : List Byte} (hf : f.ok p = true) (hfs : firstBad fs p = none) :
    firstBad (f :: fs) p = none := by
  rw [firstBad, List.find?_cons_of_neg (by rw [hf]; exact Bool.false_ne_true)]
  exact hfs

theorem ok_range {p : List Byte} {o n : Nat} {lo hi : Int} (hl : lo ≤ fieldU p o n) (hh : fieldU p o n ≤ hi) :
    FieldRule.ok p ⟨o, n, .unsigned, [(lo, hi)]⟩ = true := by
  simp only [FieldRule.ok, List.any_cons, decide_eq_true hl, decide_eq_true hh, Bool.and_self, Bool.true_or, Bool.or_true]

theorem ok_reserved {p : List Byte} {o n : Nat} (h : fieldU p o n = 0) : FieldRule.ok p ⟨o, n, .reserved, []⟩ = true :=
  beq_iff_eq.mpr h

/-- The fields of a read of one of the tables 1 to `tables` of a slot, for a component or a direction up to `which` (R209, R232). -/
theorem firstBad_tableRead {p : List Byte} {which tables : Int} (h0 : fieldU p 0 2 ≤ 1023) (h2 : fieldU p 2 1 ≤ which) (h4 : 1 ≤ fieldU p 4 1)
    (h4' : fieldU p 4 1 ≤ tables) (h5 : fieldU p 5 3 = 0) :
    firstBad [⟨0, 2, .unsigned, [(0, 1023)]⟩, ⟨2, 1, .unsigned, [(0, which)]⟩, ⟨4, 1, .unsigned, [(1, tables)]⟩, ⟨5, 3, .reserved, []⟩] p = none :=
  firstBad_cons (ok_range (by omega) (by omega)) (firstBad_cons (ok_range (by omega) h2) (firstBad_cons (ok_range (by omega) h4')
    (firstBad_cons (ok_reserved h5) rfl)))

/-! ### The work of the reads -/

@[simp] theorem begun_ev (r : OpRow) (t : Nat) (d : Datagram) (s : State) : (s.begun r t d).dev.ev = s.dev.ev := by
  obtain ⟨l, h⟩ := begun_eq r t d s
  rw [h, Dev.arrive_ev]

section Work
variable {d : Datagram} {s : State}

theorem layerLutReadEff_good (h0 : fieldU d.params 0 2 ≤ 1023) (h2 : fieldU d.params 2 1 ≤ 2) (h4 : 1 ≤ fieldU d.params 4 1)
    (h4' : fieldU d.params 4 1 ≤ 7) (h5 : fieldU d.params 5 3 = 0) : layerLutReadEff d s =
      (s.onDev fun v => v, .ok (d.params ++ (List.range 1025).flatMap fun i =>
        toBE 4 (lutRead (s.dev.cfg.slot (fieldU d.params 0 2)) (fieldU d.params 2 1) (fieldU d.params 4 1) i))) := by
  simp only [layerLutReadEff, firstBad_tableRead (which := 2) (tables := 7) h0 (by omega) h4 (by omega) h5, onDev_id]

theorem layerCoeffReadEff_good (h0 : fieldU d.params 0 2 ≤ 1023) (h2 : fieldU d.params 2 1 ≤ 1) (h4 : 1 ≤ fieldU d.params 4 1)
    (h4' : fieldU d.params 4 1 ≤ 5) (h5 : fieldU d.params 5 3 = 0) : layerCoeffReadEff d s =
      (s.onDev fun v => v, .ok (d.params ++
        (coeffRead (s.dev.cfg.slot (fieldU d.params 0 2)) (fieldU d.params 2 1) (fieldU d.params 4 1)).flatMap (toBEs 2))) := by
  simp only [layerCoeffReadEff, firstBad_tableRead (which := 1) (tables := 5) h0 (by omega) h4 (by omega) h5, onDev_id]

theorem layerScalerReadEff_good (hb : scalerReadBad d.params = none) :
    layerScalerReadEff d s = (s.onDev fun v => v, .ok (scalerRecord (fieldU d.params 0 2) 1 s.dev)) := by
  simp only [layerScalerReadEff, hb, onDev_id]

theorem layerScalerReadClearEff_good (hb : scalerReadBad d.params = none) : layerScalerReadClearEff d s =
    (s.onDev fun v => v.modLayer (fieldU d.params 0 2) fun l => { l with shortFrames := 0 }, .ok (scalerRecord (fieldU d.params 0 2) 2 s.dev)) := by
  simp only [layerScalerReadClearEff, hb]

/-- The reply of EVENT.POLL (R453): the sources that changed, and the details of the first `limit` of those from source `first` on. -/
def pollReply (changed : List (Nat × EvSrc)) (next u first limit : Nat) : Answer :=
  let above := changed.filter fun x => decide (first ≤ x.1)
  let det := above.take limit
  .done .ok (toBE 8 next ++ timeBytes u ++ toBE 2 det.length ++ zeros 2 ++ sourceMap (changed.map (·.1)) ++ det.flatMap sourceRecord)
    (decide (det.length < above.length))

theorem eventPollEff_good (h0 : 1 ≤ fieldU d.params 0 8) (h8 : fieldU d.params 8 2 ≤ 4863) (h10 : fieldU d.params 10 2 ≤ 208)
    (h12 : fieldU d.params 12 4 = 0) : eventPollEff d s =
      (s.onDev fun v => v, pollReply (s.dev.ev.changed (fieldU d.params 0 8)) s.dev.ev.nextOcc s.dev.nowU (fieldU d.params 8 2) (fieldU d.params 10 2)) := by
  have h0' : fieldU d.params 0 8 < 256 ^ 8 := fieldU_lt ..
  have hb : firstBad eventPollFields d.params = none :=
    firstBad_cons (ok_range (by omega) (by omega)) (firstBad_cons (ok_range (by omega) (by omega)) (firstBad_cons (ok_range (by omega) (by omega))
      (firstBad_cons (ok_reserved h12) rfl)))
  simp only [eventPollEff, hb, pollReply, onDev_id]

/-- The reply of EVENT.LOG (R455): at most `limit` entries from the sequence `start` on. -/
def logReply (e : Events) (start limit : Nat) : Answer :=
  let out := (e.log.filter fun x => decide (start ≤ x.seq)).take limit
  .ok (toBE 8 e.logOldest ++ toBE 8 e.logNext ++ toBE 8 e.suppressed.toNat ++ toBE 4 (lostEntries e.logOldest start) ++ toBE 2 out.length ++
    zeros 2 ++ out.flatMap logRecord)

theorem eventLogEff_good (h8 : 1 ≤ fieldU d.params 8 2) (h8' : fieldU d.params 8 2 ≤ 279) (h10 : fieldU d.params 10 6 = 0) :
    eventLogEff d s = (s.onDev fun v => v, logReply s.dev.ev (fieldU d.params 0 8) (fieldU d.params 8 2)) := by
  have hb : firstBad eventLogFields d.params = none :=
    firstBad_cons (ok_range (by omega) (by omega)) (firstBad_cons (ok_reserved h10) rfl)
  simp only [eventLogEff, hb, logReply, onDev_id]

/-- The reply of EVENT.LEDGER (R457): the entries that `keep` keeps of those examined from the sequence `start` on, at most `limit`. -/
def ledgerReply (e : Events) (keep : LedgerEntry → Bool) (start limit : Nat) : Answer :=
  let res := examine keep limit 16384 (max start e.ledgerOldest) (e.ledger.filter fun x => decide (start ≤ x.seq))
  .ok (toBE 8 e.ledgerOldest ++ toBE 8 e.ledgerNext ++ toBE 8 res.2 ++ toBE 4 (lostEntries e.ledgerOldest start) ++ toBE 2 res.1.length ++
    zeros 2 ++ res.1.flatMap ledgerRecord)

theorem eventLedgerEff_good (hb : firstBad eventLedgerFields d.params = none) : eventLedgerEff d s =
    (s.onDev fun v => v, ledgerReply s.dev.ev (fun x => !bit (fieldU d.params 10 1) 0 || x.generation == BitVec.ofNat 32 (fieldU d.params 12 4))
      (fieldU d.params 0 8) (fieldU d.params 8 2)) := by
  simp only [eventLedgerEff, hb, ledgerReply, onDev_id]

end Work

/-- What an admitted command comes to, when its work changes the device by `f` and answers what `a` reads of the device. -/
theorem next_served_read {r : OpRow} {i : Instr} {t : Nat} {d : Datagram} {eff : Effect} {s : State} {f : Dev → Dev} (a : Dev → Answer)
    (e : exec i s = .next (serve r i t d eff s)) (ha : s.Admits r d)
    (h : eff (r.apply d) (s.begun r t d) = ((s.begun r t d).onDev f, a (s.begun r t d).dev)) : exec i s = .next (s.served r t d f a) :=
  e.trans (congrArg Host.Outcome.next (serve_served f a ha h))

/-- Settles O51, command by command: on good fields the work of a read is its reply, and what serving does before it leaves the events as they
are. -/
theorem readCommandsRun : Obligations.ReadCommandsRun := by
  intro s t d
  refine ⟨?lut, ?coeff, ?scaler, ?scalerClear, ?poll, ?log, ?ledger⟩
  case lut => exact fun ha h0 h2 h4 h4' h5 => next_served_read _ rfl ha (layerLutReadEff_good h0 h2 h4 h4' h5)
  case coeff => exact fun ha h0 h2 h4 h4' h5 => next_served_read _ rfl ha (layerCoeffReadEff_good h0 h2 h4 h4' h5)
  case scaler => exact fun ha hb => next_served_read _ rfl ha (layerScalerReadEff_good hb)
  case scalerClear => exact fun ha hb => next_served_read _ rfl ha (layerScalerReadClearEff_good hb)
  case poll =>
    intro p ha h0 h8 h10 h12
    rw [← begun_ev (eventRow 0x1101) t d s]
    exact next_served_read (fun v => pollReply _ v.ev.nextOcc v.nowU _ _) rfl ha (eventPollEff_good h0 h8 h10 h12)
  case log =>
    intro p ha h8 h8' h10
    rw [← begun_ev (eventRow 0x1102) t d s]
    exact next_served rfl ha (eventLogEff_good h8 h8' h10)
  case ledger =>
    intro p ha hb
    rw [← begun_ev (eventRow 0x1103) t d s]
    exact next_served rfl ha (eventLedgerEff_good hb)

end Sys2Proof.Proofs
end

section
/-! Proofs of the statement about the happenings of a head (file 08). -/
namespace Sys2Proof.Proofs
open Sys2Proof Sys2Proof.Machine

/-! ### The heads of a pair (R266) -/

@[simp] theorem head_raise (src detail h : Nat) (v : Dev) : (v.raise src detail).head h = v.head h := rfl
@[simp] theorem head_raiseIf (b : Bool) (src detail h : Nat) (v : Dev) : (v.raiseIf b src detail).head h = v.head h := by cases b <;> rfl

/-- The event of a source that has just occurred carries the detail it was raised with. -/
theorem lastDetail_raise (src detail : Nat) (v : Dev) : (smGet ({} : EvSrc) src (v.raise src detail).ev.srcs).lastDetail = detail := by
  simp only [Dev.raise, Events.occur, smGet_smPut, if_true]

theorem srcs_raise_of_ne {src other : Nat} (hne : src ≠ other) (detail : Nat) (v : Dev) :
    smGet ({} : EvSrc) other (v.raise src detail).ev.srcs = smGet {} other v.ev.srcs := by
  simp only [Dev.raise, Events.occur, smGet_smPut, if_neg hne]

/-- A pass over a head and the odd one of its pair leaves what it does for the head itself, in all that it leaves alone for the odd one. -/
theorem foldl_headGroup {α : Type} (p : Dev → α) {g : Dev → Nat → Dev} {h : Nat} (hodd : ∀ v, p (g v (h + 1)) = p v) (c : Cfg) (v : Dev) :
    p ((c.headGroup h).foldl g v) = p (g v h) := by
  unfold Cfg.headGroup
  split
  · split
    · exact hodd _
    · rfl
  · rfl

theorem head_modHead_succ (f : HeadSt → HeadSt) (h : Nat) (v : Dev) : (v.modHead (h + 1) f).head h = v.head h := by
  rw [Dev.modHead_eq, Dev.head_setHead, if_neg (Nat.succ_ne_self h)]

theorem head_modHead_self (f : HeadSt → HeadSt) (h : Nat) (v : Dev) : (v.modHead h f).head h = f (v.head h) := Dev.head_setHead_self ..

/-! ### The field, its start and its end (R253, R256, R276) -/

/-- The field that ends is counted, and nothing is open or sent before the next active start. -/
theorem head_fieldEnds (h : Nat) (c : TimingCfg) (v : Dev) :
    let x := v.head h
    let y := (v.fieldEnds h c).head h
    y.rasterFrames = (if x.fieldOpen then x.rasterFrames + 1 else x.rasterFrames) ∧ y.fieldOpen = false ∧ y.sending = false ∧
      y.startQ = none := by
  unfold Dev.fieldEnds
  extract_lets x n u m start w y
  subst y
  rw [foldl_headGroup (·.head h) (fun _ => by rw [head_raise, head_modHead_succ]), head_raise, head_modHead_self, Dev.head_setHead_self]
  exact ⟨rfl, rfl, rfl, rfl⟩

/-- EV.HEAD.BLANK carries the count of fields. -/
theorem lastDetail_fieldEnds (h : Nat) (c : TimingCfg) (v : Dev) :
    (smGet ({} : EvSrc) (srcHead h 0) (v.fieldEnds h c).ev.srcs).lastDetail = ((v.fieldEnds h c).head h).rasterFrames.toNat % 2 ^ 32 := by
  have hsrc : srcHead (h + 1) 0 ≠ srcHead h 0 := by simp only [srcHead]; omega
  rw [(head_fieldEnds h c v).1]
  unfold Dev.fieldEnds
  extract_lets x n u m start w
  rw [foldl_headGroup (fun w => smGet ({} : EvSrc) (srcHead h 0) w.ev.srcs) (fun _ => srcs_raise_of_ne hsrc ..), lastDetail_raise]

/-- What an active start leaves in the record of its head. -/
theorem head_rasterStart (h : Nat) (c : TimingCfg) (v : Dev) :
    let x := v.head h
    let y := (v.rasterStart h c).head h
    y.fieldOpen = true ∧ y.activeN = x.midnightN + c.porchLines x * c.hTotal ∧ y.vFpLast = x.vFpNext ∧ y.nextLine = 0 ∧ y.linesSent = 0 ∧
      y.inSr = x.inSr := by
  unfold Dev.rasterStart
  extract_lets x a w y
  subst y
  rw [foldl_headGroup (·.head h) (fun _ => head_modHead_succ ..), head_modHead_self, Dev.head_setHead_self]
  exact ⟨rfl, rfl, rfl, rfl, rfl, rfl⟩

/-- A head in self-refresh, with no selection still to come, opens its field and sends nothing (R269). -/
theorem activeStart_of_inSr {h : Nat} {u : State} (c : TimingCfg) (hsr : (u.dev.head h).inSr = true) (hsel : (u.dev.head h).selDue = false) :
    u.activeStart h c = u.onDev (Dev.rasterStart h c) := by
  obtain ⟨-, -, -, -, -, hin⟩ := head_rasterStart h c u.dev
  unfold State.activeStart
  rw [hsel, if_neg Bool.false_ne_true]
  exact if_pos (hin.trans hsr)

/-! ### The decision of a VARIABLE head (R260) -/

section Decision
variable {v : Dev} {h : Nat} {c : TimingCfg}

theorem decide_goes_on (hr : v.allGatedReady (v.cfg.headGroup h) (v.decisionQ h (v.head h).candL c) = false) (hl : (v.head h).candL < c.vFpMax) :
    v.decide_ h c = v.modHead h fun x => { x with candL := x.candL + 1 } := by
  refine if_pos ?_
  rw [hr, decide_eq_true hl]
  rfl

theorem decide_ready (hr : v.allGatedReady (v.cfg.headGroup h) (v.decisionQ h (v.head h).candL c) = true) :
    v.decide_ h c = (v.modHead h fun y =>
      { y with vFpNext := (v.head h).candL, decided := true, timedOut := false, selDue := false }).selectGroup h (v.decisionQ h (v.head h).candL c) := by
  simp only [Dev.decide_, hr, Bool.not_true, Bool.false_and, Bool.false_eq_true, if_true, if_false]

theorem decide_timedOut (hr : v.allGatedReady (v.cfg.headGroup h) (v.decisionQ h (v.head h).candL c) = false) (hl : c.vFpMax ≤ (v.head h).candL) :
    v.decide_ h c = ((v.cfg.headGroup h).foldl
        (fun v k => (v.modHead k fun y => { y with timeouts := satInc y.timeouts }).raise (srcHead k 3) (2 * 2 ^ 32))
      (v.modHead h fun y => { y with vFpNext := (v.head h).candL, decided := true, timedOut := true, selDue := false })).selectGroup h
        (v.decisionQ h (v.head h).candL c) := by
  simp only [Dev.decide_, hr, decide_eq_false (Nat.not_lt.mpr hl), Bool.not_false, Bool.and_false, Bool.false_eq_true, if_false]

end Decision

/-! ### What is not due is not sent (R255, R270) -/

theorem sendEnd_of_not_due {h : Nat} {u : State} (hd : (u.dev.head h).endDue = false) : u.sendEnd h = u := by
  refine if_pos ?_
  rw [hd]
  rfl

theorem sendSrEnter_of_not_due {h : Nat} {u : State} (hd : (u.dev.head h).srDue = false) : u.sendSrEnter h = u := by
  refine if_pos ?_
  rw [hd]
  rfl

/-! ### When each happening acts (log entry 1) -/

/-- A happening with instant `d` only moves the instant on before it, and acts as of it from there on. -/
theorem exec_of_due {s : State} {t d : Nat} {i : Instr} {f : State → State} (e : exec i s = .next (s.due d t f)) :
    (t < d → exec i s = .next (s.arrive t)) ∧ (d ≤ t → exec i s = .next (f (s.arrive d))) :=
  ⟨fun ht => by rw [e, due_of_lt ht], fun ht => by rw [e, due_of_le ht]⟩

section Timed
variable {s : State} (t : Nat) {h : Fin 256} {c : TimingCfg}

theorem exec_frameStartDecision_not_due (hc : (s.dev.cfg.head h).timing = some c) (hd : (s.dev.head h).selDue = false) :
    exec (.frameStartDecision t h) s = .next (s.arrive t) := by
  show execFrameStartDecision t h s = _
  simp only [execFrameStartDecision, hc, hd, Bool.not_false, Bool.or_true, if_true]

section Due
variable (hm : s.dev.mediaOn = true) (hc : (s.dev.cfg.head h).timing = some c) (hp : s.dev.cfg.pairOdd h = false)
include hm hc hp

theorem exec_midnightPoint_due {d : Nat} (hd : s.dev.midnightDue h c = some d) :
    exec (.midnightPoint t h) s = .next (s.due d t fun s => (s.onDev (Dev.midnight h)).sendSrExit h false) := by
  show execMidnightPoint t h s = _
  simp only [execMidnightPoint, hc, hm, hp, hd, Bool.not_true, Bool.or_self, Bool.false_eq_true, if_false]

theorem exec_midnightPoint_not_due (hd : s.dev.midnightDue h c = none) : exec (.midnightPoint t h) s = .next (s.arrive t) := by
  show execMidnightPoint t h s = _
  simp only [execMidnightPoint, hc, hm, hp, hd, Bool.not_true, Bool.or_self, Bool.false_eq_true, if_false]

theorem exec_frameStartDecision_variable (hd : (s.dev.head h).selDue = true) (hv : c.mode = 1) : exec (.frameStartDecision t h) s =
    .next (s.due (s.dev.clk.instantOf (s.dev.decisionQ h (s.dev.head h).candL c)) t fun s => (s.onDev (Dev.decide_ h c)).sendSrExit h false) := by
  show execFrameStartDecision t h s = _
  simp only [execFrameStartDecision, hc, hm, hp, hd, hv, Bool.not_true, Bool.or_self, Bool.false_eq_true, if_true, if_false]

theorem exec_frameStartDecision_follow (hd : (s.dev.head h).selDue = true) (hv : c.mode ≠ 1) : exec (.frameStartDecision t h) s =
    .next (s.due (s.dev.clk.instantOf (s.dev.decisionQ h (s.dev.head h).vFpNext c)) t (State.onDev (Dev.followSelect h c))) := by
  show execFrameStartDecision t h s = _
  simp only [execFrameStartDecision, hc, hm, hp, hd, hv, Bool.not_true, Bool.or_self, Bool.false_eq_true, if_false]

theorem exec_activeStart_due {d : Nat} (hd : s.dev.activeDue h c = some d) :
    exec (.activeStart t h) s = .next (s.due (coreUp d) t (State.activeStart h c)) := by
  show execActiveStart t h s = _
  simp only [execActiveStart, hc, hm, hp, hd, Bool.not_true, Bool.or_self, Bool.false_eq_true, if_false]

theorem exec_activeStart_not_due (hd : s.dev.activeDue h c = none) : exec (.activeStart t h) s = .next (s.arrive t) := by
  show execActiveStart t h s = _
  simp only [execActiveStart, hc, hm, hp, hd, Bool.not_true, Bool.or_self, Bool.false_eq_true, if_false]

end Due

/-! ### Lines (R253, R276) -/

/-- A line that starts is counted, raises its event, and is sent where it is one of a picture being sent. -/
theorem lineStarts_arrive (d line : Nat) (missing : Option Nat) :
    let u := s.happens d fun v => (v.modHead h fun x => { x with nextLine := line + 1 }).raiseIf
      (c.eventLine == line && c.eventLine != 65535) (srcHead h 1) line
    (s.arrive d).lineStarts h line c missing =
      if (s.dev.head (s.dev.cfg.rasterHead h)).sending = true ∧ line < c.va then u.sendLine h line c missing else u := by
  intro u
  have hcfg : u.dev.cfg = s.dev.cfg := by
    simp only [u, State.happens, State.onDev_dev, State.arrive_dev, Dev.raiseIf_cfg, Dev.modHead_eq, Dev.setHead_cfg, Dev.arrive_cfg]
  have hsend (r : Nat) : (u.dev.head r).sending = (s.dev.head r).sending := by
    simp only [u, State.happens, State.onDev_dev, head_raiseIf, Dev.modHead_eq, Dev.head_setHead]
    split
    · next hr => subst hr; rfl
    · rfl
  show (if (u.dev.head (u.dev.cfg.rasterHead h)).sending && decide (line < c.va) then u.sendLine h line c missing else u) = _
  simp only [hcfg, hsend, Bool.and_eq_true, decide_eq_true_eq]

section Line
variable {line : Nat} (missing : Option Nat) (hc : (s.dev.cfg.head h).timing = some c)
include hc

theorem exec_lineStart_shut (hl : (((s.dev.cfg.head (s.dev.cfg.rasterHead h)).timing).getD c).lineOpen line (s.dev.head h).nextLine
      (s.dev.head (s.dev.cfg.rasterHead h)) = false) : exec (.lineStart t h line missing) s = .next (s.arrive t) := by
  show execLineStart t h line missing s = _
  simp only [execLineStart, hc, hl, Bool.not_false, Bool.or_true, if_true]

theorem exec_lineStart_open (hm : s.dev.mediaOn = true) (hl : (((s.dev.cfg.head (s.dev.cfg.rasterHead h)).timing).getD c).lineOpen line
      (s.dev.head h).nextLine (s.dev.head (s.dev.cfg.rasterHead h)) = true) :
    let r := s.dev.cfg.rasterHead h
    let raster := ((s.dev.cfg.head r).timing).getD c
    exec (.lineStart t h line missing) s =
      .next (s.due (s.dev.rasterT r raster (raster.lineAt line (s.dev.head r))) t (State.lineStarts h line c missing)) := by
  show execLineStart t h line missing s = _
  simp only [execLineStart, hc, hm, hl, Bool.not_true, Bool.or_self, Bool.false_eq_true, if_false]

end Line

/-! ### FRAME_END (R255, R270) -/

theorem exec_headFrameEnd (hm : s.dev.mediaOn = true) (hp : s.dev.cfg.pairOdd h = false) :
    exec (.headFrameEnd t h) s = .next (s.due (coreUp ((s.dev.head h).midnightT + 6 * usQ)) t (State.headEnds h)) := by
  show execHeadFrameEnd t h s = _
  simp only [execHeadFrameEnd, hm, hp, Bool.not_true, Bool.or_self, Bool.false_eq_true, if_false]

/-- FRAME_END of the odd head goes with that of the even one, while it is its pair or has no raster of its own. -/
theorem headEnds_eq (k : Nat) (u : State) :
    let odd := k % 2 = 0 ∧ (u.dev.cfg.pairOdd (k + 1) = true ∨ (u.dev.cfg.head (k + 1)).timing = none)
    (odd → u.headEnds k = ((u.sendEnd k).sendEnd (k + 1)).sendSrEnter k) ∧ (¬ odd → u.headEnds k = (u.sendEnd k).sendSrEnter k) := by
  have hg : (k % 2 == 0 && (u.dev.cfg.pairOdd (k + 1) || (u.dev.cfg.head (k + 1)).timing.isNone)) = true ↔
      k % 2 = 0 ∧ (u.dev.cfg.pairOdd (k + 1) = true ∨ (u.dev.cfg.head (k + 1)).timing = none) := by
    rw [Bool.and_eq_true, Bool.or_eq_true, beq_iff_eq, Option.isNone_iff_eq_none]
  exact ⟨fun h => congrArg (State.sendSrEnter k) (if_pos (hg.mpr h)), fun h => congrArg (State.sendSrEnter k) (if_neg (mt hg.mp h))⟩

/-! ### A head without a timing -/

theorem exec_of_no_timing (hc : (s.dev.cfg.head h).timing = none) : exec (.midnightPoint t h) s = .next (s.arrive t) ∧
    exec (.activeStart t h) s = .next (s.arrive t) ∧ exec (.frameStartDecision t h) s = .next (s.arrive t) ∧
      ∀ line missing, exec (.lineStart t h line missing) s = .next (s.arrive t) := by
  refine ⟨?midnight, ?active, ?decision, fun line missing => ?line⟩
  case midnight =>
    show execMidnightPoint t h s = _
    simp only [execMidnightPoint, hc]
  case active =>
    show execActiveStart t h s = _
    simp only [execActiveStart, hc]
  case decision =>
    show execFrameStartDecision t h s = _
    simp only [execFrameStartDecision, hc]
  case line =>
    show execLineStart t h line missing s = _
    simp only [execLineStart, hc]

end Timed

/-- Settles O41, happening by happening: each acts as of its instant where it is due, and else only arrives; what the raster becomes is read
off the record of its head. -/
theorem headHappeningsRun : Obligations.HeadHappeningsRun := by
  intro s t h hm
  refine ⟨fun c hc => ⟨fun hp => ⟨fun d hd => ?midnight, exec_midnightPoint_not_due t hm hc hp, fun hd => ?decision,
      exec_frameStartDecision_not_due t hc, fun d hd => ?active, exec_activeStart_not_due t hm hc hp⟩, fun line missing => ?line⟩,
    fun hp => ?frameEnd, exec_of_no_timing t, fun v c => ⟨?fieldEnds, ⟨decide_goes_on, decide_ready, decide_timedOut⟩, ?rasterStart⟩,
    fun u c => activeStart_of_inSr c, fun u => ⟨sendEnd_of_not_due, sendSrEnter_of_not_due⟩⟩
  case midnight => exact exec_of_due (exec_midnightPoint_due t hm hc hp hd)
  case decision =>
    by_cases hv : c.mode = 1
    · obtain ⟨early, acts⟩ := exec_of_due (exec_frameStartDecision_variable t hm hc hp hd hv)
      rw [if_pos hv]
      exact ⟨early, fun ht _ => acts ht, fun _ hn => absurd hv hn⟩
    · obtain ⟨early, acts⟩ := exec_of_due (exec_frameStartDecision_follow t hm hc hp hd hv)
      rw [if_neg hv]
      exact ⟨early, fun _ hn => absurd hn hv, fun ht _ => acts ht⟩
  case active => exact exec_of_due (exec_activeStart_due t hm hc hp hd)
  case line =>
    refine ⟨exec_lineStart_shut t missing hc, fun hl => ?_⟩
    obtain ⟨early, acts⟩ := exec_of_due (exec_lineStart_open t missing hc hm hl)
    exact ⟨early, fun ht => (acts ht).trans (congrArg _ (lineStarts_arrive ..))⟩
  case frameEnd =>
    obtain ⟨early, acts⟩ := exec_of_due (exec_headFrameEnd t hm hp)
    obtain ⟨odd, alone⟩ := headEnds_eq h (s.arrive (coreUp ((s.dev.head h).midnightT + 6 * usQ)))
    exact ⟨early, fun ht ho => (acts ht).trans (congrArg _ (odd ho)), fun ht ho => (acts ht).trans (congrArg _ (alone ho))⟩
  case fieldEnds =>
    obtain ⟨hframes, hopen, hsending, hstart⟩ := head_fieldEnds h c v
    exact ⟨hframes, hopen, hsending, hstart, lastDetail_fieldEnds h c v⟩
  case rasterStart =>
    obtain ⟨hopen, hactive, hporch, hline, hsent, -⟩ := head_rasterStart h c v
    exact ⟨hopen, hactive, hporch, hline, hsent⟩

end Sys2Proof.Proofs
end

section
/-! Proofs of the statement about the happenings of audio channels (file 09). -/
namespace Sys2Proof.Proofs
open Sys2Proof Sys2Proof.Machine

/-! ### Windows (R290) -/

theorem windowEnd_mod (e : Nat) (v : Dev) : v.windowEnd e % (500 * usQ) = 0 := Nat.mul_mod_left ..

/-- The window that is built next ends at the first boundary after the last one built. -/
theorem windowEnd_bounds (e : Nat) (v : Dev) :
    v.clk.devQ (v.es e).audioT < v.windowEnd e ∧ v.windowEnd e ≤ v.clk.devQ (v.es e).audioT + 500 * usQ := by
  generalize hq : v.clk.devQ (v.es e).audioT = q
  have hend : v.windowEnd e = q / (500 * usQ) * (500 * usQ) + 500 * usQ := by
    rw [Dev.windowEnd, hq, Nat.add_mul, Nat.one_mul]
    rfl
  have hdiv := Nat.div_add_mod' q (500 * usQ)
  have hmod := Nat.mod_lt q (show 0 < 500 * usQ by decide)
  omega

/-! ### Absent channels (R282) -/

/-- An extracted channel that becomes absent: the absence counts where the channel was present. -/
def absentXc (c : Xc) : Xc := if c.absent then c else { c with absent := true, absences := satInc c.absences }

@[simp] theorem absent_absentXc (c : Xc) : (absentXc c).absent = true := by
  unfold absentXc
  split
  · assumption
  · rfl

theorem absences_absentXc (c : Xc) : (absentXc c).absences = if c.absent then c.absences else satInc c.absences :=
  apply_ite Xc.absences ..

/-- A channel becomes absent once: that it is absent already changes nothing. -/
@[simp] theorem absentXc_absentXc (c : Xc) : absentXc (absentXc c) = absentXc c := if_pos (absent_absentXc c)

theorem xchan_audioInput (x y : Nat) (v : Dev) : (v.audioInput x).xchan y = v.xchan y :=
  List.foldlRecOn (motive := fun w : Dev => w.xchan y = v.xchan y) _ _ rfl fun _ h _ _ => h

theorem xchan_xcAbsent (x y : Nat) (v : Dev) : (v.xcAbsent x).xchan y = if x = y then absentXc (v.xchan y) else v.xchan y := by
  by_cases ha : (v.xchan x).absent = true
  · have hsame : v.xcAbsent x = v := if_pos ha
    have hkept : absentXc (v.xchan x) = v.xchan x := if_pos ha
    rw [hsame]
    split
    · next hxy => rw [← hxy, hkept]
    · rfl
  · have hset : v.xcAbsent x = (v.setXchan x (absentXc (v.xchan x))).audioInput x := by rw [Dev.xcAbsent, absentXc, if_neg ha, if_neg ha]
    rw [hset, xchan_audioInput, Dev.xchan_setXchan]
    split
    · next hxy => rw [hxy]
    · rfl

/-- Channels made absent one after another are each absent as if made so alone, and the others stay. -/
theorem xchan_foldl_xcAbsent (b y : Nat) (l : List Nat) (v : Dev) :
    (l.foldl (fun v i => v.xcAbsent (b + i)) v).xchan (b + y) = if y ∈ l then absentXc (v.xchan (b + y)) else v.xchan (b + y) := by
  induction l generalizing v with
  | nil => rfl
  | cons i r ih =>
    rw [List.foldl_cons, ih, xchan_xcAbsent]
    by_cases hi : y = i
    · simp only [hi, if_true, absentXc_absentXc, ite_self, List.mem_cons_self]
    · simp only [Nat.add_left_cancel_iff, Ne.symm hi, hi, if_false, List.mem_cons, false_or]

/-- A group whose eight channels become absent; its format is dropped. -/
def groupAbsent (e g : Nat) (v : Dev) : Dev :=
  (List.range 8).foldl (fun v i => v.xcAbsent (32 * e + 8 * g + i)) (v.modIs e fun x => { x with groups := smErase g x.groups })

theorem xchan_groupAbsent (e g : Nat) (v : Dev) {i : Nat} (hi : i < 8) :
    (groupAbsent e g v).xchan (32 * e + 8 * g + i) = absentXc (v.xchan (32 * e + 8 * g + i)) :=
  (xchan_foldl_xcAbsent ..).trans (if_pos (List.mem_range.mpr hi))

/-! ### When each happening acts (log entries 1 and 34) -/

section Audio
variable {s : State} (t : Nat) {e : Fin 512} {k : Fin 32}

section Running
variable (hm : s.dev.mediaOn = true)
include hm

theorem exec_audioWindow_running (ha : (s.dev.es e).audioOn = true) : exec (.audioWindow t e) s =
    .next (s.due (s.dev.clk.instantOf (s.dev.windowEnd e)) t (State.audioWindow e (s.dev.windowEnd e))) :=
  congrArg Host.Outcome.next (if_pos (by rw [ha, hm]; rfl))

/-- The boundary of a channel comes with the sample at T, at T - O (R287). -/
theorem actsAt_audioBoundary_channel {q : Int} (hq : s.dev.channelT (32 * e + k) = some q) :
    ActsAt s t (.audioBoundary t e (some k)) (s.dev.clk.instantOf (q - s.dev.presQ e).toNat) (Dev.channelBoundary (32 * e + k) q) := by
  refine actsAt_of_due ?_ rfl
  show execAudioBoundary t e (some k) s = _
  simp only [execAudioBoundary, hm, hq, Bool.not_true, Bool.false_eq_true, if_false]

/-- The boundary of a stream comes once the windows that end by then are built (R287, R290). -/
theorem exec_audioBoundary_stream {q : Nat} (hq : s.dev.firstDue [.audioStream e] = some q) :
    let d := s.dev.clk.instantOf (ceilDiv q (500 * usQ) * (500 * usQ))
    exec (.audioBoundary t e none) s =
      .next ((s.audioTo e (min d t) ((min d t - s.dev.clk.now) / (500 * usQ) + 4)).due d t (State.onDev (Dev.streamBoundary e))) := by
  show execAudioBoundary t e none s = _
  simp only [execAudioBoundary, hm, hq, Bool.not_true, Bool.false_eq_true, if_false]
  rfl

theorem exec_srcReacquired : exec (.srcReacquired t e k) s =
    .next (s.happens t fun v => v.modEc (32 * e + k) fun c => { c with acquired := c.resolved.isSome || c.acquired }) :=
  congrArg Host.Outcome.next (arrive_onDev_congr (if_pos hm))

theorem actsAt_audioSwitchPoint {q : Int} (hq : (s.dev.es e).switchQ = some q) :
    ActsAt s t (.audioSwitchPoint t e k) (s.dev.clk.instantOf (q - s.dev.presQ e).toNat) (Dev.audioSwitch (32 * e + k)) := by
  refine actsAt_of_due (g := fun v => if v.mediaOn then v.audioSwitch (32 * e + k) else v) ?_ (if_pos hm)
  show execAudioSwitchPoint t e k s = _
  rw [execAudioSwitchPoint, hq]

theorem exec_transitionEnd : exec (.transitionEnd t e k) s =
    .next (s.happens t fun v => v.transitionEnd (32 * e + k) (v.nextSampleT (32 * e + k))) :=
  congrArg Host.Outcome.next (arrive_onDev_congr (if_pos hm))

theorem actsAt_audioAbsence {g : Fin 4} {q : Int} (hq : s.dev.groupEnd e g = some q) :
    ActsAt s t (.audioAbsence t e g) (s.dev.clk.instantOf (q + (2 * msQ : Nat)).toNat) (groupAbsent e g) := by
  refine actsAt_of_due (g := fun v => if !v.mediaOn then v else groupAbsent e g v) ?_ (if_neg ?_)
  · show execAudioAbsence t e g s = _
    rw [execAudioAbsence, hq]
    rfl
  · rw [mediaOn_arrive, hm]
    exact Bool.false_ne_true

end Running

theorem exec_audioWindow_stopped (ha : (s.dev.es e).audioOn = false) : exec (.audioWindow t e) s = .next (s.arrive t) :=
  congrArg Host.Outcome.next (if_neg (by rw [ha]; exact Bool.false_ne_true))

theorem exec_audioBoundary_channel_not_due (hq : s.dev.channelT (32 * e + k) = none) :
    exec (.audioBoundary t e (some k)) s = .next (s.arrive t) := by
  show execAudioBoundary t e (some k) s = _
  simp only [execAudioBoundary, hq, ite_self]

theorem exec_audioBoundary_stream_not_due (hq : s.dev.firstDue [.audioStream e] = none) :
    exec (.audioBoundary t e none) s = .next (s.arrive t) := by
  show execAudioBoundary t e none s = _
  simp only [execAudioBoundary, hq, ite_self]

theorem exec_audioSwitchPoint_not_known (hq : (s.dev.es e).switchQ = none) : exec (.audioSwitchPoint t e k) s = .next (s.arrive t) := by
  show execAudioSwitchPoint t e k s = _
  rw [execAudioSwitchPoint, hq]

theorem exec_audioAbsence_not_due {g : Fin 4} (hq : s.dev.groupEnd e g = none) : exec (.audioAbsence t e g) s = .next (s.arrive t) := by
  show execAudioAbsence t e g s = _
  rw [execAudioAbsence, hq]

/-! ### Rate measurements (R298) -/

theorem actsAt_audioRateMeasurement {a : AudioChCfg} {x : Nat} (ha : smFind (32 * e + k) s.dev.cfg.audio = some a) (hk : a.sourceKind ≠ 2)
    (hc : a.conversion = 0) (hx : (s.dev.ec (32 * e + k)).resolved = some x) :
    ActsAt s t (.audioRateMeasurement t e k) ((s.dev.ec (32 * e + k)).measT + secQ) (Dev.measureRate (32 * e + k)) := by
  refine actsAt_of_due ?_ rfl
  show execAudioRateMeasurement t e k s = _
  simp only [execAudioRateMeasurement, ha, hc, hx, bne_iff_ne.mpr hk, beq_self_eq_true, Option.isSome_some, Bool.and_self, if_true]

theorem exec_audioRateMeasurement_unresolved (hx : (s.dev.ec (32 * e + k)).resolved = none) :
    exec (.audioRateMeasurement t e k) s = .next (s.arrive t) := by
  show execAudioRateMeasurement t e k s = _
  simp only [execAudioRateMeasurement, hx, Option.isSome_none, Bool.and_false, Bool.false_eq_true, if_false]

theorem exec_audioRateMeasurement_unconfigured (ha : smFind (32 * e + k) s.dev.cfg.audio = none) :
    exec (.audioRateMeasurement t e k) s = .next (s.arrive t) := by
  show execAudioRateMeasurement t e k s = _
  simp only [execAudioRateMeasurement, ha, Bool.false_and, Bool.false_eq_true, if_false]

theorem exec_audioRateMeasurement_not_auto {a : AudioChCfg} (ha : smFind (32 * e + k) s.dev.cfg.audio = some a)
    (hn : a.sourceKind = 2 ∨ a.conversion ≠ 0) : exec (.audioRateMeasurement t e k) s = .next (s.arrive t) := by
  have hauto : (a.sourceKind != 2 && a.conversion == 0) = false := by
    rw [Bool.and_eq_false_iff, bne_eq_false_iff_eq, beq_eq_false_iff_ne]
    exact hn
  show execAudioRateMeasurement t e k s = _
  simp only [execAudioRateMeasurement, ha, hauto, Bool.false_and, Bool.false_eq_true, if_false]

end Audio

/-- Settles O43, happening by happening: each acts as of its instant under its own condition, and else only arrives; that a channel can
become absent only once gives what the eight channels of a group are after AUDIO_ABSENCE. -/
theorem audioHappeningsRun : Obligations.AudioHappeningsRun := by
  intro s t e k hm
  refine ⟨⟨fun ha => exec_of_due (exec_audioWindow_running t hm ha), exec_audioWindow_stopped t, windowEnd_mod .., windowEnd_bounds ..⟩,
    fun q hq => actsAt_audioBoundary_channel t hm hq, exec_audioBoundary_channel_not_due t, fun q hq => ⟨fun ht => ?due, fun ht => ?early⟩,
    exec_audioBoundary_stream_not_due t, fun a x ha hk hc hx => actsAt_audioRateMeasurement t ha hk hc hx, ?unmeasured,
    exec_srcReacquired t hm, fun q hq => actsAt_audioSwitchPoint t hm hq, exec_audioSwitchPoint_not_known t, exec_transitionEnd t hm,
    fun g => ⟨fun q hq => actsAt_audioAbsence t hm hq, exec_audioAbsence_not_due t, fun v i hi => ?absent⟩⟩
  case due => rw [exec_audioBoundary_stream t hm hq, due_of_le ht, Nat.min_eq_left ht]
  case early => rw [exec_audioBoundary_stream t hm hq, due_of_lt ht, Nat.min_eq_right (Nat.le_of_lt ht)]
  case unmeasured =>
    rintro (hx | ha | ⟨a, ha, hn⟩)
    · exact exec_audioRateMeasurement_unresolved t hx
    · exact exec_audioRateMeasurement_unconfigured t ha
    · exact exec_audioRateMeasurement_not_auto t ha hn
  case absent =>
    have hgone := xchan_groupAbsent e g v hi
    exact ⟨(congrArg Xc.absent hgone).trans (absent_absentXc _), (congrArg Xc.absences hgone).trans (absences_absentXc _)⟩

end Sys2Proof.Proofs
end

section
/-! Proofs of the statement about the REF. commands (file 10). -/
namespace Sys2Proof.Proofs
open Sys2Proof Sys2Proof.Machine Sys2Proof.Laws

/-! ### The work of the REF. commands (R309, R320, R335, R336) -/

@[simp] theorem begun_tc (r : OpRow) (t : Nat) (d : Datagram) (s : State) (k : Nat) : (s.begun r t d).dev.tc k = s.dev.tc k := by
  obtain ⟨l, h⟩ := begun_eq r t d s
  simp only [h, Dev.tc, Dev.arrive_tcs]

section Work
variable {d : Datagram} {s : State}

theorem refConfigEff_free (hb : refBad s.dev d.params = none) (hc : refConflict s.dev (readRefCfg d.params 0) = none) :
    refConfigEff d s = (s.onDev (Dev.setRefCfg (readRefCfg d.params 0)), .ok []) := by
  simp only [refConfigEff, hb, hc]

theorem refConfigEff_conflict {f : Fail} (hb : refBad s.dev d.params = none) (hc : refConflict s.dev (readRefCfg d.params 0) = some f) :
    refConfigEff d s = (s.onDev fun v => v, .fail f) := by
  simp only [refConfigEff, hb, hc, onDev_id]

/-- A selection record takes effect at once, or is stored while its channel switches (R328). -/
def setSelect (c : SelectCfg) (v : Dev) : Dev :=
  if (v.tc c.tc).state = .switching then v.putTc c.tc { v.tc c.tc with stored := some c }
  else (v.putTc c.tc { (v.tc c.tc).rebase v.clk.now with sel := c }).decideTc c.tc

theorem refSelectSetEff_good (hb : selectBad d.params = none) :
    refSelectSetEff d s = (s.onDev (setSelect (readSelectCfg d.params 0)), .ok []) := by
  have hf : setSelect (readSelectCfg d.params 0) = fun v =>
      let c := readSelectCfg d.params 0
      let x := v.tc c.tc
      if x.state == .switching then v.putTc c.tc { x with stored := some c }
      else (v.putTc c.tc { x.rebase v.clk.now with sel := c }).decideTc c.tc :=
    funext fun _ => ite_congr (propext beq_iff_eq.symm) (fun _ => rfl) fun _ => rfl
  simp only [refSelectSetEff, hb, hf]

theorem refSelectReadEff_good (h0 : fieldU d.params 0 1 ≤ 7) (h22 : fieldU d.params 22 2 = 0) (h28 : fieldU d.params 28 4 = 0) :
    refSelectReadEff d s = (s.onDev fun v => v, .ok (selectRecord (fieldU d.params 0 1) s.dev)) := by
  have hb : firstBad [⟨0, 1, .unsigned, [(0, 7)]⟩, ⟨22, 2, .reserved, []⟩, ⟨28, 4, .reserved, []⟩] d.params = none :=
    firstBad_cons (ok_range (by omega) (by omega)) (firstBad_cons (ok_reserved h22) (firstBad_cons (ok_reserved h28) rfl))
  simp only [refSelectReadEff, hb, onDev_id]

theorem refAcceptEff_good (h0 : fieldU d.params 0 1 ≤ 7) (h1 : fieldU d.params 1 1 ≤ 1) (h2 : fieldU d.params 2 2 = 0) :
    refAcceptEff d s = (s.onDev (Dev.accept (fieldU d.params 0 1) (fieldU d.params 1 1)), .ok []) := by
  have hb : firstBad [⟨0, 1, .unsigned, [(0, 7)]⟩, ⟨1, 1, .unsigned, [(0, 1)]⟩, ⟨2, 2, .reserved, []⟩] d.params = none :=
    firstBad_cons (ok_range (by omega) (by omega)) (firstBad_cons (ok_range (by omega) (by omega)) (firstBad_cons (ok_reserved h2) rfl))
  simp only [refAcceptEff, hb]

theorem firstBad_refRealign (h0 : fieldU d.params 0 1 ≤ 7) (h1 : fieldU d.params 1 3 = 0) :
    firstBad [⟨0, 1, .unsigned, [(0, 7)]⟩, ⟨1, 3, .reserved, []⟩] d.params = none :=
  firstBad_cons (ok_range (by omega) (by omega)) (firstBad_cons (ok_reserved h1) rfl)

/-- A channel slews its build-out, reduced modulo the period of its active reference, to 0 (R336). -/
def realignTc (k r : Nat) (v : Dev) : Dev :=
  let x := (v.tc k).rebase v.clk.now
  v.putTc k { ({ x with buildOut := v.reducedDelta r x.buildOut } : TcSt).slew v.clk.now 0 with realign := true }

theorem refRealignEff_tracking {r : Nat} (hb : firstBad [⟨0, 1, .unsigned, [(0, 7)]⟩, ⟨1, 3, .reserved, []⟩] d.params = none)
    (hs : (s.dev.tc (fieldU d.params 0 1)).state = .tracking) (ha : (s.dev.tc (fieldU d.params 0 1)).active = some r) :
    refRealignEff d s = (s.onDev (realignTc (fieldU d.params 0 1) r), .ok []) := by
  simp only [refRealignEff, hb, hs, ha]
  rfl

theorem refRealignEff_not_tracking (hb : firstBad [⟨0, 1, .unsigned, [(0, 7)]⟩, ⟨1, 3, .reserved, []⟩] d.params = none)
    (hs : (s.dev.tc (fieldU d.params 0 1)).state ≠ .tracking) :
    refRealignEff d s = (s.onDev fun v => v, .fail (badField 0)) := by
  simp only [refRealignEff, hb, onDev_id]
  split
  · next r hs' ha => exact absurd hs' hs
  · rfl

end Work

/-- Settles O45, command by command: on good fields the work of each command is one change of the device, chosen by what it conflicts with or
by the state of its channel. -/
theorem referenceCommandsRun : Obligations.ReferenceCommandsRun := by
  intro s t d
  refine ⟨fun ha hb => ⟨?configFree, ?configConflict⟩, ?select, ?read, ?accept, fun ha h0 h1 => ⟨?realign, ?realignRefused⟩⟩
  case configFree => exact fun hc => next_served rfl ha (refConfigEff_free hb hc)
  case configConflict => exact fun f hc => next_served rfl ha (refConfigEff_conflict hb hc)
  case select => exact fun ha hb => next_served (f := setSelect _) rfl ha (refSelectSetEff_good hb)
  case read => exact fun ha h0 h22 h28 => next_served_read _ rfl ha (refSelectReadEff_good h0 h22 h28)
  case accept => exact fun ha h0 h1 h2 => next_served rfl ha (refAcceptEff_good h0 h1 h2)
  case realign =>
    intro r hs hr
    exact next_served (f := realignTc _ r) rfl ha
      (refRealignEff_tracking (firstBad_refRealign h0 h1) (by rw [begun_tc]; exact hs) (by rw [begun_tc]; exact hr))
  case realignRefused =>
    exact fun hs => next_served rfl ha (refRealignEff_not_tracking (firstBad_refRealign h0 h1) (by rw [begun_tc]; exact hs))

end Sys2Proof.Proofs
end

section
/-! Proofs of the statement about references and their timing channels (file 10). -/
namespace Sys2Proof.Proofs
open Sys2Proof Sys2Proof.Machine

@[simp] theorem ref_arrive (t r : Nat) (v : Dev) : (v.arrive t).ref r = v.ref r := rfl
@[simp] theorem refLive_arrive (t r : Nat) (v : Dev) : (v.arrive t).refLive r = v.refLive r := rfl
@[simp] theorem tc_arrive (t k : Nat) (v : Dev) : (v.arrive t).tc k = v.tc k := rfl

/-- What acts as of an instant by one change acts there by every other that agrees with it on the device of that instant. -/
theorem ActsAt.congr {s : State} {t d : Nat} {i : Instr} {f g : Dev → Dev} (h : ActsAt s t i d f) (hfg : f (s.dev.arrive d) = g (s.dev.arrive d)) :
    ActsAt s t i d g :=
  ⟨h.1, fun ht => (h.2 ht).trans (congrArg Host.Outcome.next (arrive_onDev_congr hfg))⟩

/-! ### What the happenings do to a device (R313, R315, R329, R362) -/

/-- A reference with activity loses it with all that was measured, and pps_ref that was QUALIFIED takes device time into holdover. -/
theorem loseActivity_of_active {r : Nat} {v : Dev} (hd : (v.ref r).state ≠ .disabled) (hn : (v.ref r).state ≠ .noActivity) :
    let w := (v.setRef r { v.ref r with activityLosses := satInc (v.ref r).activityLosses, fresh := true, candidate := none, samples := [],
                                        gateLost := true, lastT := v.clk.now }).refState r .noActivity
    v.loseActivity r = if (v.ref r).state = .qualified ∧ w.clk.cfg.source = 2 ∧ w.clk.cfg.ppsRef = r then w.timeHoldover else w := by
  refine (if_neg ?_).trans (ite_congr (propext ?_) (fun _ => rfl) fun _ => rfl)
  · simp only [Bool.or_eq_true, beq_iff_eq, hd, hn, or_self, not_false_eq_true]
  · simp only [Bool.and_eq_true, beq_iff_eq, decide_eq_true_eq, and_assoc]

theorem activityBack_of_noActivity {r : Nat} {v : Dev} (h : (v.ref r).state = .noActivity) : v.activityBack r =
    (v.modRef r fun y => { y with fresh := true, candidate := none, samples := [], lastT := v.clk.now }).refState r .outOfRange :=
  if_neg (by simp only [h, bne_self_eq_false, Bool.false_eq_true, not_false_eq_true])

theorem activityBack_of_active {r : Nat} {v : Dev} (h : (v.ref r).state ≠ .noActivity) : v.activityBack r = v :=
  if_pos (bne_iff_ne.mpr h)

/-! ### Happenings of a reference (R313, R315) -/

section Reference
variable {s : State} (t : Nat) {r : Fin 41}

section Media
variable (hm : s.dev.mediaOn = true)
include hm

theorem actsAt_refActivityLoss : ActsAt s t (.refActivityLoss t r) ((s.dev.ref r).lastT + s.dev.activityQ r) (Dev.loseActivity r) :=
  actsAt_of_due rfl (if_pos hm)

/-- The end of a gate at which pps_ref leaves QUALIFIED takes device time into holdover (R362). -/
theorem actsAt_refGateEnd : ActsAt s t (.refGateEnd t r) ((s.dev.ref r).gateT + s.dev.gateLenQ r) (fun v => let w := v.gateEnd r
    if (s.dev.ref r).state = .qualified ∧ (w.ref r).state ≠ .qualified ∧ w.clk.cfg.source = 2 ∧ w.clk.cfg.ppsRef = r then w.timeHoldover else w) := by
  refine actsAt_of_due rfl ((if_neg ?_).trans (ite_congr (propext ?_) (fun _ => rfl) fun _ => rfl))
  · rw [mediaOn_arrive, hm]
    exact Bool.false_ne_true
  · simp only [Bool.and_eq_true, beq_iff_eq, bne_iff_ne, decide_eq_true_eq, and_assoc, ref_arrive]

theorem exec_refActivityReturn_live (hl : s.dev.refLive r = true) :
    exec (.refActivityReturn t r) s = .next (s.happens t (Dev.activityBack r)) :=
  congrArg Host.Outcome.next (arrive_onDev_congr (if_pos (by rw [mediaOn_arrive, refLive_arrive, hm, hl, Bool.and_self])))

theorem exec_refPhaseSample_pin (n : Nat) (hr : r.val < 32) : exec (.refPhaseSample t r n) s = .next (s.happens t (Dev.pinSample r n)) :=
  congrArg Host.Outcome.next (arrive_onDev_congr (if_pos (by rw [mediaOn_arrive, hm, decide_eq_true hr, Bool.and_self])))

end Media

theorem exec_refActivityReturn_dead (hl : s.dev.refLive r = false) : exec (.refActivityReturn t r) s = .next (s.arrive t) :=
  congrArg Host.Outcome.next (arrive_onDev_same (if_neg (by rw [refLive_arrive, hl, Bool.and_false]; exact Bool.false_ne_true)))

theorem exec_refActivityReturn_active (hx : (s.dev.ref r).state ≠ .noActivity) : exec (.refActivityReturn t r) s = .next (s.arrive t) := by
  refine congrArg Host.Outcome.next (arrive_onDev_same ?_)
  rw [activityBack_of_active (v := s.dev.arrive t) hx, ite_self]

/-- The samples of the references that are no pins come with their packets and messages. -/
theorem exec_refPhaseSample_not_pin (n : Nat) (hr : 32 ≤ r.val) : exec (.refPhaseSample t r n) s = .next (s.arrive t) :=
  congrArg Host.Outcome.next (arrive_onDev_same (if_neg (by
    rw [decide_eq_false (Nat.not_lt.mpr hr), Bool.and_false]; exact Bool.false_ne_true)))

/-- The qualification timer acts as of its end on the state it finds there. -/
theorem exec_qualificationTimer_running {w : Nat} (hw : (s.dev.ref r).qualSince = some w) : exec (.qualificationTimer t r) s =
    .next (s.due (w + msQ * (s.dev.ref r).qualTime) t (State.onDev fun v =>
      if v.mediaOn && v.coreUp .t && (v.ref r).state == .qualifying then v.refState r .qualified else v)) := by
  show execQualificationTimer t r s = _
  rw [execQualificationTimer, hw]

theorem actsAt_qualificationTimer_qualifying {w : Nat} (hm : s.dev.mediaOn = true) (hc : s.dev.coreUp .t = true)
    (hw : (s.dev.ref r).qualSince = some w) (hx : (s.dev.ref r).state = .qualifying) :
    ActsAt s t (.qualificationTimer t r) (w + msQ * (s.dev.ref r).qualTime) (fun v => v.refState r .qualified) :=
  actsAt_of_due (exec_qualificationTimer_running t hw) (if_pos (by rw [mediaOn_arrive, coreUp_arrive, ref_arrive, hm, hc, hx]; rfl))

theorem actsAt_qualificationTimer_idle {w : Nat} (hw : (s.dev.ref r).qualSince = some w) (hx : (s.dev.ref r).state ≠ .qualifying) :
    ActsAt s t (.qualificationTimer t r) (w + msQ * (s.dev.ref r).qualTime) (fun v => v) :=
  actsAt_of_due (exec_qualificationTimer_running t hw)
    (if_neg (by rw [ref_arrive, beq_eq_false_iff_ne.mpr hx, Bool.and_false]; exact Bool.false_ne_true))

theorem exec_qualificationTimer_stopped (hw : (s.dev.ref r).qualSince = none) : exec (.qualificationTimer t r) s = .next (s.arrive t) := by
  show execQualificationTimer t r s = _
  rw [execQualificationTimer, hw]

end Reference

/-! ### Happenings of a timing channel (R322, R325, R329, R332, R334) -/

section Channel
variable {s : State} (t : Nat) {k : Fin 8}

section Media
variable (hm : s.dev.mediaOn = true)
include hm

theorem actsAt_waitToRestoreExpiry {r : Fin 41} {w : Nat} (hw : smFind r (s.dev.tc k).wtr = some w) :
    ActsAt s t (.waitToRestoreExpiry t k r) (w + secQ * (s.dev.tc k).sel.wtrS) (Dev.decideTc k) := by
  refine actsAt_of_due (g := fun v => if v.mediaOn then v.decideTc k else v) ?_ (if_pos hm)
  show execWaitToRestoreExpiry t k r s = _
  rw [execWaitToRestoreExpiry, hw]

theorem actsAt_handover {q : Nat} (hq : (s.dev.tc k).closeT = some q) : ActsAt s t (.handover t k) q (Dev.handover k) := by
  refine actsAt_of_due (g := fun v => if v.mediaOn then v.handover k else v) ?_ (if_pos hm)
  show execHandover t k s = _
  rw [execHandover, hq]

section CoreT
variable (hc : s.dev.coreUp .t = true)
include hc

theorem actsAt_storedFrequency : ActsAt s t (.storedFrequency t) (s.dev.clk.freqT + 3600 * secQ)
    (fun v => Dev.storeFreqs { v with clk := { v.clk with freqT := v.clk.now } }) :=
  actsAt_of_due rfl (if_pos (by rw [mediaOn_arrive, coreUp_arrive, hm, hc, Bool.and_self]))

theorem actsAt_historyBin : ActsAt s t (.historyBin t k) (s.dev.clk.instantOf ((s.dev.tc k).binQ + secQ)) (Dev.historyBin k) :=
  actsAt_of_due rfl (if_neg (by rw [mediaOn_arrive, coreUp_arrive, hm, hc]; exact Bool.false_ne_true))

end CoreT
end Media

theorem exec_waitToRestoreExpiry_none {r : Fin 41} (hw : smFind r (s.dev.tc k).wtr = none) :
    exec (.waitToRestoreExpiry t k r) s = .next (s.arrive t) := by
  show execWaitToRestoreExpiry t k r s = _
  rw [execWaitToRestoreExpiry, hw]

theorem exec_handover_none (hq : (s.dev.tc k).closeT = none) : exec (.handover t k) s = .next (s.arrive t) := by
  show execHandover t k s = _
  rw [execHandover, hq]

/-- When the slew of a channel reaches its final build-out, at slew_ps_per_s (R334). -/
def slewEndT (c : TcSt) : Nat := c.slewT + ceilDiv ((c.slewTo - c.buildOut).natAbs * 1000 * secQ) (max 1 (c.sel.slewPsPerS * 65536))

theorem actsAt_slewEnd_following (hm : s.dev.mediaOn = true) (hf : (s.dev.tc k).following = true) :
    ActsAt s t (.slewEnd t k) (slewEndT (s.dev.tc k)) (Dev.stopSlew k) :=
  actsAt_of_due rfl (if_pos (by rw [mediaOn_arrive, tc_arrive, hm, hf, Bool.and_self]))

theorem actsAt_slewEnd_settled (hf : (s.dev.tc k).following = false) : ActsAt s t (.slewEnd t k) (slewEndT (s.dev.tc k)) (fun v => v) :=
  actsAt_of_due rfl (if_neg (by rw [tc_arrive, hf, Bool.and_false]; exact Bool.false_ne_true))

end Channel

/-- Settles O48, happening by happening: each acts as of its instant under its own condition, and else only arrives. -/
theorem referencesFollowTheirInputs : Obligations.ReferencesFollowTheirInputs := by
  intro s t r k hm
  refine ⟨actsAt_refActivityLoss t hm, fun v => loseActivity_of_active, actsAt_refGateEnd t hm, ?activityBack, ?noActivityBack,
    fun w hw hc => ⟨actsAt_qualificationTimer_qualifying t hm hc hw, actsAt_qualificationTimer_idle t hw⟩, exec_qualificationTimer_stopped t,
    fun w => actsAt_waitToRestoreExpiry t hm, exec_waitToRestoreExpiry_none t,
    fun n => ⟨exec_refPhaseSample_pin t hm n, exec_refPhaseSample_not_pin t n⟩, fun q => actsAt_handover t hm, exec_handover_none t,
    ⟨actsAt_slewEnd_following t hm, actsAt_slewEnd_settled t⟩, fun hc => ⟨actsAt_storedFrequency t hm hc, ?historyBin⟩⟩
  case activityBack =>
    intro hx hl
    rw [exec_refActivityReturn_live t hm hl]
    exact congrArg Host.Outcome.next (arrive_onDev_congr (activityBack_of_noActivity hx))
  case noActivityBack =>
    rintro (hx | hl)
    · exact exec_refActivityReturn_active t hx
    · exact exec_refActivityReturn_dead t hl
  case historyBin =>
    exact (actsAt_historyBin t hm hc).congr (congrArg (Dev.setTc k · _) (ite_congr (propext beq_iff_eq) (fun _ => rfl) fun _ => rfl))

end Sys2Proof.Proofs
end

section
/-! Proof of the statement about the lock of a timing channel (file 11). -/
namespace Sys2Proof.Proofs
open Sys2Proof Sys2Proof.Machine

/-! ### Two writes of one record -/

/-- Of two writes of one entry of a table the second is what stands there. -/
theorem smPut_smPut {α : Type} (k : Nat) (a b : α) (t : SMap α) : smPut k b (smPut k a t) = smPut k b t := by
  induction t with
  | nil => simp only [smPut, Nat.lt_irrefl, if_false, if_true]
  | cons e r ih =>
    obtain ⟨j, w⟩ := e
    by_cases hlt : k < j
    · simp only [smPut, hlt, Nat.lt_irrefl, if_true, if_false]
    · by_cases heq : j = k
      · simp only [smPut, heq, Nat.lt_irrefl, if_true, if_false]
      · simp only [smPut, hlt, heq, if_false, ih]

theorem setTc_setTc (k : Nat) (x y : TcSt) (v : Dev) : (v.setTc k x).setTc k y = v.setTc k y := by
  simp only [Dev.setTc, smPut_smPut]

/-! ### The result of a lock gate (R345, R346) -/

/-- The gates of a channel run while it is TRACKING or bridges a switch (R345). -/
theorem gates_iff (x : TcSt) : x.gates = true ↔ x.state = .tracking ∨ x.state = .switching ∧ x.bridging = true := by
  simp only [TcSt.gates, Bool.or_eq_true, Bool.and_eq_true, beq_iff_eq]

/-- The limit of a good gate, ppb (R346). -/
def lockLimit (x : TcSt) : Nat := if x.cfg.lockLimitPpb = 0 then 10 else x.cfg.lockLimitPpb

/-- The good gates in a row after a gate with a result (R346). -/
def goodGates (x : TcSt) (o : Int) : Nat := if o.natAbs * 1000 ≤ lockLimit x * 65536 then x.lockGood + 1 else 0

/-- The bad gates in a row after a gate with a result (R346). -/
def badGates (x : TcSt) (o : Int) : Nat := if o.natAbs * 1000 ≤ 4 * lockLimit x * 65536 then 0 else x.lockBad + 1

/-- A channel with the result of a gate and its two counts (R346). -/
def counted (x : TcSt) (o : Int) : TcSt := { x with lockOffset := o, lockGood := goodGates x o, lockBad := badGates x o }

/-- A result is recorded and counted, and the counts decide about the lock. -/
theorem lockResult_eq (k : Nat) (o : Int) (v : Dev) : v.lockResult k o =
    let x := v.tc k
    let w := v.setTc k (counted x o)
    if !x.locked && decide (3 ≤ goodGates x o) then w.setLocked k true
    else if x.locked && decide (2 ≤ badGates x o) then w.setLocked k false
    else w := by
  have hgood : (if within o (lockLimit (v.tc k)) then (v.tc k).lockGood + 1 else 0) = goodGates (v.tc k) o :=
    ite_congr (propext decide_eq_true_iff) (fun _ => rfl) fun _ => rfl
  have hbad : (if within o (4 * lockLimit (v.tc k)) then 0 else (v.tc k).lockBad + 1) = badGates (v.tc k) o :=
    ite_congr (propext decide_eq_true_iff) (fun _ => rfl) fun _ => rfl
  simp only [counted, ← hgood, ← hbad]
  rfl

section Result
variable {k : Nat} {o : Int} {v : Dev}

theorem lockResult_unlocked (hl : (v.tc k).locked = false) : v.lockResult k o =
    if 3 ≤ goodGates (v.tc k) o then (v.setTc k (counted (v.tc k) o)).setLocked k true else v.setTc k (counted (v.tc k) o) := by
  simp only [lockResult_eq, hl, Bool.not_false, Bool.true_and, Bool.false_and, decide_eq_true_eq, Bool.false_eq_true, if_false]

theorem lockResult_locked (hl : (v.tc k).locked = true) : v.lockResult k o =
    if 2 ≤ badGates (v.tc k) o then (v.setTc k (counted (v.tc k) o)).setLocked k false else v.setTc k (counted (v.tc k) o) := by
  simp only [lockResult_eq, hl, Bool.not_true, Bool.true_and, Bool.false_and, decide_eq_true_eq, Bool.false_eq_true, if_false]

end Result

/-! ### LOCK_GATE (R345) -/

/-- A channel whose gate has ended: the next one begins at the instant, from the last reference instant (R345). -/
def gateBegun (k : Nat) (v : Dev) : TcSt := { v.tc k with lockT := v.clk.now, lockBase := (v.tc k).lockLast }

section Gate
variable {k : Nat} {v : Dev}

theorem lockGate_idle (ht : (v.tc k).state ≠ .tracking) (hs : (v.tc k).state = .switching → (v.tc k).bridging = false) : v.lockGate k = v := by
  refine if_pos ?_
  rw [Bool.not_eq_true', Bool.eq_false_iff, Ne, gates_iff]
  rintro (h | ⟨h, hb⟩)
  · exact ht h
  · exact Bool.false_ne_true ((hs h).symm.trans hb)

variable (hg : (v.tc k).state = .tracking ∨ (v.tc k).state = .switching ∧ (v.tc k).bridging = true)
include hg

theorem lockGate_no_result (hr : v.lockOffset k = none) : v.lockGate k = v.setTc k (gateBegun k v) := by
  simp only [Dev.lockGate, (gates_iff _).mpr hg, Bool.not_true, Bool.false_eq_true, if_false, hr, gateBegun]

theorem lockGate_result {o : Int} (hr : v.lockOffset k = some o) : v.lockGate k = (v.setTc k (gateBegun k v)).lockResult k o := by
  simp only [Dev.lockGate, (gates_iff _).mpr hg, Bool.not_true, Bool.false_eq_true, if_false, hr, gateBegun]

variable {o : Int} (hr : v.lockOffset k = some o)
include hr

/-- A gate with a result on a channel that is not locked locks it when it is the third good one. -/
theorem lockGate_unlocked (hl : (v.tc k).locked = false) : v.lockGate k =
    if 3 ≤ goodGates (v.tc k) o then (v.setTc k (counted (gateBegun k v) o)).setLocked k true else v.setTc k (counted (gateBegun k v) o) := by
  have hz : ((v.setTc k (gateBegun k v)).tc k).locked = false := by rw [Dev.tc_setTc_self]; exact hl
  rw [lockGate_result hg hr, lockResult_unlocked hz, Dev.tc_setTc_self, setTc_setTc]
  rfl

/-- A gate with a result on a locked channel takes its lock away when it is the second bad one. -/
theorem lockGate_locked (hl : (v.tc k).locked = true) : v.lockGate k =
    if 2 ≤ badGates (v.tc k) o then (v.setTc k (counted (gateBegun k v) o)).setLocked k false else v.setTc k (counted (gateBegun k v) o) := by
  have hz : ((v.setTc k (gateBegun k v)).tc k).locked = true := by rw [Dev.tc_setTc_self]; exact hl
  rw [lockGate_result hg hr, lockResult_locked hz, Dev.tc_setTc_self, setTc_setTc]
  rfl

end Gate

theorem actsAt_lockGate {s : State} (t : Nat) {k : Fin 8} {r : Nat} (hm : s.dev.mediaOn = true) (hr : (s.dev.tc k).active = some r) :
    ActsAt s t (.lockGate t k) ((s.dev.tc k).lockT + s.dev.gateLenQ r) (Dev.lockGate k) := by
  refine actsAt_of_due (g := fun v => if v.mediaOn then v.lockGate k else v) ?_ (if_pos hm)
  show execLockGate t k s = _
  rw [execLockGate, hr]

theorem exec_lockGate_none {s : State} (t : Nat) {k : Fin 8} (hr : (s.dev.tc k).active = none) : exec (.lockGate t k) s = .next (s.arrive t) := by
  show execLockGate t k s = _
  rw [execLockGate, hr]

/-- Settles O49: the gate acts as of its end, and its result decides about the lock by the counts of good and bad gates in a row. -/
theorem timingChannelLocks : Obligations.TimingChannelLocks := by
  refine ⟨fun s t k hm => ⟨fun r hr => actsAt_lockGate t hm hr, exec_lockGate_none t⟩,
    fun k v => ⟨lockGate_idle, lockGate_no_result, fun o hg hr => ⟨?locks, ?staysUnlocked, ?unlocks, ?staysLocked⟩⟩⟩
  case locks => exact fun hl h => (lockGate_unlocked hg hr hl).trans (if_pos h)
  case staysUnlocked => exact fun hl h => (lockGate_unlocked hg hr hl).trans (if_neg (Nat.not_le.mpr h))
  case unlocks => exact fun hl h => (lockGate_locked hg hr hl).trans (if_pos h)
  case staysLocked => exact fun hl h => (lockGate_locked hg hr hl).trans (if_neg (Nat.not_le.mpr h))

end Sys2Proof.Proofs
end

section
/-! Proof of the statement about the TC. and CLK. commands (file 11). -/
namespace Sys2Proof.Proofs
open Sys2Proof Sys2Proof.Machine Sys2Proof.Laws

/-! ### What serving a command leaves as it was, and claims (R349) -/

@[simp] theorem begun_cko (r : OpRow) (t : Nat) (d : Datagram) (s : State) (n : Nat) : (s.begun r t d).dev.cko n = s.dev.cko n := by
  obtain ⟨l, h⟩ := begun_eq r t d s
  simp only [h, Dev.cko, Dev.arrive_ckos]

@[simp] theorem begun_tpin (r : OpRow) (t : Nat) (d : Datagram) (s : State) (n : Nat) : (s.begun r t d).dev.tpin n = s.dev.tpin n := by
  obtain ⟨l, h⟩ := begun_eq r t d s
  simp only [h, Dev.tpin, Dev.arrive_tpins]

/-- A free unit, and one that the tag owns already, is there to be claimed. -/
theorem claimFail_of_free {owner : Option Nat} {tag : Nat} (h : owner = none ∨ owner = some tag) : claimFail owner tag = none := by
  rcases h with rfl | rfl
  · rfl
  · exact if_pos rfl

theorem claimFail_of_other {owner : Option Nat} {o tag : Nat} (h : owner = some o) (hn : o ≠ tag) : claimFail owner tag = some (busyWith 16 o) := by
  subst h
  exact if_neg hn

/-- Reserved words break no rule when they are all 0 (R7). -/
theorem firstBad_reservedWords {p : List Byte} {l : List Nat} (h : ∀ i ∈ l, fieldU p i 4 = 0) :
    firstBad (l.map fun i => ⟨i, 4, .reserved, []⟩) p = none := by
  induction l with
  | nil => rfl
  | cons i r ih =>
    obtain ⟨hi, hr⟩ := List.forall_mem_cons.mp h
    exact firstBad_cons (ok_reserved hi) (ih hr)

section Work
variable {d : Datagram} {s : State}

/-! ### The work of TC.CONFIG (R341, R342) -/

section TcConfig
variable (hb : firstBad tcCfgFields d.params = none)
include hb

theorem tcConfigSetEff_same (hf : (readTcCfg d.params 0).setFreqHz = (s.dev.tc (readTcCfg d.params 0).tc).cfg.setFreqHz) : tcConfigSetEff d s =
    (s.onDev fun v => v.putTc (readTcCfg d.params 0).tc { v.tc (readTcCfg d.params 0).tc with cfg := readTcCfg d.params 0 }, .ok []) := by
  simp only [tcConfigSetEff, hb, if_pos hf]

/-- A channel takes a record with a new set frequency: its oscillator goes on from here, and it is not locked (R342). -/
def retune (c : TcCfg) (v : Dev) : Dev :=
  (v.putTc c.tc { (v.tc c.tc).rebase v.clk.now with cfg := c, lockBase := none, lockLast := none }).setLocked c.tc false

variable (hf : (readTcCfg d.params 0).setFreqHz ≠ (s.dev.tc (readTcCfg d.params 0).tc).cfg.setFreqHz)
include hf

theorem tcConfigSetEff_free (ho : s.dev.tcOwner (readTcCfg d.params 0).tc = none) :
    tcConfigSetEff d s = (s.onDev (retune (readTcCfg d.params 0)), .ok []) := by
  simp only [tcConfigSetEff, hb, if_neg hf, ho]
  rfl

theorem tcConfigSetEff_owned {f : Fail} (ho : s.dev.tcOwner (readTcCfg d.params 0).tc = some f) :
    tcConfigSetEff d s = (s.onDev fun v => v, .fail f) := by
  simp only [tcConfigSetEff, hb, if_neg hf, ho, onDev_id]

end TcConfig

theorem tcConfigReadEff_good (h0 : fieldU d.params 0 1 ≤ 7) (h2 : fieldU d.params 2 2 = 0)
    (hw : ∀ i ∈ [4, 8, 12, 16, 20, 24, 28], fieldU d.params i 4 = 0) : tcConfigReadEff d s =
    (s.onDev fun v => v, .ok (writeTcCfg { (s.dev.tc (fieldU d.params 0 1)).cfg.inForce with tc := fieldU d.params 0 1, op := 1 })) := by
  have hb : firstBad [⟨0, 1, .unsigned, [(0, 7)]⟩, ⟨2, 2, .reserved, []⟩, ⟨4, 4, .reserved, []⟩, ⟨8, 4, .reserved, []⟩, ⟨12, 4, .reserved, []⟩,
      ⟨16, 4, .reserved, []⟩, ⟨20, 4, .reserved, []⟩, ⟨24, 4, .reserved, []⟩, ⟨28, 4, .reserved, []⟩] d.params = none :=
    firstBad_cons (ok_range (by omega) (by omega)) (firstBad_cons (ok_reserved h2) (firstBad_reservedWords hw))
  simp only [tcConfigReadEff, hb, onDev_id]

/-! ### The work of CLK.CONFIG (R348, R349, R541) -/

section CkoSet
variable (hb : ckoBad d.params = none)
include hb

theorem clkConfigSetEff_fast (hf : s.dev.ckoTooFast d.params = true) : clkConfigSetEff d s = (s.onDev fun v => v, .fail (badField 4)) := by
  simp only [clkConfigSetEff, hb, hf, if_true, onDev_id]

variable (hf : s.dev.ckoTooFast d.params = false)
include hf

theorem clkConfigSetEff_free (hc : claimFail (s.dev.cko (readCkoCfg d.params 0).cko).owner d.leaseTag = none) :
    clkConfigSetEff d s = (s.onDev (Dev.setCkoCfg d.leaseTag (readCkoCfg d.params 0)), .ok []) := by
  simp only [clkConfigSetEff, hb, hf, Bool.false_eq_true, if_false, hc]

theorem clkConfigSetEff_claimed {f : Fail} (hc : claimFail (s.dev.cko (readCkoCfg d.params 0).cko).owner d.leaseTag = some f) :
    clkConfigSetEff d s = (s.onDev fun v => v, .fail f) := by
  simp only [clkConfigSetEff, hb, hf, Bool.false_eq_true, if_false, hc, onDev_id]

end CkoSet

/-- However a clock output goes over to new settings, the claimant owns it and they are its record. -/
theorem configure_owner_cfg (x : CkoSt) (u tag : Nat) (c : CkoCfg) (k : TcSt) :
    (x.configure u tag c k).owner = some tag ∧ (x.configure u tag c k).cfg = c := by
  unfold CkoSt.configure
  by_cases hoff : c.enable = 0
  · simp only [if_pos hoff, and_self]
  · by_cases hgrid : (!x.running || !(x.cfg.divider == c.divider && x.cfg.coarseHalf == c.coarseHalf && x.cfg.tc == c.tc)) = true
    · simp only [if_neg hoff, if_pos hgrid, and_self]
    · by_cases hdrive : (x.cfg.drive != c.drive || x.cfg.tracePs != c.tracePs) = true
      · simp only [if_neg hoff, if_neg hgrid, if_pos hdrive, and_self]
      · by_cases hfine : (x.cfg.fineQ != c.fineQ) = true
        · simp only [if_neg hoff, if_neg hgrid, if_neg hdrive, if_pos hfine, and_self]
        · simp only [if_neg hoff, if_neg hgrid, if_neg hdrive, if_neg hfine, and_self]

section CkoUnit
variable (h0 : fieldU d.params 0 1 < 64) (h15 : fieldU d.params 15 1 = 0) (h20 : fieldU d.params 20 4 = 0)
include h0 h15 h20

theorem firstBad_ckoUnit : firstBad [⟨0, 1, .unsigned, [(0, 63)]⟩, ⟨15, 1, .reserved, []⟩, ⟨20, 4, .reserved, []⟩] d.params = none :=
  firstBad_cons (ok_range (by omega) (by omega)) (firstBad_cons (ok_reserved h15) (firstBad_cons (ok_reserved h20) rfl))

theorem clkConfigReadEff_good : clkConfigReadEff d s =
    (s.onDev fun v => v, .ok (writeCkoCfg { (s.dev.cko (fieldU d.params 0 1)).cfg with cko := fieldU d.params 0 1, op := 1 })) := by
  simp only [clkConfigReadEff, firstBad_ckoUnit h0 h15 h20, onDev_id]

theorem clkConfigReleaseEff_good : clkConfigReleaseEff d s = (s.onDev (Dev.releaseCko (fieldU d.params 0 1)), .ok []) := by
  simp only [clkConfigReleaseEff, firstBad_ckoUnit h0 h15 h20]

end CkoUnit

/-! ### The work of CLK.TPIN (R358) -/

theorem clkTpinSetEff_free (hb : tpinBad d.params = none)
    (hh : (readTpinCfg d.params 0).role = 1 ∨ tpinHeld (readTpinCfg d.params 0).tpin s.dev = none)
    (hc : claimFail (s.dev.tpin (readTpinCfg d.params 0).tpin).owner d.leaseTag = none) : clkTpinSetEff d s =
    (s.onDev (Dev.setTpin (readTpinCfg d.params 0).tpin { owner := some d.leaseTag, cfg := readTpinCfg d.params 0 }), .ok []) := by
  have hheld : (if (readTpinCfg d.params 0).role = 1 then none else tpinHeld (readTpinCfg d.params 0).tpin s.dev) = none := by
    split
    · rfl
    · next hr => exact hh.resolve_left hr
  simp only [clkTpinSetEff, hb, hc, hheld]

section TpinUnit
variable (h0 : fieldU d.params 0 1 < 16) (h4 : fieldU d.params 4 4 = 0)
include h0 h4

theorem firstBad_tpinUnit : firstBad [⟨0, 1, .unsigned, [(0, 15)]⟩, ⟨4, 4, .reserved, []⟩] d.params = none :=
  firstBad_cons (ok_range (by omega) (by omega)) (firstBad_cons (ok_reserved h4) rfl)

theorem clkTpinReadEff_good : clkTpinReadEff d s =
    (s.onDev fun v => v, .ok (writeTpinCfg { (s.dev.tpin (fieldU d.params 0 1)).cfg with tpin := fieldU d.params 0 1, op := 1 })) := by
  simp only [clkTpinReadEff, firstBad_tpinUnit h0 h4, onDev_id]

theorem clkTpinReleaseEff_good (hh : tpinHeld (fieldU d.params 0 1) s.dev = none) :
    clkTpinReleaseEff d s = (s.onDev (Dev.setTpin (fieldU d.params 0 1) {}), .ok []) := by
  simp only [clkTpinReleaseEff, firstBad_tpinUnit h0 h4, hh]

end TpinUnit

/-! ### The work of CLK.CALIBRATE (R352) -/

theorem clkCalibrateEff_good (h0 : fieldU d.params 0 4 = 0) :
    clkCalibrateEff d s = (s.onDev fun v => v.calibrateOutputs.raise evCalibration 1, .ok []) := by
  have hb : firstBad [⟨0, 4, .reserved, []⟩] d.params = none := firstBad_cons (ok_reserved h0) rfl
  simp only [clkCalibrateEff, hb]

end Work

/-- Settles O46, command by command: on good fields a set is decided by the owner that it finds and by what the drive allows, a read is its
reply, and a release and a calibration are each one change of the device. -/
theorem clockChannelCommandsRun : Obligations.ClockChannelCommandsRun := by
  intro s t d
  refine ⟨fun ha hb => ⟨?tcSame, ?tcFree, ?tcOwned⟩, ?tcRead, fun ha hb => ⟨?clkFree, configure_owner_cfg, ?clkFast, ?clkClaimed⟩,
    fun n hn => ⟨?clkRead, ?clkRelease⟩, fun ha hb hh hc => ?tpinSet, fun n hn => ⟨?tpinRead, ?tpinRelease⟩, ?calibrate⟩
  case tcSame => exact fun hf => next_served rfl ha (tcConfigSetEff_same hb (by rw [begun_tc]; exact hf))
  case tcFree => exact fun hf ho => next_served (f := retune _) rfl ha (tcConfigSetEff_free hb (by rw [begun_tc]; exact hf) ho)
  case tcOwned => exact fun f hf ho => next_served rfl ha (tcConfigSetEff_owned hb (by rw [begun_tc]; exact hf) ho)
  case tcRead => exact fun ha h0 h2 hw => next_served_read _ rfl ha (tcConfigReadEff_good h0 h2 hw)
  case clkFree =>
    exact fun hf hc => next_served (f := Dev.setCkoCfg d.leaseTag _) rfl ha
      (clkConfigSetEff_free hb (decide_eq_false (by rw [begun_tc]; exact hf)) (claimFail_of_free (by rw [begun_cko]; exact hc)))
  case clkFast => exact fun hf => next_served rfl ha (clkConfigSetEff_fast hb (decide_eq_true (by rw [begun_tc]; exact hf)))
  case clkClaimed =>
    exact fun o hf hc hne => next_served rfl ha (clkConfigSetEff_claimed hb (decide_eq_false (by rw [begun_tc]; exact hf))
      (claimFail_of_other (by rw [begun_cko]; exact hc) hne))
  case clkRead =>
    rintro ha rfl h15 h20
    exact next_served_read _ rfl ha (clkConfigReadEff_good hn h15 h20)
  case clkRelease =>
    rintro ha rfl h15 h20
    exact next_served (f := Dev.releaseCko _) rfl ha (clkConfigReleaseEff_good hn h15 h20)
  case tpinSet => exact next_served rfl ha (clkTpinSetEff_free hb hh (claimFail_of_free (by rw [begun_tpin]; exact hc)))
  case tpinRead =>
    rintro ha rfl h4
    exact next_served_read _ rfl ha (clkTpinReadEff_good hn h4)
  case tpinRelease =>
    rintro ha rfl h4 hh
    exact next_served rfl ha (clkTpinReleaseEff_good hn h4 hh)
  case calibrate => exact fun ha h0 => next_served (f := fun v => v.calibrateOutputs.raise evCalibration 1) rfl ha (clkCalibrateEff_good h0)

end Sys2Proof.Proofs
end

section
/-! Proof of the statement about the FP. and TIME. commands (file 11). -/
namespace Sys2Proof.Proofs
open Sys2Proof Sys2Proof.Machine Sys2Proof.Laws

@[simp] theorem begun_fpo (r : OpRow) (t : Nat) (d : Datagram) (s : State) (n : Nat) : (s.begun r t d).dev.fpo n = s.dev.fpo n := by
  obtain ⟨l, h⟩ := begun_eq r t d s
  simp only [h, Dev.fpo, Dev.arrive_fpos]

/-- The work of a command begins on the clock of its instant. -/
theorem begun_clk (r : OpRow) (t : Nat) (d : Datagram) (s : State) : (s.begun r t d).dev.clk = (s.arrive t).dev.clk := by
  obtain ⟨l, h⟩ := begun_eq r t d s
  rw [h, State.arrive_dev]

theorem begun_nowU (r : OpRow) (t : Nat) (d : Datagram) (s : State) : (s.begun r t d).dev.nowU = (s.arrive t).dev.nowU := by
  obtain ⟨l, h⟩ := begun_eq r t d s
  rw [h]
  rfl

@[simp] theorem begun_clk_cfg (r : OpRow) (t : Nat) (d : Datagram) (s : State) : (s.begun r t d).dev.clk.cfg = s.dev.clk.cfg := by
  rw [begun_clk]
  rfl

/-- A time96 value obeys its rule when its nanoseconds are below one second (R10). -/
theorem ok_time {p : List Byte} {o n : Nat} (h : fieldU p (o + 6) 4 ≤ 999999999) : FieldRule.ok p ⟨o, n, .time, []⟩ = true :=
  decide_eq_true h

section Work
variable {d : Datagram} {s : State}

/-! ### The work of FP.CONFIG (R349, R353) -/

section FpSet
variable (hb : fpoBad s.dev d.params = none)
include hb

theorem fpConfigSetEff_free (hc : claimFail (s.dev.fpo (readFpoCfg d.params 0).fpo).owner d.leaseTag = none) :
    fpConfigSetEff d s = (s.onDev (Dev.setFpoCfg d.leaseTag (readFpoCfg d.params 0)), .ok []) := by
  simp only [fpConfigSetEff, hb, hc]

theorem fpConfigSetEff_claimed {f : Fail} (hc : claimFail (s.dev.fpo (readFpoCfg d.params 0).fpo).owner d.leaseTag = some f) :
    fpConfigSetEff d s = (s.onDev fun v => v, .fail f) := by
  simp only [fpConfigSetEff, hb, hc, onDev_id]

end FpSet

section FpoUnit
variable (h0 : fieldU d.params 0 1 < 32) (h26 : fieldU d.params 26 2 = 0)
include h0 h26

theorem firstBad_fpoUnit : firstBad [⟨0, 1, .unsigned, [(0, 31)]⟩, ⟨26, 2, .reserved, []⟩] d.params = none :=
  firstBad_cons (ok_range (by omega) (by omega)) (firstBad_cons (ok_reserved h26) rfl)

theorem fpConfigReadEff_good : fpConfigReadEff d s =
    (s.onDev fun v => v, .ok (writeFpoCfg { (s.dev.fpo (fieldU d.params 0 1)).cfg with fpo := fieldU d.params 0 1, op := 1 })) := by
  simp only [fpConfigReadEff, firstBad_fpoUnit h0 h26, onDev_id]

theorem fpConfigReleaseEff_good : fpConfigReleaseEff d s =
    (s.onDev fun v => v.modFpo (fieldU d.params 0 1) fun x => { pulses := x.pulses, lastPulseU := x.lastPulseU }, .ok []) := by
  simp only [fpConfigReleaseEff, firstBad_fpoUnit h0 h26]

end FpoUnit

/-! ### The work of FP.REALIGN (R355) -/

/-- The outputs that a FP.REALIGN names. -/
def realignNamed (p : List Byte) : List Nat := (List.range 32).filter fun n => (fieldU p 0 4).testBit n

/-- Time `u` is held for each of some outputs. -/
def holdRealign (named : List Nat) (u : Nat) (v : Dev) : Dev :=
  named.foldl (fun v n => v.modFpo n fun x => { x with pendingU := some u }) v

/-- The mask of the named outputs whose pending time is replaced. -/
def replacedMask (named : List Nat) (v : Dev) : Nat := (named.map fun n => if (v.fpo n).pendingU.isSome then 2 ^ n else 0).sum

section Realign
variable (hn : ∀ n ∈ realignNamed d.params, (s.dev.fpo n).cfg.mode = 1 ∧ (s.dev.fpo n).owner = some d.leaseTag)
include hn

/-- No output that is named is in another mode or owned by another tag. -/
theorem not_any_unfit :
    ((realignNamed d.params).any fun n => (s.dev.fpo n).cfg.mode != 1 || (s.dev.fpo n).owner != some d.leaseTag) = false := by
  rw [List.any_eq_false]
  intro n hmem
  obtain ⟨hmode, howner⟩ := hn n hmem
  simp only [hmode, howner, bne_self_eq_false, Bool.or_self, Bool.false_eq_true, not_false_eq_true]

variable (h10 : fieldU d.params 10 4 ≤ 999999999) (h16 : fieldU d.params 16 4 = 0)
include h10 h16

/-- On good fields the work of FP.REALIGN is decided by its time alone. -/
theorem fpRealignEff_good : fpRealignEff d s =
    if fieldT d.params 4 < msU + s.dev.nowU then (s, .fail (plainFail .late))
    else (s.onDev (holdRealign (realignNamed d.params) (fieldT d.params 4)), .ok (toBE 4 (replacedMask (realignNamed d.params) s.dev))) := by
  have hb : firstBad [⟨4, 12, .time, []⟩, ⟨16, 4, .reserved, []⟩] d.params = none :=
    firstBad_cons (ok_time h10) (firstBad_cons (ok_reserved h16) rfl)
  refine (if_neg ?_).trans ?_
  · exact Bool.eq_false_iff.mp (not_any_unfit hn)
  · simp only [hb]
    rfl

theorem fpRealignEff_ahead (hu : msU + s.dev.nowU ≤ fieldT d.params 4) : fpRealignEff d s =
    (s.onDev (holdRealign (realignNamed d.params) (fieldT d.params 4)), .ok (toBE 4 (replacedMask (realignNamed d.params) s.dev))) :=
  (fpRealignEff_good hn h10 h16).trans (if_neg (Nat.not_lt.mpr hu))

theorem fpRealignEff_late (hu : fieldT d.params 4 < msU + s.dev.nowU) : fpRealignEff d s = (s.onDev fun v => v, .fail (plainFail .late)) :=
  (fpRealignEff_good hn h10 h16).trans (if_pos hu)

end Realign

/-! ### The work of TIME.CONFIG and TIME.SET (R359, R363) -/

theorem timeConfigEff_good (hb : timeBad s.dev d.params = none) :
    timeConfigEff d s = (s.onDev (Dev.setTime (readTimeCfg d.params 0)), .ok []) := by
  simp only [timeConfigEff, hb]

/-- The next pulse within 10 ms is the start of second `sec` (R363). -/
def labelNextPulse (utc : Int) (sec : Nat) (v : Dev) : Dev :=
  { v with clk := { v.clk with utcOffset := utc, nextPulse := some (10 * msQ + v.clk.now, sec) } }

theorem timeSetNextPulseEff_good (h1 : fieldU d.params 1 1 = 0) (hs : s.dev.clk.cfg.source = 2) (h10 : fieldU d.params 10 6 = 0) :
    timeSetNextPulseEff d s = (s.onDev (labelNextPulse (fieldS d.params 2 2) (fieldU d.params 4 6)), .ok []) := by
  have hb : firstBad [⟨1, 1, .reserved, []⟩] d.params = none := firstBad_cons (ok_reserved h1) rfl
  simp only [timeSetNextPulseEff, hb, hs, h10, bne_self_eq_false, Bool.false_eq_true, if_false]
  rfl

/-- Device time steps to `u` at the boundary for a step (R363). -/
def stepTo (utc : Int) (u : Nat) (v : Dev) : Dev :=
  { v with clk := { v.clk with utcOffset := utc } }.scheduleStep v.stepBoundary ((qOfU u : Int) - v.stepBoundary)

theorem timeSetStepEff_good (h1 : fieldU d.params 1 1 = 0) (h10 : fieldU d.params 10 4 ≤ 999999999) (hs : s.dev.clk.cfg.source = 0) :
    timeSetStepEff d s = (s.onDev (stepTo (fieldS d.params 2 2) (fieldT d.params 4)), .ok []) := by
  have hb : firstBad [⟨1, 1, .reserved, []⟩, ⟨4, 12, .time, []⟩] d.params = none :=
    firstBad_cons (ok_reserved h1) (firstBad_cons (ok_time h10) rfl)
  simp only [timeSetStepEff, hb, hs, bne_self_eq_false, Bool.false_eq_true, if_false]
  rfl

end Work

/-- Settles O47, command by command: on good fields a set is decided by the owner that it finds, a realignment by its time, and the work of
each other command is one change of the device or its reply. -/
theorem framePulseAndTimeCommandsRun : Obligations.FramePulseAndTimeCommandsRun := by
  intro s t d
  refine ⟨fun ha hb => ⟨?fpFree, ?fpClaimed⟩, fun n hn => ⟨?fpRead, ?fpRelease⟩, fun ha hn h10 h16 => ?realign, ?timeConfig, ?nextPulse, ?step⟩
  case fpFree =>
    exact fun hc => next_served (f := Dev.setFpoCfg d.leaseTag _) rfl ha (fpConfigSetEff_free hb (claimFail_of_free (by rw [begun_fpo]; exact hc)))
  case fpClaimed =>
    exact fun o hc hne => next_served rfl ha (fpConfigSetEff_claimed hb (claimFail_of_other (by rw [begun_fpo]; exact hc) hne))
  case fpRead =>
    rintro ha rfl h26
    exact next_served_read _ rfl ha (fpConfigReadEff_good hn h26)
  case fpRelease =>
    rintro ha rfl h26
    exact next_served rfl ha (fpConfigReleaseEff_good hn h26)
  case realign =>
    have hn' : ∀ n ∈ realignNamed d.params, ((s.begun fpRealignRow t d).dev.fpo n).cfg.mode = 1 ∧
        ((s.begun fpRealignRow t d).dev.fpo n).owner = some d.leaseTag := by
      simp only [begun_fpo]
      exact hn
    constructor
    · intro hu
      exact next_served_read (f := holdRealign _ _) (fun v => .ok (toBE 4 (replacedMask (realignNamed d.params) v))) rfl ha
        (fpRealignEff_ahead hn' h10 h16 (by rw [begun_nowU]; exact hu))
    · intro hu
      exact next_served rfl ha (fpRealignEff_late hn' h10 h16 (by rw [begun_nowU]; exact hu))
  case timeConfig => exact fun ha hb => next_served rfl ha (timeConfigEff_good hb)
  case nextPulse =>
    exact fun ha h1 hs h10 => next_served (f := labelNextPulse _ _) rfl ha (timeSetNextPulseEff_good h1 (by rw [begun_clk_cfg]; exact hs) h10)
  case step =>
    exact fun ha h1 h10 hs => next_served (f := stepTo _ _) rfl ha (timeSetStepEff_good h1 h10 (by rw [begun_clk_cfg]; exact hs))

end Sys2Proof.Proofs
end

section
/-! Proofs of the statements about frame memory (files 01 and 12). -/
namespace Sys2Proof.Proofs
open Sys2Proof Sys2Proof.Machine Sys2Proof.Laws

/-! ### What a command answers (R419) -/

/-- An outcome that is a next state, with the queue and the canonical form of frame memory kept. -/
def KeepsNext (s : State) (o : Host.Outcome State Fault Refusal) : Prop := ∃ u, o = .next u ∧ Kept s u

theorem keepsNext_of_kept {s u : State} (h : Kept s u) : KeepsNext s (.next u) := ⟨u, rfl, h⟩

/-- A Daond command is served by its row and its work. -/
theorem exec_eq_serve {i : Instr} {r : OpRow} {d : Datagram} {f : Effect} (h : command i = some (r, d, f)) (s : State) :
    ∃ j t d', exec i s = .next (serve r j t d' f s) := by
  cases i <;> cases h <;> exact ⟨_, _, _, rfl⟩

theorem keepsNext_command {i : Instr} {r : OpRow} {d : Datagram} {f : Effect} (h : command i = some (r, d, f)) (s : State) :
    KeepsNext s (exec i s) := by
  obtain ⟨j, t, d', e⟩ := exec_eq_serve h s
  exact ⟨_, e, Kept.serve (keptEffect_command h) r j t d' (Kept.refl s)⟩

/-! ### When a happening acts (log entry 1) -/

section Happening
variable (s : State) (t : Nat)

theorem kept_arrive : Kept s (s.arrive t) := Kept.arrive t (Kept.refl s)

theorem kept_happens (f : Dev → Dev) : Kept s (s.happens t f) := Kept.onDev f (kept_arrive s t)

theorem kept_due_onDev {s x : State} (d t : Nat) (f : Dev → Dev) (h : Kept s x) : Kept s (x.due d t (State.onDev f)) :=
  Kept.due d t (fun _ => Kept.onDev f) h

theorem keepsNext_arrive : KeepsNext s (.next (s.arrive t)) := keepsNext_of_kept (kept_arrive s t)

theorem keepsNext_due {s : State} (d t : Nat) {f : State → State} (hf : ∀ y, Kept s y → Kept s (f y)) : KeepsNext s (.next (s.due d t f)) :=
  keepsNext_of_kept (Kept.due d t hf (Kept.refl s))

theorem keepsNext_due_onDev (d : Nat) (f : Dev → Dev) : KeepsNext s (.next (s.due d t (State.onDev f))) :=
  keepsNext_of_kept (kept_due_onDev d t f (Kept.refl s))

theorem keepsNext_packetRow {s : State} (t n type : Nat) (p : Packet) {body : State → State} (hb : ∀ y, Kept s y → Kept s (body y)) :
    KeepsNext s (.next (packetRow t n type p body s)) :=
  keepsNext_of_kept (Kept.packetRow t n type p hb (Kept.refl s))

/-! ### The happenings of a head (R253, R255, R260, R270) -/

section Head
variable (n : Fin 256)

theorem keepsNext_midnightPoint : KeepsNext s (exec (.midnightPoint t n) s) := by
  show KeepsNext s (execMidnightPoint t n s)
  dsimp only [execMidnightPoint]
  split
  · split
    · exact keepsNext_arrive s t
    · split
      · exact keepsNext_due _ t fun _ hy => Kept.sendSrExit _ _ (Kept.onDev _ hy)
      · exact keepsNext_arrive s t
  · exact keepsNext_arrive s t

theorem keepsNext_frameStartDecision : KeepsNext s (exec (.frameStartDecision t n) s) := by
  show KeepsNext s (execFrameStartDecision t n s)
  dsimp only [execFrameStartDecision]
  split
  · split
    · exact keepsNext_arrive s t
    · split
      · exact keepsNext_due _ t fun _ hy => Kept.sendSrExit _ _ (Kept.onDev _ hy)
      · exact keepsNext_due_onDev s t _ _
  · exact keepsNext_arrive s t

theorem keepsNext_activeStart : KeepsNext s (exec (.activeStart t n) s) := by
  show KeepsNext s (execActiveStart t n s)
  dsimp only [execActiveStart]
  split
  · split
    · exact keepsNext_arrive s t
    · split
      · exact keepsNext_due _ t fun _ => Kept.activeStart _ _
      · exact keepsNext_arrive s t
  · exact keepsNext_arrive s t

theorem kept_lineStarts {s x : State} (n line : Nat) (c : TimingCfg) (missing : Option Nat) (h : Kept s x) :
    Kept s (x.lineStarts n line c missing) :=
  Kept.ite (Kept.sendLine _ _ _ _ (Kept.onDev _ h)) (Kept.onDev _ h)

theorem keepsNext_lineStart (line : Nat) (missing : Option Nat) : KeepsNext s (exec (.lineStart t n line missing) s) := by
  show KeepsNext s (execLineStart t n line missing s)
  dsimp only [execLineStart]
  split
  · split
    · exact keepsNext_arrive s t
    · exact keepsNext_due _ t fun _ => kept_lineStarts _ _ _ _
  · exact keepsNext_arrive s t

theorem kept_headEnds {s x : State} (n : Nat) (h : Kept s x) : Kept s (x.headEnds n) :=
  Kept.sendSrEnter _ (Kept.ite (Kept.sendEnd _ (Kept.sendEnd _ h)) (Kept.sendEnd _ h))

theorem keepsNext_headFrameEnd : KeepsNext s (exec (.headFrameEnd t n) s) := by
  show KeepsNext s (execHeadFrameEnd t n s)
  dsimp only [execHeadFrameEnd]
  split
  · exact keepsNext_arrive s t
  · exact keepsNext_due _ t fun _ => kept_headEnds _

end Head

/-! ### The happenings of an egress stream (R76, R77, R108, R287, R303) -/

theorem keepsNext_dawnBurstEnd (n : Fin 512) : KeepsNext s (exec (.dawnBurstEnd t n) s) := by
  refine ⟨_, rfl, Kept.ite (kept_arrive s t) ?_⟩
  have h := kept_happens s t (Dev.txRun n)
  dsimp only
  split
  · split
    · exact Kept.sendSrExit _ _ h
    · exact h
  · exact h

theorem keepsNext_clockInfoSend (n : Fin 512) : KeepsNext s (exec (.clockInfoSend t n) s) := by
  refine ⟨_, rfl, ?_⟩
  have h := kept_arrive s t
  dsimp only
  split
  · split
    · exact Kept.ite h (Kept.toEgress _ _ _ (Kept.onDev _ (Kept.dev _ h)))
    · exact h
  · exact h

theorem keepsNext_audioBoundary (n : Fin 512) (channel : Option (Fin 32)) : KeepsNext s (exec (.audioBoundary t n channel) s) := by
  refine ⟨_, rfl, Kept.ite (kept_arrive s t) ?_⟩
  cases channel with
  | some k =>
    dsimp only
    split
    · exact kept_due_onDev _ t _ (Kept.refl s)
    · exact kept_arrive s t
  | none =>
    dsimp only
    split
    · exact kept_due_onDev _ t _ (Kept.audioTo _ _ _ (Kept.refl s))
    · exact kept_arrive s t

/-! ### The start of an epoch (R29) -/

theorem keepsNext_epochBoundary : KeepsNext s (exec (.epochBoundary t) s) := by
  refine ⟨_, rfl, ?_⟩
  have h := kept_due_onDev (s.dev.clk.instantOf s.dev.nextEpochQ) t Dev.epochStarts (Kept.refl s)
  split
  · exact Kept.ite (kept_due_onDev _ t _ h) h
  · exact h

end Happening

/-! ### Every step (R371, R372) -/

/-- A happening changes the device alone, at its own instant or when it is due, or it does one of the operations on the whole state. -/
theorem keepsNext_happening {i : Instr} (h : command i = none) (s : State) : KeepsNext s (exec i s) := by
  cases i with
  | ethernetFrameDiscarded t | rxOverflow t | serviceFrame t | ptpMessage t | ethernetLinkChange t | blockReceived t | signalLoss t | signalDetect t
  | relockTimeout t | cdrLock t | prbsSync t | prbsSyncLoss t | evLanePrbs t | txPllLock t | trainPeriodEnd t | duskDwellEnd t | skRefclkLoss t
  | skRefclkReturn t | packetHunt t | frameStartTimeout t | excessWindow t | srcReacquired t | transitionEnd t | refActivityReturn t | refPhaseSample t
  | masterReset t | drainComplete t | evFabricLate t | resetNRise t | oscRestored t | ethRefclkLoss t | watchdogReset t | selfConfirmation t
  | unknownOpcode t | scrubbing t | jtagTapAccess t =>
    exact keepsNext_of_kept (kept_happens s t _)
  | ptpSyncTimeout t | replicaRecalibration t | budgetWindow t | refActivityLoss t | refGateEnd t | slewEnd t | historyBin t | storedFrequency t
  | settingsWriteStart t =>
    exact keepsNext_due_onDev s t _ _
  | audioRateMeasurement t | trialTimeout t | servicePlaneExpiry t =>
    exact keepsNext_of_kept (Kept.ite (kept_due_onDev _ t _ (Kept.refl s)) (kept_arrive s t))
  | stageExpired t | takeWindow t | takeNotExecuted t | audioAbsence t | audioSwitchPoint t | nonceExpiry t | backoffEnd t =>
    refine ⟨_, rfl, ?_⟩
    split
    · exact kept_due_onDev _ t _ (Kept.refl s)
    · exact kept_arrive s t
  | leaseTimeout t | commitEffectiveTime t | thermalCritical t =>
    refine ⟨_, rfl, ?_⟩
    split
    · exact Kept.ite (kept_due_onDev _ t _ (Kept.refl s)) (kept_arrive s t)
    · exact kept_arrive s t
  | qualificationTimer t | waitToRestoreExpiry t | handover t | lockGate t | realignment t | framePulse t =>
    dsimp only [exec, execQualificationTimer, execWaitToRestoreExpiry, execHandover, execLockGate, execRealignment, execFramePulse]
    split
    · exact keepsNext_due_onDev s t _ _
    · exact keepsNext_arrive s t
  | format t n p => exact keepsNext_packetRow t n 1 p fun _ => Kept.formatIn _ _
  | frameStart t n p => exact keepsNext_packetRow t n 2 p fun _ => Kept.frameStartIn _ _
  | videoLine t n p => exact keepsNext_packetRow t n 3 p fun _ => Kept.videoLineIn _ _
  | frameEnd t n p => exact keepsNext_packetRow t n 4 p fun _ => Kept.frameEndIn _ _
  | audio t n p => exact keepsNext_packetRow t n 5 p fun _ => Kept.audioIn _ _
  | clockInfo t n p => exact keepsNext_packetRow t n 6 p fun _ => Kept.clockInfoIn _ _
  | aux t n p => exact keepsNext_packetRow t n 7 p fun _ hy => Kept.ite (Kept.onDev _ hy) (Kept.forward _ _ _ hy)
  | srEnter t n p => exact keepsNext_packetRow t n 8 p fun _ => Kept.srEnterIn _ _
  | srExit t n p => exact keepsNext_packetRow t n 9 p fun _ => Kept.srExitIn _ _
  | idle t n p => exact keepsNext_packetRow t n 15 p fun _ => id
  | reservedTypePacket t n type p => exact keepsNext_packetRow t n (type + 16) p fun _ => Kept.onDev _
  | midnightPoint t n => exact keepsNext_midnightPoint s t n
  | frameStartDecision t n => exact keepsNext_frameStartDecision s t n
  | activeStart t n => exact keepsNext_activeStart s t n
  | lineStart t n line missing => exact keepsNext_lineStart s t n line missing
  | headFrameEnd t n => exact keepsNext_headFrameEnd s t n
  | dawnBurstEnd t n => exact keepsNext_dawnBurstEnd s t n
  | clockInfoSend t n => exact keepsNext_clockInfoSend s t n
  | audioBoundary t n channel => exact keepsNext_audioBoundary s t n channel
  | audioWindow t => exact keepsNext_of_kept (Kept.ite (Kept.due _ t (fun _ => Kept.audioWindow _ _) (Kept.refl s)) (kept_arrive s t))
  | epochBoundary t => exact keepsNext_epochBoundary s t
  | resetNFall t => exact keepsNext_of_kept (Kept.ite (kept_arrive s t) (Kept.onDev _ (Kept.resetOnce _ (kept_arrive s t))))
  | pwrOkFall t => exact keepsNext_of_kept (Kept.onDev _ (Kept.ite (Kept.resetOnce _ (kept_arrive s t)) (kept_arrive s t)))
  | oscLoss t => exact keepsNext_of_kept (Kept.onDev _ (Kept.resetOnce _ (kept_arrive s t)))
  | thermalSample t => exact keepsNext_due _ t fun _ hy => Kept.sample _ _ (Kept.onDev _ hy)
  | bootReady t =>
    exact keepsNext_of_kept (Kept.ite (Kept.within _ t (fun _ hy => Kept.onDev _ (Kept.bootPreset hy)) (Kept.refl s)) (kept_arrive s t))
  | sleepEntryComplete t | wakeComplete t | settingsWriteComplete t =>
    exact keepsNext_of_kept (Kept.ite (Kept.within _ t (fun _ hy => Kept.resume (Kept.onDev _ hy)) (Kept.refl s)) (kept_arrive s t))
  | domainSwitched t =>
    refine ⟨_, rfl, ?_⟩
    split
    · exact Kept.ite (Kept.within _ t (fun _ hy => Kept.resume (Kept.domainDone _ hy)) (Kept.refl s)) (kept_arrive s t)
    · exact kept_arrive s t
  | coreRestartComplete t =>
    refine ⟨_, rfl, ?_⟩
    split
    · exact Kept.ite (Kept.within _ t (fun _ => Kept.coreBack _) (Kept.refl s)) (kept_arrive s t)
    · exact kept_arrive s t
  | queueWaitEnd t =>
    refine ⟨_, rfl, ?_⟩
    split
    · exact Kept.within _ t (fun _ => Kept.onDev _) (Kept.refl s)
    · exact kept_arrive s t
  | _ => cases h

/-- Every command answers a next state that keeps the queue, and frame memory in canonical form. -/
theorem keepsNext_exec (i : Instr) (s : State) : KeepsNext s (exec i s) := by
  cases h : command i with
  | some q => exact keepsNext_command h s
  | none => exact keepsNext_happening h s

/-- Settles O5: an empty queue idles, and the front command runs on the same frame memory and keeps its form. -/
theorem everyStepKeepsMemoryCanonical : Obligations.EveryStepKeepsMemoryCanonical := by
  intro s u hs hu
  unfold step at hu
  split at hu
  · cases hu
    exact hs
  · next i q _ =>
    obtain ⟨w, hw, -, hmem⟩ := keepsNext_exec i { s with pending := q }
    cases hw.symm.trans hu
    exact hmem hs

/-- Settles O4: memory lists nothing after reset, and the empty list of cells is canonical. -/
theorem resetMemoryIsCanonical : Obligations.ResetMemoryIsCanonical :=
  show memWfFrom 0 [] = true from rfl

end Sys2Proof.Proofs
end

section
/-! Proofs of the statements about the memory fabric (file 12). -/
namespace Sys2Proof.Proofs
open Sys2Proof Sys2Proof.Machine Sys2Proof.Laws

/-! ### The records of masters and targets (R375, R377) -/

section Records
variable (v : Dev) (n k : Nat)

theorem master_modMaster (f : MasterSt → MasterSt) : (v.modMaster n f).master k = if n = k then f (v.master n) else v.master k := by
  unfold Dev.master Dev.modMaster
  rw [smFind_smPut]
  split <;> rfl

theorem target_modTarget (f : TargetSt → TargetSt) : (v.modTarget n f).target k = if n = k then f (v.target n) else v.target k := by
  unfold Dev.target Dev.modTarget
  rw [smFind_smPut]
  split <;> rfl

theorem target_ite_modTarget (c : Prop) [Decidable c] (f : TargetSt → TargetSt) :
    (if c then v.modTarget n f else v).target k = if n = k then (if c then f (v.target n) else v.target n) else v.target k := by
  by_cases h : c
  · simp only [if_pos h, target_modTarget]
  · simp only [if_neg h]
    split
    · next hk => rw [hk]
    · rfl

theorem target_modMaster (f : MasterSt → MasterSt) : (v.modMaster n f).target k = v.target k := rfl

theorem count_raise (src detail : Nat) :
    (smGet ({} : EvSrc) src (v.raise src detail).ev.srcs).count = (smGet ({} : EvSrc) src v.ev.srcs).count + 1 := by
  simp only [Dev.raise, Events.occur, smGet_smPut, if_true]

end Records

/-- What a table finds that lists a function of its keys. -/
theorem smFind_map {α : Type} (g : Nat → α) {k : Nat} {l : List Nat} (h : k ∈ l) : smFind k (l.map fun m => (m, g m)) = some (g k) := by
  induction l with
  | nil => exact absurd h List.not_mem_nil
  | cons j r ih =>
    simp only [List.map_cons, smFind]
    split
    · next hj => rw [hj]
    · next hj => exact ih ((List.mem_cons.mp h).resolve_left fun e => hj e.symm)

/-! ### The work of SYS.FABRIC (R395 to R397) -/

theorem fabricEff_good {op : Nat} {f : Nat → List Byte → Dev → Dev} {rec : Nat → Dev → List Byte} {d : Datagram} {s : State}
    (h : fabricBad op d.params = none) :
    fabricEff op f rec d s = (s.onDev (f (fieldU d.params 1 1) d.params), .ok (rec (fieldU d.params 1 1) s.dev)) := by
  simp only [fabricEff, h]

theorem exec_fabric {s : State} {t : Nat} {d : Datagram} {i : Instr} {op : Nat} {f : Nat → List Byte → Dev → Dev}
    {rec : Nat → Dev → List Byte} (e : exec i s = .next (serve (fabricRow op) i t d (fabricEff op f rec) s)) :
    let p := ((fabricRow op).apply d).params
    s.Admits (fabricRow op) d → fabricBad op p = none →
      exec i s = .next (s.served (fabricRow op) t d (f (fieldU p 1 1) p) fun v => .ok (rec (fieldU p 1 1) v)) :=
  fun ha hb => next_served_read (fun v => .ok (rec _ v)) e ha (fabricEff_good hb)

/-- The best-effort permission of a master from the next window (R395). -/
def setMaster (n : Nat) (p : List Byte) (v : Dev) : Dev := v.modMaster n fun x => { x with nextBestEffort := some (fieldU p 4 1 == 1) }

/-- Settles O28: each form serves its row, and on good fields its work is the one change of its unit and the record of before. -/
theorem fabricCommandsRun : Obligations.FabricCommandsRun := by
  intro s t d runs
  refine ⟨?setTarget, ?readTarget, ?clearTarget, ?setMaster, ?readMaster, ?clearMaster⟩
  case setTarget => exact exec_fabric (f := setTarget) (rec := fun _ _ => []) rfl
  case readTarget => exact exec_fabric (f := fun _ _ v => v) (rec := targetRecord) rfl
  case clearTarget => exact exec_fabric (f := fun n _ v => targetClear n v) (rec := targetRecord) rfl
  case setMaster => exact exec_fabric (f := setMaster) (rec := fun _ _ => []) rfl
  case readMaster => exact exec_fabric (f := fun _ _ v => v) (rec := masterRecord) rfl
  case clearMaster => exact exec_fabric (f := fun n _ v => masterClear n v) (rec := masterRecord) rfl

/-! ### Budget windows (R384, R387) -/

/-- The device of a new window, before its waiting requests are judged again. -/
def windowOpened (v : Dev) : Dev :=
  { v.programBudgets with fabric := { v.programBudgets.fabric with
      window := v.fabric.window + 1
      masters := v.programBudgets.fabric.masters.map fun e => (e.1, e.2.window)
      targets := v.fabric.targets.map fun e => (e.1, e.2.window v.fabric.window) } }

theorem budgetWindow_eq (v : Dev) : v.budgetWindow = (windowOpened v).regrant := rfl

theorem master_windowOpened (v : Dev) {m : Nat} (h : m < 54) :
    (windowOpened v).master m = MasterSt.window { v.master m with budget := v.allBudgets.map fun b => b.getD m 0 } := by
  have hl : (windowOpened v).fabric.masters =
      (List.range 54).map fun m => (m, MasterSt.window { v.master m with budget := v.allBudgets.map fun b => b.getD m 0 }) := List.map_map
  rw [Dev.master, hl, smFind_map _ (List.mem_range.mpr h), Option.getD_some]

/-- The budgets of a master read port by port. -/
theorem getD_allBudgets (v : Dev) (m : Nat) {p : Nat} (h : p < 16) :
    (v.allBudgets.map fun b => b.getD m 0).getD p 0 = (v.budgetsOf p).getD m 0 := by
  simp only [Dev.allBudgets, List.getD_eq_getElem?_getD, List.map_map, List.getElem?_map, List.getElem?_range h, Option.map_some, Option.getD_some,
    Function.comp_apply]

theorem getD_credit_window (x : MasterSt) {p : Nat} (h : p < 16) :
    x.window.credit.getD p 0 = min (x.credit.getD p 0 + (x.budget.getD p 0 : Int)) (16 * (x.budget.getD p 0 : Int)) := by
  simp only [MasterSt.window, List.getD_eq_getElem?_getD, List.getElem?_map, List.getElem?_range h, Option.map_some, Option.getD_some]

theorem actsAt_budgetWindow {s : State} (t : Nat) (hm : s.dev.mediaOn = true) :
    ActsAt s t (.budgetWindow t) (s.dev.clk.riseT + windowQ * (s.dev.fabric.window + 1)) Dev.budgetWindow :=
  actsAt_of_due rfl (if_pos hm)

/-! ### Passes over the targets (R382) -/

/-- A pass that changes each target by `F`, which may look at the masters, leaves the masters and changes every target so. -/
theorem target_foldl_range {g : Dev → Nat → Dev} {F : (Nat → MasterSt) → TargetSt → TargetSt} (hm : ∀ v t, (g v t).master = v.master)
    (ht : ∀ v t p, (g v t).target p = if t = p then F v.master (v.target p) else v.target p) (n : Nat) (v : Dev) :
    ((List.range n).foldl g v).master = v.master ∧
      ∀ p, ((List.range n).foldl g v).target p = if p < n then F v.master (v.target p) else v.target p := by
  induction n with
  | zero => exact ⟨rfl, fun _ => rfl⟩
  | succ n ih =>
    obtain ⟨ihm, iht⟩ := ih
    simp only [List.range_succ, List.foldl_append, List.foldl_cons, List.foldl_nil, hm, ht, ihm, iht, true_and]
    intro p
    by_cases h : n = p
    · subst h
      rw [if_pos rfl, if_neg (Nat.lt_irrefl n), if_pos (Nat.lt_succ_self n)]
    · rw [if_neg h]
      exact ite_congr (propext ⟨fun _ => by omega, fun _ => by omega⟩) (fun _ => rfl) fun _ => rfl

/-- A pass keeps what each of its steps keeps. -/
theorem foldl_keeps {α : Type} (p : Dev → α) {g : Dev → Nat → Dev} (h : ∀ v t, p (g v t) = p v) (l : List Nat) (v : Dev) :
    p (l.foldl g v) = p v := by
  induction l generalizing v with
  | nil => rfl
  | cons t r ih => rw [List.foldl_cons, ih, h]

/-! ### Resets of masters (R381, R382) -/

/-- A master blocked, with its requests dropped. -/
def blocked (m : Nat) (v : Dev) : Dev :=
  let v := v.modMaster m fun x => { x with draining := true, resets := satInc x.resets }
  { v with fabric := { v.fabric with waiting := v.fabric.waiting.filter fun q => q.1 != m } }

/-- The reset of master `m` at one target. -/
def resetAt (m : Nat) (v : Dev) (t : Nat) : Dev :=
  if (v.target t).parkedOn = some m || (v.target t).defaultMaster = m then
    v.modTarget t fun y => { y with parkedOn := if (v.master y.defaultMaster).draining then none else some y.defaultMaster
                                    drains := m :: y.drains }
  else v

/-- The reset of master `m` at every target. -/
def resetTargets (m : Nat) (v : Dev) : Dev := (List.range 20).foldl (resetAt m) (blocked m v)

/-- The consequence of a master reset for its unit (R177, R383, R462). -/
def unitReset (m : Nat) (v : Dev) : Dev := if m < 16 then v.cutCaptures (fun c => c / 32 == m) else if m = 49 then v.freezeFail else v

theorem resetMaster_eq (m cause : Nat) (v : Dev) : v.resetMaster m cause = unitReset m ((resetTargets m v).raise 4784 (cause * 256 + m)) := rfl

theorem fabric_freezeFail (v : Dev) : v.freezeFail.fabric = v.fabric := by
  unfold Dev.freezeFail
  split
  · rw [Dev.raise_fabric]
    unfold Dev.modStatic
    split <;> rfl
  · rfl

theorem srcs_freezeFail {src : Nat} (h : evFreeze ≠ src) (v : Dev) : smGet ({} : EvSrc) src v.freezeFail.ev.srcs = smGet {} src v.ev.srcs := by
  unfold Dev.freezeFail
  split
  · rw [srcs_raise_of_ne h]
    unfold Dev.modStatic
    split <;> rfl
  · rfl

theorem fabric_unitReset (m : Nat) (v : Dev) : (unitReset m v).fabric = v.fabric := by
  unfold unitReset
  split
  · rfl
  · split
    · exact fabric_freezeFail v
    · rfl

/-- The consequence for the unit leaves what EV.FABRIC.RESET has counted. -/
theorem srcs_unitReset (m : Nat) (v : Dev) : smGet ({} : EvSrc) 4784 (unitReset m v).ev.srcs = smGet {} 4784 v.ev.srcs := by
  unfold unitReset
  split
  · rfl
  · split
    · exact srcs_freezeFail (by decide) v
    · rfl

theorem fabric_resetMaster (m cause : Nat) (v : Dev) : (v.resetMaster m cause).fabric = (resetTargets m v).fabric := by
  rw [resetMaster_eq, fabric_unitReset, Dev.raise_fabric]

/-- A target as the reset of master `m` leaves it. -/
def parkAway (m : Nat) (masters : Nat → MasterSt) (y : TargetSt) : TargetSt :=
  if y.parkedOn = some m || y.defaultMaster = m then
    { y with parkedOn := if (masters y.defaultMaster).draining then none else some y.defaultMaster, drains := m :: y.drains }
  else y

section Reset
variable (m : Nat) (v : Dev)

theorem master_resetAt (t : Nat) : (resetAt m v t).master = v.master := by
  unfold resetAt
  split <;> rfl

theorem ev_resetAt (t : Nat) : (resetAt m v t).ev = v.ev := by
  unfold resetAt
  split <;> rfl

theorem waiting_resetAt (t : Nat) : (resetAt m v t).fabric.waiting = v.fabric.waiting := by
  unfold resetAt
  split <;> rfl

theorem target_resetAt (t p : Nat) : (resetAt m v t).target p = if t = p then parkAway m v.master (v.target p) else v.target p := by
  unfold resetAt
  rw [target_ite_modTarget]
  split
  · next h =>
    subst h
    rfl
  · rfl

theorem master_blocked (k : Nat) : (blocked m v).master k =
    if m = k then { v.master m with draining := true, resets := satInc (v.master m).resets } else v.master k :=
  master_modMaster v m k fun x => { x with draining := true, resets := satInc x.resets }

theorem draining_blocked (k : Nat) : ((blocked m v).master k).draining = true ↔ k = m ∨ (v.master k).draining = true := by
  rw [master_blocked]
  split
  · next h => simp only [h, true_or]
  · next h => simp only [Ne.symm h, false_or]

variable (cause : Nat)

theorem master_resetMaster (k : Nat) : (v.resetMaster m cause).master k = (blocked m v).master k := by
  have h : (v.resetMaster m cause).master = (resetTargets m v).master := by
    unfold Dev.master
    rw [fabric_resetMaster]
  rw [h, resetTargets, (target_foldl_range (master_resetAt m) (target_resetAt m) 20 _).1]

theorem target_resetMaster {p : Nat} (hp : p < 20) : (v.resetMaster m cause).target p = parkAway m (blocked m v).master (v.target p) := by
  have h : (v.resetMaster m cause).target = (resetTargets m v).target := by
    unfold Dev.target
    rw [fabric_resetMaster]
  rw [h, resetTargets, (target_foldl_range (master_resetAt m) (target_resetAt m) 20 _).2, if_pos hp]
  rfl

theorem waiting_resetMaster : (v.resetMaster m cause).fabric.waiting = v.fabric.waiting.filter fun q => q.1 != m := by
  rw [fabric_resetMaster, resetTargets, foldl_keeps (fun v => v.fabric.waiting) (waiting_resetAt m)]
  rfl

/-- A master reset is EV.FABRIC.RESET once more, with its cause and master (R382). -/
theorem count_resetMaster :
    (smGet ({} : EvSrc) 4784 (v.resetMaster m cause).ev.srcs).count = (smGet ({} : EvSrc) 4784 v.ev.srcs).count + 1 := by
  rw [resetMaster_eq, srcs_unitReset, count_raise, resetTargets, foldl_keeps Dev.ev (ev_resetAt m)]
  rfl

theorem lastDetail_resetMaster : (smGet ({} : EvSrc) 4784 (v.resetMaster m cause).ev.srcs).lastDetail = cause * 256 + m := by
  rw [resetMaster_eq, srcs_unitReset, lastDetail_raise]

/-- A port that is parked on the master, or has it as its default master, moves to its default master, unless that is in reset too. -/
theorem parkedOn_resetMaster {p : Nat} (hp : p < 20) (h : (v.target p).parkedOn = some m ∨ (v.target p).defaultMaster = m) :
    ((v.resetMaster m cause).target p).parkedOn =
      if (v.target p).defaultMaster = m ∨ (v.master (v.target p).defaultMaster).draining = true then none else some (v.target p).defaultMaster := by
  rw [target_resetMaster m v cause hp, parkAway, if_pos (by simpa only [Bool.or_eq_true, decide_eq_true_eq] using h)]
  exact ite_congr (propext (draining_blocked m v _)) (fun _ => rfl) fun _ => rfl

end Reset

/-! ### Ends of drains (R382, R398) -/

/-- A target as the end of the drain of master `m` leaves it. -/
def parkBack (m : Nat) (y : TargetSt) : TargetSt :=
  if y.drains.contains m then
    { y with drains := y.drains.filter (· != m)
             parkedOn := if y.parkedOn.isNone && (y.drains.filter (· != m)).isEmpty then some y.defaultMaster else y.parkedOn }
  else y

/-- The end of the drain of master `m` at one target. -/
def drainedAt (m : Nat) (v : Dev) (t : Nat) : Dev :=
  if (v.target t).drains.contains m then
    v.modTarget t fun y => { y with
      drains := (v.target t).drains.filter (· != m)
      parkedOn := if y.parkedOn.isNone && ((v.target t).drains.filter (· != m)).isEmpty then some y.defaultMaster else y.parkedOn }
  else v

section Drain
variable (m : Nat) (v : Dev)

theorem master_drainedAt (t : Nat) : (drainedAt m v t).master = v.master := by
  unfold drainedAt
  split <;> rfl

theorem target_drainedAt (t p : Nat) : (drainedAt m v t).target p = if t = p then parkBack m (v.target p) else v.target p := by
  unfold drainedAt
  rw [target_ite_modTarget]
  split
  · next h =>
    subst h
    rfl
  · rfl

variable {v}

theorem drained_of_draining (h : (v.master m).draining = true) :
    v.drained m = (List.range 20).foldl (drainedAt m) (v.modMaster m fun x => { x with draining := false }) := if_pos h

theorem master_drained (h : (v.master m).draining = true) : (v.drained m).master m = { v.master m with draining := false } := by
  rw [drained_of_draining m h, (target_foldl_range (F := fun _ => parkBack m) (master_drainedAt m) (target_drainedAt m) 20 _).1,
    master_modMaster, if_pos rfl]

/-- A port that the drain alone left unparked parks on its default master. -/
theorem parkedOn_drained (h : (v.master m).draining = true) {p : Nat} (hp : p < 20) (hd : (v.target p).drains = [m])
    (hn : (v.target p).parkedOn = none) : ((v.drained m).target p).parkedOn = some (v.target p).defaultMaster := by
  rw [drained_of_draining m h, (target_foldl_range (F := fun _ => parkBack m) (master_drainedAt m) (target_drainedAt m) 20 _).2, if_pos hp,
    target_modMaster]
  have hleft : [m].filter (· != m) = [] := by
    simp only [List.filter_cons, bne_self_eq_false, Bool.false_eq_true, if_false, List.filter_nil]
  simp only [parkBack, hd, hn, hleft, List.contains_cons, beq_self_eq_true, Bool.true_or, if_true,
    Option.isNone_none, List.isEmpty_nil, Bool.and_self]

end Drain

/-- Settles O29, happening by happening: the two instants of BUDGET_WINDOW, and what each work leaves in the fabric. -/
theorem fabricHappeningsRun : Obligations.FabricHappeningsRun := by
  intro s t hm
  refine ⟨?window, fun m c => ⟨?reset, fun v => ?away⟩,
    fun m => ⟨?drain, fun v hv => ⟨master_drained m hv, fun p => parkedOn_drained m hv⟩⟩, fun m p => ?late, fun p o bad => ?scrub⟩
  case window =>
    obtain ⟨early, acts⟩ := actsAt_budgetWindow t hm
    refine ⟨acts, early, fun v => ⟨windowOpened v, budgetWindow_eq v, rfl, rfl, fun m hlt => ?_⟩⟩
    rw [master_windowOpened v hlt]
    refine ⟨rfl, fun p hp => ⟨getD_allBudgets v m hp, ?_⟩⟩
    rw [getD_credit_window _ hp, getD_allBudgets v m hp]
  case reset | drain | late | scrub => exact congrArg Host.Outcome.next (arrive_onDev_congr (if_pos hm))
  case away =>
    intro w
    have hmaster : w.master m = _ := (master_resetMaster m v c m).trans ((master_blocked m v m).trans (if_pos rfl))
    refine ⟨(congrArg MasterSt.draining hmaster :), (congrArg MasterSt.resets hmaster :), (congrArg MasterSt.budget hmaster :),
      (congrArg MasterSt.credit hmaster :), fun q hq => ?_, count_resetMaster m v c, lastDetail_resetMaster m v c,
      fun p hp => parkedOn_resetMaster m v c hp⟩
    rw [waiting_resetMaster] at hq
    exact bne_iff_ne.mp (List.mem_filter.mp hq).2

end Sys2Proof.Proofs
end

section
/-! Proofs of the statements about the step and the reception of datagrams (files 01 and 13). -/
namespace Sys2Proof.Proofs
open Sys2Proof Sys2Proof.Machine Sys2Proof.Laws

/-! ### The step (R419) -/

/-- Settles O1: the queue is taken apart at its front. -/
theorem stepRunsTheFrontCommand : Obligations.StepRunsTheFrontCommand := fun _ _ _ => rfl

theorem step_of_idle {s : State} (h : s.pending = []) : step s = .next s := by
  rw [step, h]

/-- Settles O2: without a command at the front there is nothing to run. -/
theorem emptyQueueIdles : Obligations.EmptyQueueIdles := fun _ => step_of_idle

/-- Settles O6: an empty queue idles, and the front command keeps the rest of the queue. -/
theorem everyStepTakesOneCommand : Obligations.EveryStepTakesOneCommand := by
  intro s
  cases hq : s.pending with
  | nil => exact ⟨s, step_of_idle hq, hq⟩
  | cons i r =>
    obtain ⟨u, hu, hkept, -⟩ := keepsNext_exec i { s with pending := r }
    refine ⟨u, ?_, hkept⟩
    rw [step, hq]
    exact hu

end Sys2Proof.Proofs
end

section
/-! Proofs of the statements about the reception of datagrams, their replies and the lease (file 13). -/
namespace Sys2Proof.Proofs
open Sys2Proof Sys2Proof.Machine Sys2Proof.Laws

/-! ### What receives a datagram (R408, R411) -/

/-- Every row but those of STREAM.STATUS serves the datagram of its command as it came. -/
theorem exec_eq_serve_self {i : Instr} {r : OpRow} {d : Datagram} {f : Effect} (h : command i = some (r, d, f))
    (hi : ∀ t d, i ≠ .streamStatusIngress t d ∧ i ≠ .streamStatusEgress t d) (s : State) : ∃ t, exec i s = .next (serve r i t d f s) := by
  cases i with
  | streamStatusIngress t d => exact absurd rfl (hi t d).1
  | streamStatusEgress t d => exact absurd rfl (hi t d).2
  | _ => cases h <;> exact ⟨_, rfl⟩

theorem serve_of_serving {s : State} (h : s.dev.Serving) (r : OpRow) (i : Instr) (t : Nat) (d : Datagram) (f : Effect) :
    serve r i t d f s = receive r i f (r.apply d) ((s.arrive t).onDev Dev.countRx) := by
  obtain ⟨hphase, hdead, hcore⟩ := h
  simp only [serve, beq_eq_false_iff_ne.mpr hphase, hdead, hcore, Bool.or_self, Bool.not_true, Bool.false_eq_true, if_false]

/-- Settles O8: every row serves its own datagram, and a device that answers Daond neither drops it nor lets it wait in the receive queue. -/
theorem everyDatagramIsScreened : Obligations.EveryDatagramIsScreened := by
  intro i r d f s h hs hi
  obtain ⟨t, e⟩ := exec_eq_serve_self h hi s
  exact ⟨t, by rw [e, serve_of_serving hs]⟩

/-! ### Steps 1 to 5 of R411 -/

section Header
variable {r : OpRow} {d : Datagram} {v : Dev}

theorem screen_of_headerCheck {f : Fail} (hc : isCommand d v = true) (h : headerCheck r.code d = some f) : screen r d v = .reject f := by
  simp only [screen, hc, h, Bool.not_true, Bool.false_eq_true, if_false]

theorem screen_of_no_lease (hc : isCommand d v = true) (h : headerCheck r.code d = none) (hl : r.lease d.params = true)
    (hu : underLease r.code d v = false) : screen r d v = .reject { status := .noLease, opIndex := 0xFFFF } := by
  simp only [screen, hc, h, hl, hu, Bool.not_true, Bool.not_false, Bool.and_self, Bool.false_eq_true, if_false, if_true]

theorem headerCheck_of_version {code : Nat} (h : d.version ≠ 1) : headerCheck code d = some { status := .badVersion, opIndex := 0xFFFF } :=
  if_pos (bne_iff_ne.mpr h)

theorem headerCheck_of_length {code : Nat} (hv : d.version = 1) (h : d.paramLen > 8960 ∨ d.paramLen ≠ d.params.length) :
    headerCheck code d = some { status := .badLength, opIndex := 0xFFFF } := by
  have hb : (decide (d.paramLen > 8960) || d.paramLen != d.params.length) = true := by
    rwa [Bool.or_eq_true, decide_eq_true_eq, bne_iff_ne]
  simp only [headerCheck, hv, bne_self_eq_false, Bool.false_eq_true, if_false, hb, if_true]

/-- What R409 forbids in the flags, the status and the reserved bytes of a command, as the check reads it. -/
theorem flags_bad_iff (code : Nat) (d : Datagram) :
    (decide (d.flags ≥ 16) || bit d.flags 3 || (bit d.flags 2 != (code == 0x1001)) || d.status != 0 || d.rsvd != 0) = true ↔
      d.flags ≥ 16 ∨ bit d.flags 3 = true ∨ bit d.flags 2 ≠ (code == 0x1001) ∨ d.status ≠ 0 ∨ d.rsvd ≠ 0 := by
  simp only [Bool.or_eq_true, decide_eq_true_eq, bne_iff_ne, or_assoc]

theorem headerCheck_of_good_length {code : Nat} (hv : d.version = 1) (hl : ¬(d.paramLen > 8960 ∨ d.paramLen ≠ d.params.length)) :
    headerCheck code d = if d.flags ≥ 16 ∨ bit d.flags 3 = true ∨ bit d.flags 2 ≠ (code == 0x1001) ∨ d.status ≠ 0 ∨ d.rsvd ≠ 0
      then some { status := .badParam, opIndex := 0xFFFF } else none := by
  have hb : ¬ (decide (d.paramLen > 8960) || d.paramLen != d.params.length) = true := by
    rwa [Bool.or_eq_true, decide_eq_true_eq, bne_iff_ne]
  simp only [headerCheck, hv, bne_self_eq_false, Bool.false_eq_true, if_false, if_neg hb, flags_bad_iff]

end Header

/-- Settles O9, step by step: each check is met only after those before it have passed. -/
theorem headerChecksComeFirst : Obligations.HeaderChecksComeFirst := by
  intro r d v hc no lenBad flagBad
  refine ⟨fun hv => ?version, fun hv hl => ?length, fun hv hl hf => ?flags, fun hv hl hf hlease hu => ?lease⟩
  case version => exact screen_of_headerCheck hc (headerCheck_of_version hv)
  case length => exact screen_of_headerCheck hc (headerCheck_of_length hv hl)
  case flags => exact screen_of_headerCheck hc ((headerCheck_of_good_length hv hl).trans (if_pos hf))
  case lease => exact screen_of_no_lease hc ((headerCheck_of_good_length hv hl).trans (if_neg hf)) hlease hu

/-! ### Step 6 of R411: sequences and the reply cache (R412, R413) -/

/-- A sequence at most 255 back from the newest is not ahead of it. -/
theorem not_ahead_of_back {n s : U32} (h : (n - s).toNat ≤ 255) : ¬ (1 ≤ (s - n).toNat ∧ (s - n).toNat ≤ 0x7FFFFFFF) := by
  have hn := n.isLt
  have hs := s.isLt
  rw [BitVec.toNat_sub] at *
  omega

theorem classify_answered {l : Lease} {s : U32} {rep : Reply} (hr : l.running.contains s = false) (hb : (l.newest - s).toNat ≤ 255)
    (hf : l.cache.find? (fun e => e.1 == s) = some (s, rep)) : classify l s = .answered rep := by
  have ha := not_ahead_of_back hb
  simp only [classify, hr, Bool.false_eq_true, if_false, Bool.and_eq_true, decide_eq_true_eq, if_neg ha, if_pos hb, hf]

theorem screen_of_answered {r : OpRow} {d : Datagram} {v : Dev} {l : Lease} {rep : Reply} (hc : isCommand d v = true)
    (hh : headerCheck r.code d = none) (hl : v.daond.lease = some l) (hu : underLease r.code d v = true)
    (ha : classify l d.sequence = .answered rep) : screen r d v = .resend rep := by
  simp only [screen, hc, hh, hl, hu, ha, Bool.not_true, Bool.and_false, Bool.false_eq_true, if_false, if_true]

/-- Settles O10: the sequence is of the answered class, and a resend touches two counters and the outputs. -/
theorem cachedReplyIsResent : Obligations.CachedReplyIsResent := by
  intro i r d f s l rep h hi hs hc hh hl hu hr hb hf
  obtain ⟨t, e⟩ := exec_eq_serve_self h hi s
  have hscreen : screen r (r.apply d) ((s.arrive t).onDev Dev.countRx).dev = .resend rep := by
    rw [screen_arrive]
    exact screen_of_answered hc hh hl hu (classify_answered hr hb hf)
  refine ⟨t, ?_⟩
  rw [e, serve_of_serving hs, receive, hscreen]
  rfl

/-! ### Replies (R410, R413, R414) -/

/-- A reply that leaves changes the Daond engine and the outputs alone, and is among the outputs. -/
theorem answer_eq (r : Reply) (v : Dev) : ∃ q o, v.answer r = { v with daond := q, out := o } ∧ Output.reply r ∈ o := by
  have hlast : Output.reply r ∈ v.out ++ [Output.reply r] := List.mem_append_right _ List.mem_cons_self
  unfold Dev.answer
  dsimp only
  split
  · split
    · exact ⟨_, _, rfl, List.mem_append_left _ hlast⟩
    · exact ⟨_, _, rfl, hlast⟩
  · exact ⟨_, _, rfl, hlast⟩

/-- Settles O12: concluding with a status and parameters answers the reply of R410. -/
theorem replyLeavesAndNothingElseChanges : Obligations.ReplyLeavesAndNothingElseChanges := by
  intro s r t d f a st p m ha
  obtain ⟨q, o, hanswer, hmem⟩ := answer_eq (replyTo r.code s.me (r.apply d) st p m) (f (s.begun r t d).dev)
  obtain ⟨l, hbegun⟩ := begun_eq r t d s
  refine ⟨q, o, ?_, hmem, l, congrArg State.dev hbegun⟩
  calc s.served r t d f a
    _ = { s.begun r t d with dev := (f (s.begun r t d).dev).answer (replyTo r.code s.me (r.apply d) st p m) } := by
      simp only [State.served, State.answered, State.onDev, ha, Dev.conclude]
    _ = { s with dev := { f (s.begun r t d).dev with daond := q, out := o } } := by
      rw [hanswer, hbegun]

/-! ### Tags (R417) -/

/-- The tags that a draw tries: seventeen in a row, from the drawn one on. -/
def tagsTried (draw : Nat) : List Nat := (List.range 17).map fun k => (Config.leaseTag draw % 0xFFFE + k) % 0xFFFE + 1

theorem nodup_tagsTried (draw : Nat) : (tagsTried draw).Nodup := by
  refine List.Nodup.map_on (fun x hx y hy h => ?_) List.nodup_range
  rw [List.mem_range] at hx hy
  omega

/-- Seventeen different tags are not all among sixteen. -/
theorem exists_tagsTried_not_mem (draw : Nat) {old : List Nat} (h : old.length ≤ 16) : ∃ x ∈ tagsTried draw, x ∉ old := by
  by_contra hall
  have hsub : tagsTried draw ⊆ old := fun x hx => by_contra fun hn => hall ⟨x, hx, hn⟩
  have hlen := ((nodup_tagsTried draw).subperm hsub).length_le
  rw [tagsTried, List.length_map, List.length_range] at hlen
  omega

theorem mem_tagsTried_bounds {draw x : Nat} (h : x ∈ tagsTried draw) : 1 ≤ x ∧ x ≤ 0xFFFE := by
  obtain ⟨k, -, rfl⟩ := List.mem_map.mp h
  omega

/-- Settles O13: the search among the tags tried finds one that is none of the old ones. -/
theorem leaseTagIsFresh : Obligations.LeaseTagIsFresh := by
  intro draw old h
  obtain ⟨x, hx, hold⟩ := exists_tagsTried_not_mem draw h
  cases hf : (tagsTried draw).find? (fun x => !old.contains x) with
  | none => exact absurd (List.find?_eq_none.mp hf x hx) (by simpa using hold)
  | some y =>
    have hpick : pickTag draw old = y := congrArg (Option.getD · 1) hf
    have hfresh : (!old.contains y) = true := List.find?_some (p := fun x => !old.contains x) hf
    obtain ⟨hlow, hhigh⟩ := mem_tagsTried_bounds (List.mem_of_find?_eq_some hf)
    rw [hpick]
    exact ⟨hlow, hhigh, by simpa using hfresh⟩

end Sys2Proof.Proofs
end

section
/-! Proofs of the statements about the SYS. commands and the lease (file 13). -/
namespace Sys2Proof.Proofs
open Sys2Proof Sys2Proof.Machine Sys2Proof.Laws

/-! ### The lease when the work of a command begins (R412, R417) -/

/-- A change of a lease record that leaves its tag and its holder. -/
def SameHolder (g : Lease → Lease) : Prop := ∀ l, (g l).tag = l.tag ∧ (g l).addr = l.addr ∧ (g l).port = l.port

theorem sameHolder_id : SameHolder id := fun _ => ⟨rfl, rfl, rfl⟩

theorem passSeq_lease (code : Nat) (d : Datagram) (v : Dev) :
    ∃ g, SameHolder g ∧ (v.passSeq code d).daond.lease = v.daond.lease.map g := by
  unfold Dev.passSeq
  split
  · next l hl =>
    split
    · exact ⟨fun x => x.pass d.sequence (classify l d.sequence == .fresh) v.clk.now, fun _ => ⟨rfl, rfl, rfl⟩, by rw [hl]; rfl⟩
    · exact ⟨id, sameHolder_id, (Option.map_id_apply).symm⟩
  · exact ⟨id, sameHolder_id, (Option.map_id_apply).symm⟩

/-- The work of a command begins with the lease of before: the same tag, and the same holder. -/
theorem begun_lease (r : OpRow) (t : Nat) (d : Datagram) (s : State) :
    ∃ g, SameHolder g ∧ (s.begun r t d).dev.daond.lease = s.dev.daond.lease.map g := passSeq_lease ..

/-! ### The work of SYS.LEASE (R416 to R418) -/

section Work
variable {d : Datagram} {s : State}

theorem endLease_of_none {why : Nat} {v : Dev} (h : v.daond.lease = none) : v.endLease why = v := by
  rw [Dev.endLease, h]

/-- The grant of an acquire for `n` seconds (R417). -/
def acquire (d : Datagram) (n : Nat) (v : Dev) : Dev := (v.endLease 3).grantLease d.addr d.port (if n = 0 then 5 else n) d.sequence

section Acquire
variable (hb : leaseBad true d.params = none) (ht : d.leaseTag = 0)
include hb ht

theorem sysLeaseAcquireEff_granted (ho : ∀ l, s.dev.daond.lease = some l → l.addr = d.addr ∧ l.port = d.port) :
    sysLeaseAcquireEff d s = (s.onDev (acquire d (fieldU d.params 2 2)), .ok (leaseRecord (acquire d (fieldU d.params 2 2) s.dev))) := by
  unfold sysLeaseAcquireEff
  simp only [hb, ht, bne_self_eq_false, Bool.false_eq_true, if_false]
  split
  · next l hl =>
    obtain ⟨ha, hp⟩ := ho l hl
    simp only [ha, hp, beq_self_eq_true, Bool.and_self, if_true]
    rfl
  · next hn => simp only [State.onDev, acquire, endLease_of_none hn]

theorem sysLeaseAcquireEff_refused {l : Lease} (hl : s.dev.daond.lease = some l) (ho : l.addr ≠ d.addr ∨ l.port ≠ d.port) :
    sysLeaseAcquireEff d s = (s.onDev fun v => v, .fail (busyWith 16 l.tag)) := by
  have hother : ¬ (l.addr == d.addr && l.port == d.port) = true := by
    rw [Bool.and_eq_true, beq_iff_eq, beq_iff_eq]
    omega
  simp only [sysLeaseAcquireEff, hb, ht, hl, bne_self_eq_false, Bool.false_eq_true, if_false, if_neg hother, onDev_id]

end Acquire

/-- A renew for `n` seconds, 0 for no change (R416, R417). -/
def renew (n : Nat) (v : Dev) : Dev :=
  { v with daond := { v.daond with lease := v.daond.lease.map fun l =>
    { l with restartedAt := v.clk.now, timeoutS := if n = 0 then l.timeoutS else n } } }

theorem sysLeaseRenewEff_good (hb : leaseBad true d.params = none) :
    sysLeaseRenewEff d s = (s.onDev (renew (fieldU d.params 2 2)), .ok (leaseRecord (renew (fieldU d.params 2 2) s.dev))) := by
  simp only [sysLeaseRenewEff, hb]
  rfl

theorem sysLeaseReleaseEff_good (hb : leaseBad false d.params = none) : sysLeaseReleaseEff d s = (s.onDev (Dev.endLease 1), .ok []) := by
  simp only [sysLeaseReleaseEff, hb]

theorem sysLeaseReadEff_good (hb : leaseBad false d.params = none) :
    sysLeaseReadEff d s = (s.onDev fun v => v, .ok (leaseRecord s.dev)) := by
  simp only [sysLeaseReadEff, hb, onDev_id]

theorem sysNetReadEff_good
    (hb : firstBad [⟨7, 1, .reserved, []⟩, ⟨13, 3, .reserved, []⟩, ⟨41, 7, .reserved, []⟩, ⟨70, 2, .reserved, []⟩] d.params = none) :
    sysNetReadEff d s = (s.onDev fun v => v, .ok (netRecord s.dev)) := by
  simp only [sysNetReadEff, hb, onDev_id]

/-- Network settings are stored and brought into force (R406, R489). -/
def setNet (n : NetCfg) (v : Dev) : Dev := (v.changeSettings fun x => { x with network := n }).netApply n

theorem sysNetSetEff_good (hb : netBad d.params = none) : sysNetSetEff d s = (s.onDev (setNet (readNetCfg d.params 0)), .ok []) := by
  simp only [sysNetSetEff, hb]
  rfl

end Work

/-- Settles O14: each form serves its row, and the lease that its work finds has the tag and the holder of before. -/
theorem leaseCommandsChangeTheLease : Obligations.LeaseCommandsChangeTheLease := by
  intro s t d
  obtain ⟨g, hg, hlease⟩ := begun_lease sysLeaseAcquireRow t d s
  refine ⟨fun ha hb ht ho => ?granted, fun ha hb ht l hl ho => ?refused, fun ha hb => ?renewed, fun ha hb => ?released⟩
  case granted =>
    refine next_served_read (fun v => .ok (leaseRecord (acquire d _ v))) rfl ha (sysLeaseAcquireEff_granted hb ht fun l hl => ?_)
    obtain ⟨x, hx, rfl⟩ := Option.map_eq_some_iff.mp (hlease.symm.trans hl)
    obtain ⟨-, haddr, hport⟩ := hg x
    rw [haddr, hport]
    exact ho x hx
  case refused =>
    obtain ⟨htag, haddr, hport⟩ := hg l
    rw [← htag]
    exact next_served rfl ha (sysLeaseAcquireEff_refused hb ht (l := g l) (by rw [hlease, hl]; rfl) (by rw [haddr, hport]; exact ho))
  case renewed => exact next_served_read (fun v => .ok (leaseRecord (renew _ v))) rfl ha (sysLeaseRenewEff_good hb)
  case released => exact next_served rfl ha (sysLeaseReleaseEff_good hb)

/-- Settles O15: the work of each read is its reply. -/
theorem systemReadsAnswer : Obligations.SystemReadsAnswer := by
  intro s t d
  refine ⟨fun ha => ?info, fun ha => ?ping, fun ha hb => ?lease, fun ha hb => ?net⟩
  case info => exact next_served_read (fun v => .ok (infoRecord v)) rfl ha rfl
  case ping => exact next_served_read (fun v => .ok (d.params ++ timeBytes v.nowU)) rfl ha rfl
  case lease => exact next_served_read (fun v => .ok (leaseRecord v)) rfl ha (sysLeaseReadEff_good hb)
  case net => exact next_served_read (fun v => .ok (netRecord v)) rfl ha (sysNetReadEff_good hb)

/-! ### Network settings (R406) -/

/-- The network settings in force, and the settings store. -/
def netAndStore (v : Dev) : NetCfg × SettingsSt := (v.daond.net.cfg, v.settings)

theorem netAndStore_setIpv4 (a : Nat) (v : Dev) : netAndStore (v.setIpv4 a) = netAndStore v := by
  unfold Dev.setIpv4
  split <;> rfl

theorem netAndStore_setIpv6 (a : Nat) (v : Dev) : netAndStore (v.setIpv6 a) = netAndStore v := by
  unfold Dev.setIpv6
  split <;> rfl

theorem netAndStore_emit (o : Output) (v : Dev) : netAndStore (v.emit o) = netAndStore v := rfl

theorem netAndStore_netApply (n : NetCfg) (v : Dev) : netAndStore (v.netApply n) = (n, v.settings) := by
  unfold Dev.netApply
  simp only [apply_ite netAndStore, netAndStore_emit, netAndStore_setIpv4, netAndStore_setIpv6, ite_self]
  rfl

/-- Settles O16: the addresses that come into use change neither the settings in force nor the settings store. -/
theorem networkSettingsComeIntoForce : Obligations.NetworkSettingsComeIntoForce := by
  intro s t d ha hb
  refine ⟨next_served rfl ha (sysNetSetEff_good hb), fun v => ?_⟩
  have h := netAndStore_netApply (readNetCfg (sysNetSetRow.apply d).params 0)
    (v.changeSettings fun x => { x with network := readNetCfg (sysNetSetRow.apply d).params 0 })
  have hstore := congrArg Prod.snd h
  exact ⟨congrArg Prod.fst h, congrArg (fun x : SettingsSt => x.live.network) hstore, congrArg SettingsSt.pending hstore⟩

end Sys2Proof.Proofs
end

section
/-! Proofs of the statements about queries (files 13 and 14). -/
namespace Sys2Proof.Proofs
open Sys2Proof Sys2Proof.Machine Sys2Proof.Laws

/-! ### Streams inside a bond (R17) -/

@[simp] theorem begun_streamInside (r : OpRow) (t : Nat) (d : Datagram) (s : State) (dir n off : Nat) :
    (s.begun r t d).dev.streamInside dir n off = s.dev.streamInside dir n off := by
  obtain ⟨l, h⟩ := begun_eq r t d s
  rw [h]
  rfl

/-! ### What a query answers (R435) -/

section Query
variable {s : State} {t : Nat} {d : Datagram} {i j : Instr} {r : OpRow} {eff : Effect} {units size : Nat} {egress : Bool}
  {record : Nat → Dev → List Byte} {clear : Nat → Dev → Dev}

/-- What an admitted command comes to that is served as the command `j`, which differs from `i` in the rows of STREAM.STATUS. -/
theorem exec_served {f : Dev → Dev} (a : Dev → Answer) (e : exec i s = .next (serve r j t d eff s)) (ha : s.Admits r d)
    (h : eff (r.apply d) (s.begun r t d) = ((s.begun r t d).onDev f, a (s.begun r t d).dev)) : exec i s = .next (s.served r t d f a) :=
  e.trans (congrArg Host.Outcome.next (serve_served f a ha h))

/-- A command whose work comes to that of a query answers the records of its range. -/
theorem exec_of_query (e : exec i s = .next (serve r j t d eff s))
    (he : eff (r.apply d) (s.begun r t d) = query units size egress record clear (r.apply d) (s.begun r t d))
    (ha : s.Admits r d) (hq : queryOk units egress (r.apply d).params) :
    exec i s = .next (s.served r t d (queryClear size clear (r.apply d).params) (queryAnswer size record (r.apply d).params)) :=
  exec_served (queryAnswer size record _) e ha (he.trans (query_ok hq))

theorem exec_query (e : exec i s = .next (serve r j t d (query units size egress record clear) s)) (ha : s.Admits r d)
    (hq : queryOk units egress (r.apply d).params) :
    exec i s = .next (s.served r t d (queryClear size clear (r.apply d).params) (queryAnswer size record (r.apply d).params)) :=
  exec_of_query e rfl ha hq

end Query

/-! ### The work of the queries of streams, routes and probes (R143, R156, R440, R463) -/

section Work
variable {d : Datagram} {s : State}

theorem routeStatusEff_outside (h : s.dev.streamInside 1 (fieldU d.params 0 2) 0 = none) :
    routeStatusEff d s = query 512 36 false routeRecord (fun _ v => v) d s := by
  simp only [routeStatusEff, h]

theorem routeStatusEff_inside {f : Fail} (h : s.dev.streamInside 1 (fieldU d.params 0 2) 0 = some f) :
    routeStatusEff d s = (s.onDev fun v => v, .fail f) := by
  simp only [routeStatusEff, h, onDev_id]

theorem streamStatusEff_ingress (hb : bit (fieldU d.params 2 1) 1 = false) (h : s.dev.streamInside 0 (fieldU d.params 0 2) 0 = none) :
    streamStatusEff d s = query 512 128 true ingressRecord ingressClear d s := by
  simp only [streamStatusEff, hb, b01, Bool.false_eq_true, if_false, h]

theorem streamStatusEff_egress (hb : bit (fieldU d.params 2 1) 1 = true) (h : s.dev.streamInside 1 (fieldU d.params 0 2) 0 = none) :
    streamStatusEff d s = query 512 40 true egressRecord egressClear d s := by
  simp only [streamStatusEff, hb, b01, if_true, h]

theorem streamStatusEff_inside {f : Fail} (hb : bit (fieldU d.params 2 1) 1 = false)
    (h : s.dev.streamInside 0 (fieldU d.params 0 2) 0 = some f) : streamStatusEff d s = (s.onDev fun v => v, .fail f) := by
  simp only [streamStatusEff, hb, b01, Bool.false_eq_true, if_false, h, onDev_id]

theorem probeStatusEff_outside (h : s.dev.streamInside (b01 (bit (fieldU d.params 2 1) 1)) (fieldU d.params 0 2) 0 = none) :
    probeStatusEff d s =
      query 512 160 true (probeRecord (b01 (bit (fieldU d.params 2 1) 1))) (probeClear (b01 (bit (fieldU d.params 2 1) 1))) d s := by
  simp only [probeStatusEff, h]

theorem probeStatusEff_inside {f : Fail} (h : s.dev.streamInside (b01 (bit (fieldU d.params 2 1) 1)) (fieldU d.params 0 2) 0 = some f) :
    probeStatusEff d s = (s.onDev fun v => v, .fail f) := by
  simp only [probeStatusEff, h, onDev_id]

end Work

/-- Settles O17: the work of each row is the query of its units, that of ROUTE.STATUS where the first stream is inside no bond. -/
theorem queriesAnswerTheirRecords : Obligations.QueriesAnswerTheirRecords := by
  intro s t d reads
  have inside := begun_streamInside routeStatusRow t d s
  exact ⟨exec_query rfl, fun h => exec_of_query rfl (routeStatusEff_outside ((inside 1 _ 0).trans h)), exec_query rfl, exec_query rfl,
    exec_query rfl, exec_query rfl, exec_query rfl, exec_query rfl, exec_query rfl, exec_query rfl, exec_query rfl, exec_query rfl⟩

/-- Settles O18: the bit of the flags selects the query, and R17 is judged first. -/
theorem streamAndProbeQueriesAnswer : Obligations.StreamAndProbeQueriesAnswer := by
  intro s t d di de dir
  refine ⟨fun ha hq hb h => ?ingress, fun ha hq hb h => ?egress, fun ha hb f h => ?ingressInside, fun ha hq h => ?probe,
    fun ha f h => ?probeInside, fun ha f h => ?routeInside⟩
  case ingress => exact exec_of_query rfl (streamStatusEff_ingress hb ((begun_streamInside ..).trans h)) ha hq
  case egress => exact exec_of_query rfl (streamStatusEff_egress hb ((begun_streamInside ..).trans h)) ha hq
  case ingressInside => exact exec_served (fun _ => .fail f) rfl ha (streamStatusEff_inside hb ((begun_streamInside ..).trans h))
  case probe => exact exec_of_query rfl (probeStatusEff_outside ((begun_streamInside ..).trans h)) ha hq
  case probeInside => exact next_served rfl ha (probeStatusEff_inside ((begun_streamInside ..).trans h))
  case routeInside => exact next_served rfl ha (routeStatusEff_inside ((begun_streamInside ..).trans h))

end Sys2Proof.Proofs
end

section
/-! Proofs of the statements about transactions, commits and timers (file 13). -/
namespace Sys2Proof.Proofs
open Sys2Proof Sys2Proof.Machine Sys2Proof.Laws

/-! ### What serving leaves of the transactions -/

@[simp] theorem begun_open (r : OpRow) (t : Nat) (d : Datagram) (s : State) : (s.begun r t d).dev.daond.open_ = s.dev.daond.open_ := by
  obtain ⟨l, h⟩ := begun_eq r t d s
  rw [h]

@[simp] theorem begun_prepared (r : OpRow) (t : Nat) (d : Datagram) (s : State) :
    (s.begun r t d).dev.daond.prepared = s.dev.daond.prepared := by
  obtain ⟨l, h⟩ := begun_eq r t d s
  rw [h]

/-- A row sets bytes of the parameters, and adds none. -/
theorem length_apply (r : OpRow) (d : Datagram) : (r.apply d).params.length = d.params.length := by
  unfold OpRow.apply
  generalize r.fix = fix
  induction fix generalizing d with
  | nil => rfl
  | cons e es ih =>
    rw [List.foldl_cons]
    split
    · exact (ih { d with params := d.params.set e.1 e.2 }).trans List.length_set
    · exact ih d

/-- What an admitted command comes to, when its work makes `u` of the state and answers `a`. -/
theorem next_answered {r : OpRow} {i : Instr} {t : Nat} {d : Datagram} {eff : Effect} {s u : State} {a : Answer}
    (e : exec i s = .next (serve r i t d eff s)) (ha : s.Admits r d) (h : eff (r.apply d) (s.begun r t d) = (u, a)) :
    exec i s = .next (u.answered r s.me d a) := by
  rw [e, serve_run r i t d eff s ha, runEffect_answered r eff t d s u a h]

/-! ### Admission as one operation (R43, R425, R426) -/

/-- The state after the commit of `n` operations that admission found to be `us` has joined the queue. -/
def queued (e n : Nat) (us : List UnitOp) (s : State) : State := s.onDev fun v => v.countAdmission.enqueue (s.dev.newCommit e n us)

section Admission
variable {e : Nat} {os : List StagedOp} {s s1 : State}

theorem admitAt_ok {us : List UnitOp} (st : Status) (h : admitOps e true os s = (s1, .ok us)) :
    admitAt e st os s = (queued e os.length us s1, .done st (commitRecord (s1.dev.newCommit e os.length us) e) false) := by
  simp only [admitAt, h, queued]

theorem admitAt_error {f : Fail} (st : Status) (h : admitOps e true os s = (s1, .error f)) : admitAt e st os s = (s1, .fail f) := by
  simp only [admitAt, h]

/-- Admission that fails leaves the configuration, memory, the commits and the prepared transactions as they were. -/
theorem admitOps_keeps {search : Bool} {x : Except Fail (List UnitOp)} (h : admitOps e search os s = (s1, x)) :
    s1.dev.cfg = s.dev.cfg ∧ s1.mem = s.mem ∧ s1.dev.daond = s.dev.daond := by
  have hsame := admitOps_same e search os s
  rw [h] at hsame
  obtain ⟨y, z, rfl⟩ := hsame
  exact ⟨rfl, rfl, rfl⟩

end Admission

/-- What a row of a staged family does with an operation sent alone (R426). -/
def RunsAlone (s : State) (t : Nat) (d : Datagram) (i : Instr) (r : OpRow) (code : Nat) : Prop := s.Admits r d →
  let b := s.begun r t d
  let e := settleU + b.dev.nowU
  let os : List StagedOp := [{ code := code, params := (r.apply d).params }]
  (∀ s1 us, admitOps e true os b = (s1, .ok us) →
    exec i s = .next ((queued e 1 us s1).answered r s.me d (.done .ok (commitRecord (s1.dev.newCommit e 1 us) e) false))) ∧
  ∀ s1 f, admitOps e true os b = (s1, .error f) → exec i s = .next (s1.answered r s.me d (.fail f)) ∧ s1.dev.cfg = s.dev.cfg ∧
    s1.mem = s.mem ∧ s1.dev.daond.commits = s.dev.daond.commits ∧ s1.dev.daond.prepared = s.dev.daond.prepared ∧
    s1.dev.daond.generation = s.dev.daond.generation

theorem runsAlone {s : State} {t : Nat} {d : Datagram} {i : Instr} {r : OpRow} {code : Nat}
    (e : exec i s = .next (serve r i t d (stagedEff code) s)) : RunsAlone s t d i r code := by
  intro ha b u os
  obtain ⟨l, hbegun⟩ := begun_eq r t d s
  refine ⟨fun s1 us h => next_answered e ha (admitAt_ok .ok h), fun s1 f h => ⟨next_answered e ha (admitAt_error .ok h), ?_⟩⟩
  obtain ⟨hcfg, hmem, hdaond⟩ := admitOps_keeps h
  rw [hcfg, hmem, hdaond, show b = _ from hbegun]
  exact ⟨rfl, rfl, rfl, rfl, rfl⟩

/-- Settles O19: each row serves the same work, with its own opcode. -/
theorem stagedOperationAloneIsCommitted : Obligations.StagedOperationAloneIsCommitted := fun _ _ _ =>
  ⟨runsAlone rfl, runsAlone rfl, runsAlone rfl, runsAlone rfl, runsAlone rfl, runsAlone rfl, runsAlone rfl, runsAlone rfl, runsAlone rfl,
    runsAlone rfl, runsAlone rfl, runsAlone rfl, runsAlone rfl, runsAlone rfl, runsAlone rfl, runsAlone rfl, runsAlone rfl, runsAlone rfl,
    runsAlone rfl, runsAlone rfl, runsAlone rfl⟩

/-! ### The work of STAGE.OPEN, STAGE.ADD and STAGE.ABORT (R423, R424, R428) -/

section Work
variable {d : Datagram} {s : State}

/-- The open transaction is `x` now. -/
def setOpen (x : Option OpenTx) (v : Dev) : Dev := { v with daond := { v.daond with open_ := x } }

theorem stageOpenEff_closed (h : s.dev.daond.open_ = none) : stageOpenEff d s = (s.onDev (setOpen (some {})), .ok []) := by
  simp only [stageOpenEff, h]
  rfl

theorem stageOpenEff_opened (h : s.dev.daond.open_ ≠ none) : stageOpenEff d s = (s.onDev fun v => v, .fail { status := .badParam, check := 1 }) := by
  obtain ⟨x, hx⟩ := Option.ne_none_iff_exists'.mp h
  simp only [stageOpenEff, hx, onDev_id]

theorem stageAddEff_closed (h : s.dev.daond.open_ = none) : stageAddEff d s = (s.onDev fun v => v, .fail (plainFail .noStage)) := by
  simp only [stageAddEff, h, onDev_id]

section Add
variable {tx : OpenTx} (h : s.dev.daond.open_ = some tx)
include h

theorem stageAddEff_bad {f : Fail} (hp : parseAdd (d.params.length + 1) tx.ops.length 0 d.params = .bad f) :
    stageAddEff d s = (s.onDev (setOpen none), .fail f) := by
  simp only [stageAddEff, h, hp]
  rfl

section Parsed
variable {os : List StagedOp} (hp : parseAdd (d.params.length + 1) tx.ops.length 0 d.params = .ops os)
include hp

theorem stageAddEff_fits (hn : (tx.ops ++ os).length ≤ 4096)
    (hs : stageBytes (tx.ops ++ os) + (s.dev.daond.prepared.map (·.bytes)).sum ≤ 8388608) :
    stageAddEff d s = (s.onDev (setOpen (some { ops := tx.ops ++ os })),
      .ok (toBE 2 (tx.ops ++ os).length ++ zeros 2 ++ toBE 4 (stageBytes (tx.ops ++ os)))) := by
  simp only [stageAddEff, h, hp, decide_eq_false (Nat.not_lt.mpr hn), decide_eq_false (Nat.not_lt.mpr hs), Bool.or_self, Bool.false_eq_true,
    if_false]
  rfl

theorem stageAddEff_full (hf : 4096 < (tx.ops ++ os).length ∨ 8388608 < stageBytes (tx.ops ++ os) + (s.dev.daond.prepared.map (·.bytes)).sum) :
    stageAddEff d s = (s.onDev fun v => v, .fail (plainFail .stageFull)) := by
  simp only [stageAddEff, h, hp, Bool.or_eq_true, decide_eq_true_eq, gt_iff_lt, if_pos hf, onDev_id]

end Parsed
end Add

section Abort
variable (hb : abortBad d.params = none)
include hb

theorem stageAbortOpenEff_open (h : s.dev.daond.open_.isSome = true) : stageAbortOpenEff d s = (s.onDev (setOpen none), .ok []) := by
  simp only [stageAbortOpenEff, hb, h, if_true]
  rfl

theorem stageAbortOpenEff_closed (h : s.dev.daond.open_ = none) :
    stageAbortOpenEff d s = (s.onDev fun v => v, .fail (plainFail .noStage)) := by
  simp only [stageAbortOpenEff, hb, h, Option.isSome_none, Bool.false_eq_true, if_false, onDev_id]

theorem stageAbortPreparedEff_found (h : (s.dev.daond.prepared.any fun q => q.groupId == fieldU d.params 2 2) = true) :
    stageAbortPreparedEff d s = (s.onDev (Dev.dropPrepared (fieldU d.params 2 2)), .ok []) := by
  simp only [stageAbortPreparedEff, hb, h, if_true]

theorem stageAbortPreparedEff_absent (h : (s.dev.daond.prepared.any fun q => q.groupId == fieldU d.params 2 2) = false) :
    stageAbortPreparedEff d s = (s.onDev fun v => v, .fail (plainFail .noStage)) := by
  simp only [stageAbortPreparedEff, hb, h, Bool.false_eq_true, if_false, onDev_id]

end Abort

/-! ### The work of GROUP.COMMIT (R430) -/

section Group
variable (hb : groupBad d.params = none)
include hb

theorem groupCommitEff_absent (h : s.dev.daond.prepared.find? (fun q => q.groupId == fieldU d.params 0 2) = none) :
    groupCommitEff d s = (s.onDev fun v => v, .fail { status := .noStage, kind := 21, index := fieldU d.params 0 2 }) := by
  simp only [groupCommitEff, hb, h, onDev_id]

section Prepared
variable {q : Prepared} (h : s.dev.daond.prepared.find? (fun q => q.groupId == fieldU d.params 0 2) = some q)
include h

theorem groupCommitEff_untimely {f : Fail} (he : s.dev.timeVerdict (fieldT d.params 4) = some f) :
    groupCommitEff d s = (s.onDev fun v => v, .fail f) := by
  simp only [groupCommitEff, hb, h, he, onDev_id]

theorem groupCommitEff_windowless {n : Nat} (he : s.dev.timeVerdict (fieldT d.params 4) = none)
    (hn : s.dev.groupTake (fieldT d.params 4) q.commit = some n) :
    groupCommitEff d s = (s.onDev fun v => v, .fail { status := .notSync, kind := 3, index := n }) := by
  simp only [groupCommitEff, hb, h, he, hn, onDev_id]

theorem groupCommitEff_good (he : s.dev.timeVerdict (fieldT d.params 4) = none) (hn : s.dev.groupTake (fieldT d.params 4) q.commit = none) :
    groupCommitEff d s = (s.onDev fun v => (v.dropPrepared (fieldU d.params 0 2)).enqueue (q.timed (fieldT d.params 4)),
      .done .accepted (commitRecord (q.timed (fieldT d.params 4)) (fieldT d.params 4)) false) := by
  simp only [groupCommitEff, hb, h, he, hn]

end Prepared
end Group
end Work

/-- Settles O22: the open transaction that the work finds is that of before, and each outcome of the parse is an answer of its own. -/
theorem stageOpenAddAndStatusRun : Obligations.StageOpenAddAndStatusRun := by
  intro s t d open'
  have hopen : ∀ {r : OpRow} {x : Option OpenTx}, s.dev.daond.open_ = x → (s.begun r t d).dev.daond.open_ = x := (begun_open ..).trans
  refine ⟨fun ha h => ?opens, fun ha h => ?isOpen, fun tx os ha h hp => ⟨fun hn hs => ?adds, fun hf => ?full⟩, fun tx f ha h hp => ?bad,
    fun ha h => ?noStage, fun ha => ?status⟩
  case opens => exact next_served rfl ha (stageOpenEff_closed (hopen h))
  case isOpen => exact next_served rfl ha (stageOpenEff_opened (by rwa [begun_open]))
  case adds => exact next_served rfl ha (stageAddEff_fits (hopen h) hp hn (by rwa [begun_prepared]))
  case full => exact next_served rfl ha (stageAddEff_full (hopen h) hp (by rwa [begun_prepared]))
  case bad => exact next_served rfl ha (stageAddEff_bad (hopen h) hp)
  case noStage => exact next_served rfl ha (stageAddEff_closed (hopen h))
  case status => exact next_served_read (fun v => .ok (stageRecord v)) rfl ha rfl

/-- Settles O23: the target that the work looks for is there when it was before. -/
theorem stageAbortDiscardsItsTarget : Obligations.StageAbortDiscardsItsTarget := by
  intro s t d g
  refine ⟨fun ha hb h => ?openThere, fun ha hb h => ?openAbsent, fun ha hb h => ?preparedThere, fun ha hb h => ?preparedAbsent⟩
  case openThere => exact next_served rfl ha (stageAbortOpenEff_open hb (by rwa [begun_open]))
  case openAbsent => exact next_served rfl ha (stageAbortOpenEff_closed hb (by rwa [begun_open]))
  case preparedThere => exact next_served rfl ha (stageAbortPreparedEff_found hb (by rwa [begun_prepared]))
  case preparedAbsent => exact next_served rfl ha (stageAbortPreparedEff_absent hb (by rwa [begun_prepared]))

/-- Settles O25: the conditions of R430 are judged in their order, on the prepared transactions of before. -/
theorem groupCommitExecutesThePrepared : Obligations.GroupCommitExecutesThePrepared := by
  intro s t d ha hb g e b no
  have hprepared : b.dev.daond.prepared = s.dev.daond.prepared := begun_prepared groupCommitRow t d s
  refine ⟨fun h => ?absent, fun q h => ⟨fun f he => ?untimely, fun he n hn => ?windowless, fun he hn => ?good⟩⟩
  case absent => exact next_served rfl ha (groupCommitEff_absent hb (by rwa [hprepared]))
  case untimely => exact next_served rfl ha (groupCommitEff_untimely hb (by rwa [hprepared]) he)
  case windowless => exact next_served rfl ha (groupCommitEff_windowless hb (by rwa [hprepared]) he hn)
  case good => exact next_served rfl ha (groupCommitEff_good hb (by rwa [hprepared]) he hn)

/-! ### The work of STAGE.COMMIT (R425, R427) -/

section Commit
variable {d : Datagram} {s : State} {tx : OpenTx}

theorem withStage_good {mode : Nat} {k : List StagedOp → Datagram → State → State × Answer} (hl : d.params.length = 20)
    (ho : s.dev.daond.open_ = some tx) (hb : commitBad mode d.params = none) (hne : tx.ops ≠ []) :
    withStage mode k d s = k tx.ops d (s.onDev (setOpen none)) := by
  simp only [withStage, hl, ho, hb, List.isEmpty_eq_false_iff.mpr hne, bne_self_eq_false, Bool.false_eq_true, if_false]
  rfl

/-- The transaction that PREPARE keeps (R427). -/
def preparedOf (p : List Byte) (os : List StagedOp) (us : List UnitOp) (v : Dev) : Prepared :=
  { groupId := fieldU p 2 2, holdS := fieldU p 16 2, since := v.clk.now, commit := v.newCommit 0 os.length us, bytes := stageBytes os }

/-- What PREPARE makes of what admission found. -/
def prepareWith (p : List Byte) (os : List StagedOp) : State × Except Fail (List UnitOp) → State × Answer
  | (s, .error f) => (s, .fail f)
  | (s, .ok us) => (s.onDev fun v => v.countAdmission.prepare (preparedOf p os us s.dev),
      .done .accepted (commitRecord (s.dev.newCommit 0 os.length us) 0) false)

theorem stageCommitPrepareEff_good (hl : d.params.length = 20) (ho : s.dev.daond.open_ = some tx) (hb : commitBad 2 d.params = none)
    (hne : tx.ops ≠ []) (hn : s.dev.daond.prepared.length < 16)
    (hg : (s.dev.daond.prepared.any fun q => q.groupId == fieldU d.params 2 2) = false) (hy : syncInPrepare tx.ops = none) :
    stageCommitPrepareEff d s = prepareWith d.params tx.ops
      (admitOps (s.onDev (setOpen none)).dev.queueEnd false tx.ops (s.onDev (setOpen none))) := by
  have hroom : ¬ (s.onDev (setOpen none)).dev.daond.prepared.length ≥ 16 := Nat.not_le.mpr hn
  have hfree : ((s.onDev (setOpen none)).dev.daond.prepared.any fun q => q.groupId == fieldU d.params 2 2) = false := hg
  rw [stageCommitPrepareEff, withStage_good hl ho hb hne]
  simp only [decide_eq_false hroom, hfree, hy, Bool.or_self, Bool.false_eq_true, if_false]
  generalize admitOps _ _ _ _ = x
  obtain ⟨s1, _ | us⟩ := x <;> rfl

theorem stageCommitTimedEff_good (hl : d.params.length = 20) (ho : s.dev.daond.open_ = some tx) (hb : commitBad 1 d.params = none)
    (hne : tx.ops ≠ []) (he : (s.onDev (setOpen none)).dev.timeVerdict (fieldT d.params 4) = none) :
    stageCommitTimedEff d s = admitAt (fieldT d.params 4) .accepted tx.ops (s.onDev (setOpen none)) := by
  rw [stageCommitTimedEff, withStage_good hl ho hb hne]
  simp only [he]

end Commit

/-- Settles O24: the work closes the transaction first, and every mode admits its operations from there. -/
theorem stageCommitAdmitsTheTransaction : Obligations.StageCommitAdmitsTheTransaction := by
  intro s t d tx ho hne hl closed p done
  have hlen : ∀ m, (p m).length = 20 := fun m => (length_apply (stageCommitRow m) d).trans hl
  have hopen : ∀ m, (s.begun (stageCommitRow m) t d).dev.daond.open_ = some tx := fun m => (begun_open ..).trans ho
  refine ⟨fun ha hb => ⟨fun s1 us h => ?immediate, fun s1 f h => ?immediateFails⟩, fun ha hb he s1 us h => ?timed,
    fun ha hb he s1 f h => ?timedFails, fun ha hb hn hg hy => ⟨fun s1 f h => ?prepareFails, fun s1 us h => ⟨rfl, ?prepare⟩⟩⟩
  case immediate => exact next_answered rfl ha ((withStage_good (hlen 0) (hopen 0) hb hne).trans (admitAt_ok .ok h))
  case immediateFails => exact next_answered rfl ha ((withStage_good (hlen 0) (hopen 0) hb hne).trans (admitAt_error .ok h))
  case timed => exact next_answered rfl ha ((stageCommitTimedEff_good (hlen 1) (hopen 1) hb hne he).trans (admitAt_ok .accepted h))
  case timedFails => exact next_answered rfl ha ((stageCommitTimedEff_good (hlen 1) (hopen 1) hb hne he).trans (admitAt_error .accepted h))
  case prepareFails | prepare =>
    have hwork := stageCommitPrepareEff_good (hlen 2) (hopen 2) hb hne (by rwa [begun_prepared]) (by rwa [begun_prepared]) hy
    exact next_answered rfl ha (hwork.trans (congrArg (prepareWith (p 2) tx.ops) h))

/-! ### Timers (R417, R418, R427) -/

/-- Settles O26: each timer acts as of its own instant, while there is something that it times. -/
theorem timersOfTheLeaseAndOfStages : Obligations.TimersOfTheLeaseAndOfStages := by
  intro s t g
  refine ⟨fun l hl hc => ?lease, fun hl => ?noLease, fun x hx => ?stage, fun hx => ?noStage⟩
  case lease =>
    have hact : ActsAt s t (.leaseTimeout t) (l.restartedAt + secQ * l.timeoutS) (Dev.endLease 2) := by
      refine actsAt_of_due (g := Dev.endLease 2) ?_ rfl
      show execLeaseTimeout t s = _
      simp only [execLeaseTimeout, hl, hc, if_true]
    exact hact.symm
  case noLease =>
    show execLeaseTimeout t s = _
    simp only [execLeaseTimeout, hl]
  case stage =>
    have hact : ActsAt s t (.stageExpired t g) (x.since + secQ * x.holdS) fun v => (v.dropPrepared g).raise evStageExpired g := by
      refine actsAt_of_due (g := fun v => (v.dropPrepared g).raise evStageExpired g) ?_ rfl
      show execStageExpired t g s = _
      simp only [execStageExpired, hx]
    exact hact.symm
  case noStage =>
    show execStageExpired t g s = _
    simp only [execStageExpired, hx]

end Sys2Proof.Proofs
end

section
/-! Proof of the statement about the operations on the configuration (file 13). -/
namespace Sys2Proof.Proofs
open Sys2Proof Sys2Proof.Machine

/-! ### Objects set and released (R127, R172, R284) -/

theorem smFind_smErase {α : Type} (k m : Nat) (t : SMap α) : smFind m (smErase k t) = if k = m then none else smFind m t := by
  induction t with
  | nil => simp only [smErase, List.filter_nil, smFind, ite_self]
  | cons e r ih =>
    obtain ⟨j, w⟩ := e
    simp only [smErase, List.filter_cons] at *
    by_cases hj : j = k
    · rw [if_neg (by rw [hj, bne_self_eq_false]; exact Bool.false_ne_true), ih, smFind, hj]
      split <;> rfl
    · rw [if_pos (bne_iff_ne.mpr hj), smFind, smFind, ih]
      by_cases hm : j = m
      · rw [if_pos hm, if_pos hm, if_neg fun h => hj (hm.trans h.symm)]
      · rw [if_neg hm, if_neg hm]

/-- A record that is released where `c` holds, and else set to `x`. -/
theorem smFind_erase_or_put {α : Type} (c : Prop) [Decidable c] (x : α) (k m : Nat) (t : SMap α) :
    smFind m (if c then smErase k t else smPut k x t) = if k = m then (if c then none else some x) else smFind m t := by
  split
  · exact smFind_smErase k m t
  · exact smFind_smPut x k m t

theorem slot_modSlot (n m : Nat) (f : SlotCfg → SlotCfg) (c : Cfg) :
    (c.modSlot n f).slot m = if n = m then f (c.slot m) else c.slot m := by
  refine (smGet_smPut ..).trans ?_
  split
  · next h => rw [h]
  · rfl

theorem cfg_head_modHead (n m : Nat) (f : HeadCfg → HeadCfg) (c : Cfg) :
    (c.modHead n f).head m = if n = m then f (c.head m) else c.head m := by
  refine (smGet_smPut ..).trans ?_
  split
  · next h => rw [h]
  · rfl

section Stream
variable {p : List Byte} (c : Cfg)

theorem applyOp_ingress (h : fieldU p 2 1 = 0) : applyOp { code := 0x0301, params := p } c =
    { c with ingress := if fieldU p 3 1 = 0 then smErase (fieldU p 0 2) c.ingress else smPut (fieldU p 0 2) (readIngressCfg p 0) c.ingress } :=
  if_pos h

theorem applyOp_egress (h : fieldU p 2 1 ≠ 0) : applyOp { code := 0x0301, params := p } c =
    { c with egress := if fieldU p 3 1 = 0 then smErase (fieldU p 0 2) c.egress else smPut (fieldU p 0 2) (readEgressCfg p 0) c.egress } :=
  if_neg h

end Stream

/-- Settles O20: each operation writes or erases one entry of one table. -/
theorem operationsSetOnlyTheirObject : Obligations.OperationsSetOnlyTheirObject := by
  intro p c m n f kept
  refine ⟨fun h => ?ingress, fun h => ?egress, ⟨?cap, rfl⟩, ⟨?create, rfl⟩, ⟨?delete, rfl⟩, ⟨?matrix, rfl⟩, ⟨?synth, rfl⟩, ⟨?scaler, rfl⟩,
    ⟨?timing, rfl⟩, ⟨?colour, rfl⟩, ⟨?sr, rfl⟩, ⟨?channel, rfl⟩, ⟨?stream, rfl⟩, ⟨?tone, rfl⟩⟩
  case ingress =>
    rw [show f 0x0301 = _ from applyOp_ingress c h]
    exact ⟨smFind_erase_or_put .., rfl⟩
  case egress =>
    rw [show f 0x0301 = _ from applyOp_egress c h]
    exact ⟨smFind_erase_or_put .., rfl⟩
  case cap | channel => exact smFind_erase_or_put ..
  case create | stream | tone => exact smFind_smPut ..
  case delete => exact smFind_smErase ..
  case matrix => exact slot_modSlot n m (fun x => { x with matrix := readMatrixBlk p 4 }) c
  case synth => exact slot_modSlot n m (fun x => { x with synth := readSynthCfg p 0, synthLoads := x.synthLoads + 1 }) c
  case scaler => exact slot_modSlot n m (fun x => { x with scalerSet := readScalerCfg p 0 }) c
  case timing => exact cfg_head_modHead n m (fun x => { x with timing := if fieldU p 2 1 = 0 then none else some (readTimingCfg p 0) }) c
  case colour => exact cfg_head_modHead n m (fun x => { x with colour := readColourCfg p 0 }) c
  case sr => exact cfg_head_modHead n m (fun x => { x with sr := readSrCfg p 0 }) c

end Sys2Proof.Proofs
end

section
/-! Proofs of the statements about bulk data and probes (files 13 and 14). -/
namespace Sys2Proof.Proofs
open Sys2Proof Sys2Proof.Machine Sys2Proof.Laws

/-! ### The work of BULK.WRITE (R433) -/

@[simp] theorem begun_master (r : OpRow) (t : Nat) (d : Datagram) (s : State) (m : Nat) : (s.begun r t d).dev.master m = s.dev.master m := by
  obtain ⟨l, h⟩ := begun_eq r t d s
  rw [h]
  rfl

/-- A range that the field rules let through lies inside its space. -/
theorem bulkBad_fits {write : Bool} {p : List Byte} (h : bulkBad write p = none) : fieldU p 8 8 + fieldU p 4 4 ≤ spaceSize (fieldU p 0 1) := by
  unfold bulkBad at h
  by_contra hout
  have hbad : (fieldU p 8 8 % 64 != 0 || decide (spaceSize (fieldU p 0 1) < fieldU p 8 8 + fieldU p 4 4)) = true := by
    rw [decide_eq_true (Nat.lt_of_not_le hout), Bool.or_true]
  simp only [hbad, if_true] at h
  split_ifs at h

section Work
variable {d : Datagram} {s : State}

theorem bulkWriteEff_good (hb : bulkBad true d.params = none) (hk : fieldU d.params 0 1 = 0)
    (hw : s.dev.writeBusy (fieldU d.params 8 8) (fieldU d.params 4 4) = none) (hd : (s.dev.master 50).draining = false) :
    bulkWriteEff d s = (s.bulkPut 0 (fieldU d.params 8 8) (sliceB d.params 16 (fieldU d.params 4 4)), .ok []) := by
  simp only [bulkWriteEff, hb, hk, hw, hd, if_true, Bool.false_eq_true, if_false]

/-! ### The work of BULK.READ (R392, R433) -/

section Read
variable (hb : bulkBad false d.params = none) (hd : (s.dev.master 50).draining = false)
include hb

theorem bulkReadEff_off {q : Nat} (hk : fieldU d.params 0 1 = 0) (ho : s.dev.offPort (fieldU d.params 8 8) (fieldU d.params 4 4) = some q) :
    bulkReadEff d s = (s.onDev fun v => v, .fail (busyWith 10 q)) := by
  simp only [bulkReadEff, hb, hk, ho, if_true, onDev_id]

include hd

theorem bulkReadEff_space (hk : fieldU d.params 0 1 ≠ 0) :
    bulkReadEff d s = (s.onDev fun v => v, .ok (s.bulkGet (fieldU d.params 0 1) (fieldU d.params 8 8) (fieldU d.params 4 4))) := by
  simp only [bulkReadEff, hb, hd, if_neg hk, decide_eq_false hk, Bool.false_and, Bool.false_eq_true, if_false, onDev_id]

section Memory
variable (hk : fieldU d.params 0 1 = 0) (ho : s.dev.offPort (fieldU d.params 8 8) (fieldU d.params 4 4) = none)
include hk ho

theorem bulkReadEff_memory (he : s.dev.badBeat (fieldU d.params 8 8) (fieldU d.params 4 4) = none)
    (hr : fieldU d.params 8 8 + fieldU d.params 4 4 ≤ region3) :
    bulkReadEff d s = (s.onDev (Dev.access 50 (fieldU d.params 8 8) (fieldU d.params 4 4)),
      .ok (s.bulkGet 0 (fieldU d.params 8 8) (fieldU d.params 4 4))) := by
  simp only [bulkReadEff, hb, hd, hk, ho, he, if_true, decide_true, Bool.true_and, decide_eq_false (Nat.not_lt.mpr hr), Bool.false_eq_true,
    if_false]

/-- The accesses of a read, and the draws of the free values that region 3 reads as. -/
def readRegion3 (a n : Nat) (v : Dev) : Dev := { v.access 50 a n with draws := (v.access 50 a n).draws + n }

theorem bulkReadEff_region3 (he : s.dev.badBeat (fieldU d.params 8 8) (fieldU d.params 4 4) = none)
    (hr : region3 < fieldU d.params 8 8 + fieldU d.params 4 4) :
    bulkReadEff d s = (s.onDev (readRegion3 (fieldU d.params 8 8) (fieldU d.params 4 4)),
      .ok (s.bulkGet 0 (fieldU d.params 8 8) (fieldU d.params 4 4))) := by
  simp only [bulkReadEff, hb, hd, hk, ho, he, if_true, decide_true, Bool.true_and, decide_eq_true hr, Bool.false_eq_true, if_false]
  rfl

theorem bulkReadEff_badBeat {x : Nat} (he : s.dev.badBeat (fieldU d.params 8 8) (fieldU d.params 4 4) = some x) :
    bulkReadEff d s = (s.onDev fun v => (v.access 50 (fieldU d.params 8 8) (fieldU d.params 4 4)).eccError true x,
      .fail { status := .memError, kind := 19, index := x }) := by
  simp only [bulkReadEff, hb, hd, hk, ho, he, if_true, Bool.false_eq_true, if_false]
  rfl

end Memory
end Read

/-! ### The work of PROBE.CONFIG and PROBE.FREEZE (R459, R461) -/

section Config
variable (hb : firstBad probeCfgFields d.params = none)
  (hi : s.dev.streamInside (readProbeCfg d.params 0).direction (readProbeCfg d.params 0).stream 0 = none)
include hb hi

theorem probeConfigEff_on (ho : s.dev.domainOff 29 = false) :
    probeConfigEff d s = (s.onDev fun v => v.modProbe (probeNo (readProbeCfg d.params 0).direction (readProbeCfg d.params 0).stream) fun x =>
      { x with next := some (readProbeCfg d.params 0) }, .ok []) := by
  simp only [probeConfigEff, hb, hi, ho, Bool.false_eq_true, if_false]

theorem probeConfigEff_off (ho : s.dev.domainOff 29 = true) : probeConfigEff d s = (s.onDev fun v => v, .fail (busyAt 0 0 0)) := by
  simp only [probeConfigEff, hb, hi, ho, if_true, onDev_id]

end Config

section Freeze
variable (hb : firstBad freezeCfgFields d.params = none)
include hb

theorem probeFreezeArmEff_good (ht : (readFreezeCfg d.params 0).trigger ≠ 0) (ha : s.dev.armBad (readFreezeCfg d.params 0) = none) :
    probeFreezeArmEff d s = (s.onDev (Dev.armFreeze (readFreezeCfg d.params 0)), .ok []) := by
  simp only [probeFreezeArmEff, if_neg ht, hb, ha, Option.map_none, Option.orElse_none]

/-- A freeze that is armed is disarmed (R461). -/
def disarm (v : Dev) : Dev := if v.freeze.state = 1 then { v with freeze := { v.freeze with state := 0, writing := false } } else v

theorem probeFreezeCancelEff_good
    (hi : s.dev.streamInside (readFreezeCfg d.params 0).direction (readFreezeCfg d.params 0).stream 0 = none) :
    probeFreezeCancelEff d s = (s.onDev disarm, .ok []) := by
  simp only [probeFreezeCancelEff, hb, hi]
  rfl

theorem probeFreezeCancelEff_inside {f : Fail}
    (hi : s.dev.streamInside (readFreezeCfg d.params 0).direction (readFreezeCfg d.params 0).stream 0 = some f) :
    probeFreezeCancelEff d s = (s.onDev fun v => v, .fail f) := by
  simp only [probeFreezeCancelEff, hb, hi, onDev_id]

end Freeze
end Work

/-- Settles O7: the answer leaves frame memory as the write made it, and the range lies inside the store. -/
theorem onlyAnAdmittedBulkWriteStores : Obligations.OnlyAnAdmittedBulkWriteStores := by
  intro s t d hmem ha hb hk hw hd
  refine ⟨_, next_answered rfl ha (bulkWriteEff_good hb hk hw (by rwa [begun_master])), fun a => ?_⟩
  have hfits := bulkBad_fits hb
  rw [hk] at hfits
  have hlen : (sliceB d.params 16 (fieldU d.params 4 4)).length = fieldU d.params 4 4 := length_sliceB ..
  have hwrite := memGet_memWrite (a := fieldU d.params 8 8) (x := a) (sliceB d.params 16 (fieldU d.params 4 4)) hmem (by rw [hlen]; exact hfits)
  rwa [hlen] at hwrite

/-- Settles O52: on good fields the work of each command is decided by the power of its units, by R17 and by the beats of its range. -/
theorem probesAndBulkReadsRun : Obligations.ProbesAndBulkReadsRun := by
  intro s t d p
  refine ⟨?config, fun ha hb ht hbad => ?arm, fun ha hb => ⟨fun hi => ?cancel, fun f hi => ?cancelInside⟩, ?read⟩
  case config =>
    intro ha hb c hi
    have hpow : (s.begun probeConfigRow t d).dev.domainOff 29 = s.dev.domainOff 29 := congrArg (·.off.contains 29) (begun_pow ..)
    exact ⟨fun ho => next_served rfl ha (probeConfigEff_on hb hi (hpow.trans ho)),
      fun ho => next_served rfl ha (probeConfigEff_off hb hi (hpow.trans ho))⟩
  case arm => exact next_served rfl ha (probeFreezeArmEff_good hb ht hbad)
  case cancel => exact next_served rfl ha (probeFreezeCancelEff_good hb hi)
  case cancelInside => exact next_served rfl ha (probeFreezeCancelEff_inside hb hi)
  case read =>
    intro ha hb hdrain k n a b
    have hd : (b.dev.master 50).draining = false := by rwa [begun_master]
    exact ⟨fun hk => next_served rfl ha (bulkReadEff_space hb hd hk),
      fun hk ho => ⟨fun he hr => next_served rfl ha (bulkReadEff_memory hb hd hk ho he hr),
        fun he hr => next_served rfl ha (bulkReadEff_region3 hb hd hk ho he hr),
        fun x he => next_served rfl ha (bulkReadEff_badBeat hb hd hk ho he)⟩,
      fun q hk ho => next_served rfl ha (bulkReadEff_off hb hk ho)⟩

end Sys2Proof.Proofs
end

section
/-! Proof of the statement about Ethernet (file 13). -/
namespace Sys2Proof.Proofs
open Sys2Proof Sys2Proof.Machine Sys2Proof.Laws

/-! ### What a device that is alive does with what arrives (R402, R403, R444) -/

/-- What a happening that a device in reset or dead does not see does to one that is neither. -/
theorem exec_of_alive {s : State} {t : Nat} {i : Instr} {f g : Dev → Dev} (ha : s.dev.alive = true)
    (e : exec i s = .next ((s.arrive t).onDev fun v => if !v.alive then v else g v)) (h : g (s.dev.arrive t) = f (s.dev.arrive t)) :
    exec i s = .next (s.happens t f) := by
  refine e.trans (congrArg Host.Outcome.next (arrive_onDev_congr ?_))
  rw [alive_arrive, ha, Bool.not_true, if_neg Bool.false_ne_true, h]

theorem unknownArrives_of_command {x : Nat} {d : Datagram} {v : Dev} (hc : isCommand d v.countRx = true) (hh : headerCheck x d = none) :
    v.unknownArrives x d = v.countRx.refuse x d { status := .unknownOpcode, opIndex := 0xFFFF } := by
  simp only [Dev.unknownArrives, hc, hh, Bool.not_true, Bool.false_eq_true, if_false, Option.getD_none]

theorem unknownArrives_of_not_command {x : Nat} {d : Datagram} {v : Dev} (hc : isCommand d v.countRx = false) :
    v.unknownArrives x d = v.countRx.dropRx := by
  simp only [Dev.unknownArrives, hc, Bool.not_false, if_true]

theorem serviceIn_arpRequest {v : Dev} (h : bit v.daond.net.cfg.ipMode 0 = true) :
    v.serviceIn (.arpRequest v.daond.net.ipv4InUse) = v.countRx.emit (.service 0 v.daond.net.ipv4InUse []) :=
  if_pos (by rw [Bool.and_eq_true, decide_eq_true_eq]; exact ⟨rfl, h⟩)

section CoreC
variable {s : State} {t : Nat} (ha : s.dev.alive = true)
include ha

section Restarting
variable (hc : s.dev.coreUp .c = false)
include hc

theorem exec_serviceFrame_waits (f : ServiceFrame) : exec (.serviceFrame t f) s = .next (s.happens t (Dev.queueRx (.serviceFrame t f))) :=
  exec_of_alive ha rfl (if_pos (by rw [coreUp_arrive, hc, Bool.not_false]))

theorem exec_unknownOpcode_waits (x : Nat) (d : Datagram) :
    exec (.unknownOpcode t x d) s = .next (s.happens t (Dev.queueRx (.unknownOpcode t x d))) :=
  exec_of_alive ha rfl (if_pos (by rw [coreUp_arrive, hc, Bool.not_false]))

end Restarting

section Running
variable (hc : s.dev.coreUp .c = true)
include hc

theorem exec_serviceFrame_running {f : ServiceFrame} {g : Dev → Dev} (h : (s.dev.arrive t).serviceIn f = g (s.dev.arrive t)) :
    exec (.serviceFrame t f) s = .next (s.happens t g) :=
  exec_of_alive ha rfl ((if_neg (by rw [coreUp_arrive, hc, Bool.not_true]; exact Bool.false_ne_true)).trans h)

theorem exec_unknownOpcode_running {x : Nat} {d : Datagram} {g : Dev → Dev} (h : (s.dev.arrive t).unknownArrives x d = g (s.dev.arrive t)) :
    exec (.unknownOpcode t x d) s = .next (s.happens t g) :=
  exec_of_alive ha rfl ((if_neg (by rw [coreUp_arrive, hc, Bool.not_true]; exact Bool.false_ne_true)).trans h)

end Running
end CoreC

/-- Settles O60: a device that is alive counts what it discards, and CORE.C decides whether the rest waits. -/
theorem ethernetHappeningsRun : Obligations.EthernetHappeningsRun := by
  intro s t ha
  refine ⟨exec_of_alive ha rfl rfl, fun c hc => ?discarded, exec_of_alive ha rfl rfl, fun up => exec_of_alive ha rfl rfl,
    fun hc => ⟨exec_serviceFrame_waits ha hc, exec_unknownOpcode_waits ha hc⟩,
    fun hc => ⟨fun hip => ?arp, fun v6 data => exec_serviceFrame_running ha hc rfl, fun x d hd hh => ?unknown, fun x d hd => ?dropped⟩⟩
  case discarded =>
    refine exec_of_alive ha rfl ?_
    cases c with
    | fcs => exact absurd rfl hc
    | _ => rfl
  case arp => exact exec_serviceFrame_running ha hc (serviceIn_arpRequest (v := s.dev.arrive t) hip)
  case unknown => exact exec_unknownOpcode_running ha hc (unknownArrives_of_command hd hh)
  case dropped => exact exec_unknownOpcode_running ha hc (unknownArrives_of_not_command hd)

end Sys2Proof.Proofs
end

section
/-! Proofs of the statements about the reset state and the FW. commands (files 15 and 16). -/
namespace Sys2Proof.Proofs
open Sys2Proof Sys2Proof.Machine Sys2Proof.Laws

/-- Settles O3, part by part: each is what `State.reset` was built with. -/
theorem resetLeavesNothingRunning : Obligations.ResetLeavesNothingRunning :=
  ⟨rfl, rfl, rfl, rfl, rfl, rfl, rfl, rfl, rfl, fun _ => rfl, rfl, rfl⟩

/-! ### What serving leaves of the firmware, the settings and the service plane -/

@[simp] theorem begun_fw (r : OpRow) (t : Nat) (d : Datagram) (s : State) : (s.begun r t d).dev.fw = s.dev.fw := by
  obtain ⟨l, h⟩ := begun_eq r t d s
  rw [h, Dev.arrive_fw]

@[simp] theorem begun_settings (r : OpRow) (t : Nat) (d : Datagram) (s : State) : (s.begun r t d).dev.settings = s.dev.settings := by
  obtain ⟨l, h⟩ := begun_eq r t d s
  rw [h, Dev.arrive_settings]

@[simp] theorem begun_sec (r : OpRow) (t : Nat) (d : Datagram) (s : State) : (s.begun r t d).dev.sec = s.dev.sec := by
  obtain ⟨l, h⟩ := begun_eq r t d s
  rw [h, Dev.arrive_sec]

@[simp] theorem begun_draws (r : OpRow) (t : Nat) (d : Datagram) (s : State) : (s.begun r t d).dev.draws = s.dev.draws := by
  obtain ⟨l, h⟩ := begun_eq r t d s
  rw [h, Dev.arrive_draws]

section Work
variable {d : Datagram} {s : State}

/-! ### The work of FW.INSTALL (R477) -/

/-- An image `x` is written to its slot, and one draw tells whether it reads back. -/
def installImage (good : Bool) (x : List Byte) (v : Dev) : Dev := { v.onFw (FwSt.writeImage good x) with draws := v.draws + 1 }

section Install
variable (hb : fwInstallBad d.params = none)
include hb

section Staged
variable {x : List Byte} (hx : s.dev.fw.stage 0 (fieldU d.params 4 4) = x)
include hx

theorem fwInstallManifestEff_verified (h : s.dev.fw.manifestOk x = true) :
    fwInstallManifestEff d s = (s.onDev (Dev.onFw fun f => { f with pending := some (readManifest x) }), .ok []) := by
  simp only [fwInstallManifestEff, hb, hx, h, if_true]

theorem fwInstallManifestEff_unverified (h : ¬ s.dev.fw.manifestOk x = true) :
    fwInstallManifestEff d s = (s.onDev fun v => v, .fail (plainFail .badImage)) := by
  simp only [fwInstallManifestEff, hb, hx, if_neg h, onDev_id]

theorem fwInstallImageEff_verified (h : (s.dev.fw.accepts x && s.dev.fw.imageOk x) = true) : fwInstallImageEff d s =
    (s.onDev (installImage (Config.flashReadBack s.dev.draws) x),
      if Config.flashReadBack s.dev.draws then .ok [] else .fail (plainFail .badImage)) := by
  simp only [fwInstallImageEff, hb, hx, h, Bool.not_true, Bool.false_eq_true, if_false]
  rfl

theorem fwInstallImageEff_unverified (h : ¬ (s.dev.fw.accepts x && s.dev.fw.imageOk x) = true) :
    fwInstallImageEff d s = (s.onDev fun v => v, .fail (plainFail .badImage)) := by
  simp only [fwInstallImageEff, hb, hx, eq_false_of_ne_true h, Bool.not_false, if_true, onDev_id]

end Staged
end Install

/-! ### The work of FW.ACTIVATE, FW.CONFIRM and FW.REVERT (R478, R480, R482) -/

/-- The fields of FW.ACTIVATE and FW.CONFIRM: a byte up to `hi`, and reserved bytes. -/
theorem firstBad_byteUpTo {p : List Byte} {hi : Int} (h0 : fieldU p 0 1 ≤ hi) (h1 : fieldU p 1 3 = 0) :
    firstBad [⟨0, 1, .unsigned, [(0, hi)]⟩, ⟨1, 3, .reserved, []⟩] p = none :=
  firstBad_cons (ok_range (by omega) h0) (firstBad_cons (ok_reserved h1) rfl)

/-- The bundle of a manifest is in activation, from its first entry on, confirmed by the host where `host` asks for it (R478). -/
def activate (m : Manifest) (host : Bool) (v : Dev) : Dev := Dev.activateEntry (v.withState fun v => v.onFw fun f =>
  { f with bundle := .activating, pending := none, current := some m, bundleId := m.bundleId, index := 0, needHost := host })

section Activate
variable (h0 : fieldU d.params 0 1 ≤ 1) (h1 : fieldU d.params 1 3 = 0)
include h0 h1

theorem fwActivateEff_installed {m : Manifest} (hp : s.dev.fw.pending = some m) (hi : ∀ e ∈ m.entries, e.installed = true) : fwActivateEff d s =
    (s.onDev (activate m (bit m.flags 1 || fieldU d.params 0 1 == 1 || s.dev.settings.live.hostConfirm)), .ok []) := by
  have hmissing : ¬ (m.entries.any fun e => !e.installed) = true := by
    rw [List.any_eq_true]
    rintro ⟨e, he, hne⟩
    rw [hi e he] at hne
    exact Bool.false_ne_true hne
  simp only [fwActivateEff, firstBad_byteUpTo (hi := 1) (by omega) h1, hp, if_neg hmissing]
  rfl

theorem fwActivateEff_none (hp : s.dev.fw.pending = none) : fwActivateEff d s = (s.onDev fun v => v, .fail { status := .badParam, check := 1 }) := by
  simp only [fwActivateEff, firstBad_byteUpTo (hi := 1) (by omega) h1, hp, onDev_id]

end Activate

section Confirm
variable (h0 : fieldU d.params 0 1 ≤ 5) (h1 : fieldU d.params 1 3 = 0)
include h0 h1

theorem fwConfirmEff_trial (h : s.dev.fw.trialComp = some (fieldU d.params 0 1)) :
    fwConfirmEff d s = (s.onDev fun v => (v.onFw fun f => { f with hostOk := true }).checkTrial, .ok []) := by
  simp only [fwConfirmEff, firstBad_byteUpTo (hi := 5) (by omega) h1, if_pos h]

theorem fwConfirmEff_other (h : s.dev.fw.trialComp ≠ some (fieldU d.params 0 1)) :
    fwConfirmEff d s = (s.onDev fun v => v, .fail (badField 0)) := by
  simp only [fwConfirmEff, firstBad_byteUpTo (hi := 5) (by omega) h1, if_neg h, onDev_id]

end Confirm

theorem fwRevertEff_starts (hc : s.dev.fw.canRevert = true) (hr : s.dev.fw.reverting = []) :
    fwRevertEff d s = (s.onDev (Dev.revertBundle 4), .ok []) := by
  simp only [fwRevertEff, hc, hr, List.isEmpty_nil, Bool.not_true, Bool.false_eq_true, if_false]

theorem fwRevertEff_runs (hc : s.dev.fw.canRevert = true) (hr : s.dev.fw.reverting ≠ []) : fwRevertEff d s = (s.onDev fun v => v, .ok []) := by
  simp only [fwRevertEff, hc, List.isEmpty_eq_false_iff.mpr hr, Bool.not_true, Bool.not_false, Bool.false_eq_true, if_false, if_true, onDev_id]

theorem fwRevertEff_refused (hc : s.dev.fw.canRevert = false) :
    fwRevertEff d s = (s.onDev fun v => v, .fail { status := .badParam, check := 1 }) := by
  simp only [fwRevertEff, hc, Bool.not_false, if_true, onDev_id]

end Work

/-- Settles O53, command by command: the work finds the firmware of before, and what it finds there decides. -/
theorem firmwareCommandsRun : Obligations.FirmwareCommandsRun := by
  intro s t d
  refine ⟨fun ha => ?status, fun ha hb => ?manifest, fun ha hb => ?image, fun ha h0 h1 => ⟨fun m hp hi => ?activates, fun hp => ?nothingPending⟩,
    fun ha h0 h1 => ⟨fun h => ?confirms, fun h => ?notOnTrial⟩, fun ha => ⟨fun hc hr => ?reverts, fun hc hr => ?reverting, fun hc => ?cannotRevert⟩⟩
  case status => exact next_served_read (fun v => .ok (fwRecord v)) rfl ha rfl
  case manifest =>
    intro x
    have hx : (s.begun (fwInstallRow 0) t d).dev.fw.stage 0 (fieldU ((fwInstallRow 0).apply d).params 4 4) = x := by rw [begun_fw]
    split
    · next h => exact next_served rfl ha (fwInstallManifestEff_verified hb hx (by rwa [begun_fw]))
    · next h => exact next_served rfl ha (fwInstallManifestEff_unverified hb hx (by rwa [begun_fw]))
  case image =>
    intro x good
    have hx : (s.begun (fwInstallRow 1) t d).dev.fw.stage 0 (fieldU ((fwInstallRow 1).apply d).params 4 4) = x := by rw [begun_fw]
    have hgood : Config.flashReadBack (s.begun (fwInstallRow 1) t d).dev.draws = good := by rw [begun_draws]
    rw [← hgood]
    split
    · next h => exact next_served (f := installImage _ x) rfl ha (fwInstallImageEff_verified hb hx (by rwa [begun_fw]))
    · next h => exact next_served rfl ha (fwInstallImageEff_unverified hb hx (by rwa [begun_fw]))
  case activates =>
    rw [← begun_settings fwActivateRow t d s]
    exact next_served (f := activate m _) rfl ha (fwActivateEff_installed h0 h1 ((congrArg FwSt.pending (begun_fw ..)).trans hp) hi)
  case nothingPending => exact next_served rfl ha (fwActivateEff_none h0 h1 ((congrArg FwSt.pending (begun_fw ..)).trans hp))
  case confirms => exact next_served rfl ha (fwConfirmEff_trial h0 h1 (by rw [begun_fw]; exact h))
  case notOnTrial => exact next_served rfl ha (fwConfirmEff_other h0 h1 (by rw [begun_fw]; exact h))
  case reverts => exact next_served rfl ha (fwRevertEff_starts (by rwa [begun_fw]) (by rwa [begun_fw]))
  case reverting => exact next_served rfl ha (fwRevertEff_runs (by rwa [begun_fw]) (by rwa [begun_fw]))
  case cannotRevert => exact next_served rfl ha (fwRevertEff_refused (by rwa [begun_fw]))

end Sys2Proof.Proofs
end

section
/-! Proof of the statement about the settings store (file 15). -/
namespace Sys2Proof.Proofs
open Sys2Proof Sys2Proof.Machine Sys2Proof.Laws

section Work
variable {d : Datagram} {s : State}

/-! ### The work of SET.READ and SET.WRITE (R492) -/

theorem setReadEff_good (hb : setBad false d.params = none) : setReadEff d s = (s.onDev fun v => v,
    .ok (sliceB (s.dev.settings.live.bytes (fieldU d.params 0 1)) (fieldU d.params 4 4) (fieldU d.params 8 4))) := by
  simp only [setReadEff, hb, onDev_id]

section Write
variable {x : Sections} (hb : setBad true d.params = none) (hx : s.dev.settings.live = x)
include hb hx

theorem setWriteEff_profile {m : SMap (List Byte)} (hk : fieldU d.params 0 1 = 1)
    (hm : profileWrite x (fieldU d.params 4 4) (d.params.drop 12) = .ok m) :
    setWriteEff d s = (s.onDev (Dev.changeSettings fun y => { y with profile := m }), .ok []) := by
  simp only [setWriteEff, hb, hx, if_pos hk, hm]

theorem setWriteEff_badProfile {o : Nat} (hk : fieldU d.params 0 1 = 1)
    (ho : profileWrite x (fieldU d.params 4 4) (d.params.drop 12) = .error o) :
    setWriteEff d s = (s.onDev fun v => v, .fail (badField o)) := by
  simp only [setWriteEff, hb, hx, if_pos hk, ho, onDev_id]

section Boot
variable {b : List Byte} (hk : fieldU d.params 0 1 ≠ 1) (hs : splice x.bootBytes (fieldU d.params 4 4) (d.params.drop 12) = b)
include hk hs

theorem setWriteEff_boot (hok : bootOkBytes b = true) : setWriteEff d s =
    (s.onDev (Dev.changeSettings fun y => { y with bootPreset := fieldU b 0 2, hostConfirm := fieldU b 2 1 == 1 }), .ok []) := by
  simp only [setWriteEff, hb, hx, if_neg hk, hs, hok, if_true]

theorem setWriteEff_badBoot (hok : bootOkBytes b = false) : setWriteEff d s = (s.onDev fun v => v, .fail (badField 12)) := by
  simp only [setWriteEff, hb, hx, if_neg hk, hs, hok, Bool.false_eq_true, if_false, onDev_id]

end Boot
end Write

/-! ### The work of SET.PRESET_SAVE and SET.PRESET_LOAD (R494) -/

/-- The fields of SET.PRESET_SAVE. -/
theorem firstBad_presetSave {p : List Byte} (h0 : fieldU p 0 2 ≤ 1023) (h2 : fieldU p 2 6 = 0) :
    firstBad [⟨0, 2, .unsigned, [(0, 1023)]⟩, ⟨2, 6, .reserved, []⟩] p = none :=
  firstBad_cons (ok_range (by omega) (by omega)) (firstBad_cons (ok_reserved h2) rfl)

section Save
variable {tx : OpenTx} {x : Sections} {m : SMap (List StagedOp)} (h0 : fieldU d.params 0 2 ≤ 1023) (h2 : fieldU d.params 2 6 = 0)
  (ho : s.dev.daond.open_ = some tx) (hx : s.dev.settings.live = x)
  (hm : (if tx.ops.isEmpty then smErase (fieldU d.params 0 2) x.presets else smPut (fieldU d.params 0 2) tx.ops x.presets) = m)
include h0 h2 ho hx hm

theorem setPresetSaveEff_fits (hp : ({ x with presets := m } : Sections).poolUsed ≤ presetPool) :
    setPresetSaveEff d s = (s.onDev (Dev.changeSettings fun y => { y with presets := m }), .ok []) := by
  simp only [setPresetSaveEff, firstBad_presetSave h0 h2, ho, hx, hm, gt_iff_lt, if_neg (Nat.not_lt.mpr hp)]

theorem setPresetSaveEff_full (hp : presetPool < ({ x with presets := m } : Sections).poolUsed) :
    setPresetSaveEff d s = (s.onDev fun v => v, .fail { status := .badParam, check := 1 }) := by
  simp only [setPresetSaveEff, firstBad_presetSave h0 h2, ho, hx, hm, gt_iff_lt, if_pos hp, onDev_id]

end Save

section Load
variable {os : List StagedOp} (hb : presetLoadBad d.params = none) (hos : s.dev.settings.live.preset (fieldU d.params 0 2) = os) (hne : os ≠ [])
include hb hos hne

theorem setPresetLoadEff_now (hm : fieldU d.params 2 1 = 0) : setPresetLoadEff d s = admitAt (settleU + s.dev.nowU) .ok os s := by
  simp only [setPresetLoadEff, hb, hos, List.isEmpty_eq_false_iff.mpr hne, Bool.false_eq_true, if_false, if_pos hm, admitNow]

theorem setPresetLoadEff_timed (hm : fieldU d.params 2 1 ≠ 0) (he : s.dev.timeVerdict (fieldT d.params 4) = none) :
    setPresetLoadEff d s = admitAt (fieldT d.params 4) .accepted os s := by
  simp only [setPresetLoadEff, hb, hos, List.isEmpty_eq_false_iff.mpr hne, Bool.false_eq_true, if_false, if_neg hm, he]

end Load
end Work

/-! ### The write of a copy (R489) -/

section Writes
variable {s : State} (t : Nat)

theorem exec_settingsWriteStart_early (ht : t < s.dev.settings.writeFrom) : exec (.settingsWriteStart t) s = .next (s.arrive t) :=
  congrArg Host.Outcome.next (due_of_lt ht ..)

section Due
variable (ht : s.dev.settings.writeFrom ≤ t)
include ht

theorem exec_settingsWriteStart_starts {b : Dev} (hd : s.dev.arrive s.dev.settings.writeFrom = b) (ha : s.dev.alive = true)
    (hc : b.coreUp .c = true) (hp : b.settings.pending = true) (ho : b.storeOpen = true) (hw : b.writeReady = true) :
    exec (.settingsWriteStart t) s = .next (s.happens s.dev.settings.writeFrom Dev.startWrite) := by
  subst hd
  exact (congrArg Host.Outcome.next (due_of_le ht _ s)).trans (congrArg Host.Outcome.next (arrive_onDev_congr
    (if_pos (by rw [alive_arrive, ha, hc, hp, ho, hw]; rfl))))

theorem exec_settingsWriteStart_idle (hp : s.dev.settings.pending = false) :
    exec (.settingsWriteStart t) s = .next (s.arrive s.dev.settings.writeFrom) :=
  (congrArg Host.Outcome.next (due_of_le ht _ s)).trans (congrArg Host.Outcome.next (arrive_onDev_same
    (if_neg (by simp only [Dev.arrive_settings, hp, Bool.and_false, Bool.false_and, Bool.false_eq_true, not_false_eq_true]))))

end Due

theorem exec_settingsWriteComplete_writing {w : Nat} (ha : s.dev.alive = true) (hs : s.dev.settings.writing.isSome = true)
    (hw : s.dev.settings.lastWriteT = some w) :
    exec (.settingsWriteComplete t) s = .next (s.happens (min t (w + 200 * msQ)) fun v => v.writeDone.attestGoes).resume := by
  show execSettingsWriteComplete t s = _
  simp only [execSettingsWriteComplete, ha, hs, hw, Bool.and_self, if_true, Option.getD_some]
  rfl

theorem exec_settingsWriteComplete_idle (hs : s.dev.settings.writing = none) : exec (.settingsWriteComplete t) s = .next (s.arrive t) := by
  show execSettingsWriteComplete t s = _
  simp only [execSettingsWriteComplete, hs, Option.isSome_none, Bool.and_false, Bool.false_eq_true, if_false]

end Writes

/-- Settles O55, command by command: the work finds the settings and the transaction of before, and a write acts as of its instant. -/
theorem settingsCommandsRun : Obligations.SettingsCommandsRun := by
  intro s t d p x
  have hlive : ∀ r : OpRow, (s.begun r t d).dev.settings.live = x := fun r => congrArg SettingsSt.live (begun_settings ..)
  refine ⟨fun ha => ?status, fun ha hb => ?read, fun ha hb hk => ⟨fun m hm => ?profile, fun o ho => ?badProfile⟩,
    fun ha hb hk => ⟨fun hok => ?boot, fun hok => ?badBoot⟩, ?save,
    fun ha hb hne => ⟨fun hm s1 us h => ?now, fun hm he s1 us h => ?timed⟩,
    fun ha => ⟨fun ht hc hp ho hw => ?starts, fun ht hp => ?idle, fun ht => ?early, fun hs w hw => ?written, fun hs => ?notWriting⟩⟩
  case status => exact next_served_read (fun v => .ok (setRecord v)) rfl ha rfl
  case read =>
    exact next_served_read (fun v => .ok (sliceB (v.settings.live.bytes (fieldU p 0 1)) (fieldU p 4 4) (fieldU p 8 4))) rfl ha (setReadEff_good hb)
  case profile => exact next_served rfl ha (setWriteEff_profile hb (hlive _) hk hm)
  case badProfile => exact next_served rfl ha (setWriteEff_badProfile hb (hlive _) hk ho)
  case boot => exact next_served rfl ha (setWriteEff_boot hb (hlive _) hk rfl hok)
  case badBoot => exact next_served rfl ha (setWriteEff_badBoot hb (hlive _) hk rfl hok)
  case save =>
    intro tx ha h0 h2 ho m
    have hopen := (begun_open setPresetSaveRow t d s).trans ho
    have hm : (if tx.ops.isEmpty then smErase (fieldU p 0 2) x.presets else smPut (fieldU p 0 2) tx.ops x.presets) = m :=
      if_congr List.isEmpty_iff rfl rfl
    exact ⟨fun hp => next_served rfl ha (setPresetSaveEff_fits h0 h2 hopen (hlive _) hm hp),
      fun hp => next_served rfl ha (setPresetSaveEff_full h0 h2 hopen (hlive _) hm hp)⟩
  case now =>
    have hos := congrArg (fun y : Sections => y.preset (fieldU p 0 2)) (hlive setPresetLoadRow)
    exact next_answered rfl ha ((setPresetLoadEff_now hb hos hne hm).trans (admitAt_ok .ok h))
  case timed =>
    have hos := congrArg (fun y : Sections => y.preset (fieldU p 0 2)) (hlive setPresetLoadRow)
    exact next_answered rfl ha ((setPresetLoadEff_timed hb hos hne hm he).trans (admitAt_ok .accepted h))
  case starts => exact exec_settingsWriteStart_starts t ht rfl ha hc hp ho hw
  case idle => exact exec_settingsWriteStart_idle t ht hp
  case early => exact exec_settingsWriteStart_early t ht
  case written => exact exec_settingsWriteComplete_writing t ha hs hw
  case notWriting => exact exec_settingsWriteComplete_idle t hs

end Sys2Proof.Proofs
end

section
/-! Proofs of the statements about access control, attestation and the service plane (file 15). -/
namespace Sys2Proof.Proofs
open Sys2Proof Sys2Proof.Machine Sys2Proof.Laws

/-! ### What decides the work of a command at its start -/

theorem begun_hasPassword (r : OpRow) (t : Nat) (d : Datagram) (s : State) : (s.begun r t d).dev.hasPassword = s.dev.hasPassword := by
  rw [Dev.hasPassword, begun_settings, Dev.hasPassword]

theorem begun_passwordFree (r : OpRow) (t : Nat) (d : Datagram) (s : State) : (s.begun r t d).dev.passwordFree = s.dev.passwordFree := by
  rw [Dev.passwordFree, begun_hasPassword, begun_sec, Dev.passwordFree]

theorem begun_backingOff (r : OpRow) (t : Nat) (d : Datagram) (s : State) : (s.begun r t d).dev.backingOff = (s.arrive t).dev.backingOff := by
  rw [Dev.backingOff, begun_sec, begun_clk]
  rfl

theorem begun_writeReady (r : OpRow) (t : Nat) (d : Datagram) (s : State) : (s.begun r t d).dev.writeReady = (s.arrive t).dev.writeReady := by
  rw [Dev.writeReady, begun_settings, begun_clk]
  rfl

section Work
variable {d : Datagram} {s : State}

/-! ### The work of SEC.UNLOCK (R497, R498) -/

section Password
variable (hb : unlockPasswordBad d.params = none) (hp : s.dev.hasPassword = true)
include hb hp

theorem secUnlockPasswordEff_backoff (ho : s.dev.backingOff = true) :
    secUnlockPasswordEff d s = (s.onDev fun v => v, .fail (plainFail .backoff)) := by
  simp only [secUnlockPasswordEff, hb, hp, ho, Bool.not_true, Bool.false_eq_true, if_false, if_true, onDev_id]

section Judged
variable {x : Sections} (ho : s.dev.backingOff = false) (hx : s.dev.settings.live = x)
include ho hx

theorem secUnlockPasswordEff_right (h : fitBytes 32 (Config.shake256 (x.salt ++ sliceB d.params 8 (fieldU d.params 2 1))) = x.hash) :
    secUnlockPasswordEff d s = (s.onDev fun v => (v.onSec fun q => { q with failures := 0, backoffLen := 0 }).openPlane
      (fieldU d.params 1 1) (fieldU d.params 4 4), .ok []) := by
  simp only [secUnlockPasswordEff, hb, hp, ho, hx, Bool.not_true, Bool.false_eq_true, if_false, beq_iff_eq, if_pos h]

theorem secUnlockPasswordEff_wrong (h : ¬ fitBytes 32 (Config.shake256 (x.salt ++ sliceB d.params 8 (fieldU d.params 2 1))) = x.hash) :
    secUnlockPasswordEff d s = (s.onDev (Dev.wrongPassword (fieldU d.params 1 1)), .fail (plainFail .authFailed)) := by
  simp only [secUnlockPasswordEff, hb, hp, ho, hx, Bool.not_true, Bool.false_eq_true, if_false, beq_iff_eq, if_neg h]

end Judged
end Password

theorem secUnlockResponseEff_bad {o : Nat} (hb : unlockResponseBad d.params = some o) :
    secUnlockResponseEff d s = (s.onDev fun v => v.onSec fun q => { q with challenge := none }, .fail (badField o)) := by
  simp only [secUnlockResponseEff, hb]

section Response
variable (hb : unlockResponseBad d.params = none)
include hb

theorem secUnlockResponseEff_verified (h : s.dev.responseOk d.params = true) : secUnlockResponseEff d s =
    (s.onDev fun v => (v.onSec fun q => { q with challenge := none }).openPlane (fieldU d.params 1 1) (fieldU d.params 4 4), .ok []) := by
  simp only [secUnlockResponseEff, hb, if_pos h]
  rfl

theorem secUnlockResponseEff_unverified (h : ¬ s.dev.responseOk d.params = true) : secUnlockResponseEff d s =
    (s.onDev fun v => (v.onSec fun q => { q with challenge := none }).secEvent 2 (fieldU d.params 1 1), .fail (plainFail .authFailed)) := by
  simp only [secUnlockResponseEff, hb, if_neg h]
  rfl

end Response

/-! ### The work of SEC.PASSWORD and SEC.CHALLENGE (R496, R497) -/

/-- A password is set with a salt and a hash, for which one random value was drawn (R496). -/
def setPassword (salt hash : List Byte) (v : Dev) : Dev :=
  ((v.onSec fun q => { q with draws := q.draws + 1 }).changeSettings fun y => { y with salt := salt, hash := hash }).secEvent 4 v.sec.scope

section SetPassword
variable (hb : passwordBad true d.params = none)
include hb

theorem secPasswordSetEff_free {n : Nat} (hn : s.dev.sec.draws = n) (hf : s.dev.passwordFree = true) : secPasswordSetEff d s =
    (s.onDev (setPassword (fitBytes 16 (Config.random n))
      (fitBytes 32 (Config.shake256 (fitBytes 16 (Config.random n) ++ sliceB d.params 4 (fieldU d.params 1 1))))), .ok []) := by
  simp only [secPasswordSetEff, hb, hn, hf, Bool.not_true, Bool.false_eq_true, if_false]
  rfl

theorem secPasswordSetEff_locked (hf : s.dev.passwordFree = false) :
    secPasswordSetEff d s = (s.onDev fun v => v, .fail (plainFail .locked)) := by
  simp only [secPasswordSetEff, hb, hf, Bool.not_false, if_true, onDev_id]

end SetPassword

theorem secPasswordClearEff_free (hb : passwordBad false d.params = none) (hf : s.dev.passwordFree = true) : secPasswordClearEff d s =
    (s.onDev fun v => (v.changeSettings fun y => { y with salt := [], hash := [] }).secEvent 5 v.sec.scope, .ok []) := by
  simp only [secPasswordClearEff, hb, hf, Bool.not_true, Bool.false_eq_true, if_false]

theorem secChallengeEff_eq {n : Nat} (hn : s.dev.sec.draws = n) : secChallengeEff d s =
    (s.onDev fun v => v.onSec fun q => { q with draws := q.draws + 1, challenge := some (fitBytes 32 (Config.random n), v.clk.now) },
      .ok (fitBytes 32 (Config.random n) ++ fitBytes 16 serialBytes ++ identityHash)) := by
  subst hn
  rfl

/-! ### The work of SEC.ATTEST (R501, R502) -/

section Attest
variable (h32 : fieldU d.params 32 4 = 0) (hr : s.dev.settings.live.retired = false)
include h32 hr

theorem secAttestEff_reserved (hi : s.dev.sec.nextIndex < s.dev.settings.live.reservedEnd) :
    secAttestEff d s = (s.onDev (Dev.signReport (d.params.take 32)), attestReply) := by
  have hb : firstBad [⟨32, 4, .reserved, []⟩] d.params = none := firstBad_cons (ok_reserved h32) rfl
  simp only [secAttestEff, hb, hr, Bool.false_eq_true, if_false, if_pos hi]

section Exhausted
variable (hi : s.dev.settings.live.reservedEnd ≤ s.dev.sec.nextIndex)
include hi

theorem secAttestEff_exhausted : secAttestEff d s = if !s.dev.writeReady then (s, .fail (plainFail .busy)) else
    (s.onDev fun v => (v.changeSettings fun y => { y with reservedEnd := v.sec.nextIndex + 1024 }).startWrite, .later .attest) := by
  have hb : firstBad [⟨32, 4, .reserved, []⟩] d.params = none := firstBad_cons (ok_reserved h32) rfl
  simp only [secAttestEff, hb, hr, Bool.false_eq_true, if_false, if_neg (Nat.not_lt.mpr hi)]

theorem secAttestEff_reserves (hw : s.dev.writeReady = true) : secAttestEff d s =
    (s.onDev fun v => (v.changeSettings fun y => { y with reservedEnd := v.sec.nextIndex + 1024 }).startWrite, .later .attest) := by
  rw [secAttestEff_exhausted h32 hr hi, hw, Bool.not_true, if_neg Bool.false_ne_true]

theorem secAttestEff_busy (hw : s.dev.writeReady = false) : secAttestEff d s = (s.onDev fun v => v, .fail (plainFail .busy)) := by
  rw [secAttestEff_exhausted h32 hr hi, hw, Bool.not_false, if_pos rfl, onDev_id]

end Exhausted
end Attest
end Work

/-! ### The timers of the service plane (R495, R497, R498) -/

section Timers
variable {s : State} (t : Nat)

theorem actsAt_nonceExpiry {nonce : List Byte} {issued : Nat} (hc : s.dev.sec.challenge = some (nonce, issued)) :
    ActsAt s t (.nonceExpiry t) (300 * secQ + issued) fun v => v.onSec fun q => { q with challenge := none } := by
  refine actsAt_of_due (g := Dev.onSec fun q => { q with challenge := none }) ?_ rfl
  show execNonceExpiry t s = _
  simp only [execNonceExpiry, hc]

theorem exec_nonceExpiry_none (hc : s.dev.sec.challenge = none) : exec (.nonceExpiry t) s = .next (s.arrive t) := by
  show execNonceExpiry t s = _
  simp only [execNonceExpiry, hc]

theorem actsAt_backoffEnd {e : Nat} (he : s.dev.sec.backoff = some e) :
    ActsAt s t (.backoffEnd t) e fun v => v.onSec fun q => { q with backoff := none } := by
  refine actsAt_of_due (g := Dev.onSec fun q => { q with backoff := none }) ?_ rfl
  show execBackoffEnd t s = _
  simp only [execBackoffEnd, he]

theorem exec_backoffEnd_none (he : s.dev.sec.backoff = none) : exec (.backoffEnd t) s = .next (s.arrive t) := by
  show execBackoffEnd t s = _
  simp only [execBackoffEnd, he]

theorem actsAt_servicePlaneExpiry (hs : s.dev.sec.scope ≠ 0) : ActsAt s t (.servicePlaneExpiry t) s.dev.sec.openUntil Dev.sealPlane :=
  actsAt_of_due (congrArg Host.Outcome.next (if_pos (bne_iff_ne.mpr hs))) rfl

theorem exec_servicePlaneExpiry_sealed (hs : s.dev.sec.scope = 0) : exec (.servicePlaneExpiry t) s = .next (s.arrive t) :=
  congrArg Host.Outcome.next (if_neg (by rw [bne_iff_ne]; exact fun h => h hs))

end Timers

/-- Settles O56, command by command: the work finds the password, the challenge and the indices of before, and each timer acts as of its
instant. -/
theorem securityCommandsRun : Obligations.SecurityCommandsRun := by
  intro s t d x
  have hlive : ∀ r : OpRow, (s.begun r t d).dev.settings.live = x := fun r => congrArg SettingsSt.live (begun_settings ..)
  refine ⟨fun ha => ?status, fun ha hb hp => ⟨fun ho => ?backoff, fun ho h => ?right, fun ho h => ?wrong⟩,
    ⟨fun o ha hb => ?badResponse, fun ha hb => ?response⟩, fun ha => ?seals, fun ha hb => ⟨fun hf => ?sets, fun hf => ?locked⟩, fun ha hb hf => ?clears,
    fun ha => ?challenge, fun ha h32 hr => ?attest, fun nonce issued hc => (actsAt_nonceExpiry t hc).symm, fun e he => (actsAt_backoffEnd t he).symm,
    fun hs => (actsAt_servicePlaneExpiry t hs).2, ?stays, exec_nonceExpiry_none t, exec_backoffEnd_none t⟩
  case status => exact next_served_read (fun v => .ok (secRecord v)) rfl ha rfl
  case backoff =>
    exact next_served rfl ha (secUnlockPasswordEff_backoff hb ((begun_hasPassword ..).trans hp) ((begun_backingOff ..).trans ho))
  case right =>
    exact next_served rfl ha (secUnlockPasswordEff_right hb ((begun_hasPassword ..).trans hp) ((begun_backingOff ..).trans ho) (hlive _) h)
  case wrong =>
    exact next_served rfl ha (secUnlockPasswordEff_wrong hb ((begun_hasPassword ..).trans hp) ((begun_backingOff ..).trans ho) (hlive _) h)
  case badResponse => exact next_served rfl ha (secUnlockResponseEff_bad hb)
  case response =>
    split
    · next h => exact next_served rfl ha (secUnlockResponseEff_verified hb h)
    · next h => exact next_served rfl ha (secUnlockResponseEff_unverified hb h)
  case seals => exact next_served rfl ha rfl
  case sets =>
    exact next_served (f := setPassword _ _) rfl ha
      (secPasswordSetEff_free hb (congrArg SecSt.draws (begun_sec ..)) ((begun_passwordFree ..).trans hf))
  case locked => exact next_served rfl ha (secPasswordSetEff_locked hb ((begun_passwordFree ..).trans hf))
  case clears => exact next_served rfl ha (secPasswordClearEff_free hb ((begun_passwordFree ..).trans hf))
  case challenge => exact next_served rfl ha (secChallengeEff_eq (congrArg SecSt.draws (begun_sec ..)))
  case attest =>
    have hr' : (s.begun secAttestRow t d).dev.settings.live.retired = false := by rw [hlive]; exact hr
    exact ⟨fun hi => next_served rfl ha (secAttestEff_reserved h32 hr' (by rw [hlive, begun_sec]; exact hi)),
      fun hi hw => next_served rfl ha (secAttestEff_reserves h32 hr' (by rw [hlive, begun_sec]; exact hi) ((begun_writeReady ..).trans hw)),
      fun hi hw => next_served rfl ha (secAttestEff_busy h32 hr' (by rw [hlive, begun_sec]; exact hi) ((begun_writeReady ..).trans hw))⟩
  case stays =>
    intro h
    by_cases hs : s.dev.sec.scope = 0
    · exact exec_servicePlaneExpiry_sealed t hs
    · exact (actsAt_servicePlaneExpiry t hs).1 (h.resolve_left hs)

/-! ### The work of the SVC. commands (R500) -/

section Work
variable {d : Datagram} {s : State}

theorem svcRegReadEff_good (hb : svcRegBad d.params = none) : svcRegReadEff d s = (s.onDev fun v => v,
    .ok ((List.range (fieldU d.params 4 2)).flatMap fun i => toBE 4 (s.dev.cfgWord (fieldU d.params 0 4 + 4 * i)).toNat)) := by
  simp only [svcRegReadEff, hb, onDev_id]

/-- The CFG registers after a write of the words of some parameters, each to its address (R500). -/
def regsWritten (p : List Byte) (m : SMap (BitVec 32)) : SMap (BitVec 32) :=
  (List.range (fieldU p 4 2)).foldl (fun m i => smPut (fieldU p 0 4 + 4 * i) (BitVec.ofNat 32 (fieldU p (8 + 4 * i) 4)) m) m

theorem svcRegWriteEff_good (hb : svcRegBad d.params = none) : svcRegWriteEff d s =
    (s.onDev (Dev.onSec fun q => { q with cfgTouched := true, cfgRegs := regsWritten d.params q.cfgRegs }), .ok []) := by
  simp only [svcRegWriteEff, hb]
  rfl

section Lane
variable (hb : svcLaneBad d.params = none)
include hb

theorem svcEyeEff_good : svcEyeEff d s = (s.onDev fun v => { v with draws := v.draws + 2048 },
    .ok ((List.range 2048).flatMap fun i => toBE 4 (Config.freeNat (s.dev.draws + i) % 10000001))) := by
  simp only [svcEyeEff, hb]

theorem svcMarginEff_good : svcMarginEff d s = (s.onDev fun v => { v with draws := v.draws + 4 },
    .ok ((List.range 4).flatMap fun i => toBE 2 (Config.freeNat (s.dev.draws + i)))) := by
  simp only [svcMarginEff, hb]

end Lane
end Work

/-! ### The TAP (R544) -/

section Tap
variable {s : State} (t : Nat) {ir : Nat} (tdi : List Bool)

theorem exec_jtagTapAccess_closed (h : 2 ≤ ir) (hs : s.dev.sec.scope.testBit 2 = false) : exec (.jtagTapAccess t ir tdi) s =
    .next (s.happens t fun v => (v.onSec fun q => { q with tapIr := 1 }).emit (.tdo (v.tapOut ir tdi))) := by
  have h0 : ir ≠ 0 := by omega
  refine congrArg Host.Outcome.next (arrive_onDev_congr ?_)
  simp only [Dev.arrive_sec, hs, if_neg h0, Bool.and_false, Bool.false_eq_true, if_false]

theorem exec_jtagTapAccess_open (h : 2 ≤ ir) (hs : s.dev.sec.scope.testBit 2 = true) : exec (.jtagTapAccess t ir tdi) s =
    .next (s.happens t fun v =>
      ({ v.onSec fun q => { q with tapIr := 2 } with draws := v.draws + tdi.length }).emit (.tdo (v.tapOut ir tdi))) := by
  have h0 : ir ≠ 0 := by omega
  refine congrArg Host.Outcome.next (arrive_onDev_congr ?_)
  simp only [Dev.arrive_sec, hs, if_neg h0, ge_iff_le, h, decide_true, Bool.and_self, if_true]
  rfl

end Tap

/-- Settles O57: the work of each command is its reply or its one change, and the instruction with the JTAG scope decides the TAP. -/
theorem servicePlaneRuns : Obligations.ServicePlaneRuns := by
  intro s t d p
  refine ⟨fun ha hb => ?read, fun ha hb => ?write, fun ha hb => ?eye, fun ha hb => ?margin,
    fun tdi => ⟨rfl, rfl, fun ir h => ⟨exec_jtagTapAccess_closed t tdi h, exec_jtagTapAccess_open t tdi h⟩⟩⟩
  case read =>
    exact next_served_read (fun v => .ok ((List.range (fieldU p 4 2)).flatMap fun i => toBE 4 (v.cfgWord (fieldU p 0 4 + 4 * i)).toNat)) rfl ha
      (svcRegReadEff_good hb)
  case write => exact next_served (f := Dev.onSec fun q => { q with cfgTouched := true, cfgRegs := regsWritten p q.cfgRegs }) rfl ha (svcRegWriteEff_good hb)
  case eye =>
    exact next_served_read (fun v => .ok ((List.range 2048).flatMap fun i => toBE 4 (Config.freeNat (v.draws + i) % 10000001))) rfl ha
      (svcEyeEff_good hb)
  case margin =>
    exact next_served_read (fun v => .ok ((List.range 4).flatMap fun i => toBE 2 (Config.freeNat (v.draws + i)))) rfl ha (svcMarginEff_good hb)

end Sys2Proof.Proofs
end

section
/-! Proof of the statement about power (file 16). -/
namespace Sys2Proof.Proofs
open Sys2Proof Sys2Proof.Machine Sys2Proof.Laws

/-! ### What decides the work of a command at its start -/

theorem begun_domainOff (r : OpRow) (t : Nat) (d : Datagram) (s : State) (n : Nat) : (s.begun r t d).dev.domainOff n = s.dev.domainOff n := by
  rw [Dev.domainOff, begun_pow, Dev.domainOff]

theorem begun_mediaOn (r : OpRow) (t : Nat) (d : Datagram) (s : State) : (s.begun r t d).dev.mediaOn = s.dev.mediaOn := by
  rw [Dev.mediaOn, begun_pow, begun_fw]
  rfl

theorem begun_commits (r : OpRow) (t : Nat) (d : Datagram) (s : State) : (s.begun r t d).dev.daond.commits = s.dev.daond.commits := by
  obtain ⟨l, h⟩ := begun_eq r t d s
  rw [h]

section Work
variable {d : Datagram} {s : State}

/-! ### The work of POWER.DOMAIN (R507, R508) -/

section Domain
variable {on : Bool} (hb : powerDomainBad d.params = none)
include hb

theorem powerDomainEff_same (ho : s.dev.domainOff (fieldU d.params 0 1) ≠ on) : powerDomainEff on d s = (s.onDev fun v => v, .ok []) := by
  simp only [powerDomainEff, hb, bne_iff_ne, if_pos ho, onDev_id]

section Switch
variable (ho : s.dev.domainOff (fieldU d.params 0 1) = on)
include ho

/-- A domain that is to switch does so while nothing keeps it on: later awake, at once in sleep. -/
theorem powerDomainEff_free (hf : on = true ∨ s.dev.domainServes (fieldU d.params 0 1) = none) : powerDomainEff on d s =
    if s.dev.mediaOn then (s, .later (.domain (fieldU d.params 0 1))) else (s.switchDomain (fieldU d.params 0 1) on, .ok []) := by
  have hnone : (if on then none else s.dev.domainServes (fieldU d.params 0 1)) = none := by
    obtain rfl | hf := hf
    · rfl
    · rw [hf, ite_self]
  simp only [powerDomainEff, hb, ho, hnone, bne_self_eq_false, Bool.false_eq_true, if_false]

theorem powerDomainEff_awake (hf : on = true ∨ s.dev.domainServes (fieldU d.params 0 1) = none) (hm : s.dev.mediaOn = true) :
    powerDomainEff on d s = (s.onDev fun v => v, .later (.domain (fieldU d.params 0 1))) := by
  rw [powerDomainEff_free hb ho hf, if_pos hm, onDev_id]

theorem powerDomainEff_asleep (hf : on = true ∨ s.dev.domainServes (fieldU d.params 0 1) = none) (hm : s.dev.mediaOn = false) :
    powerDomainEff on d s = (s.switchDomain (fieldU d.params 0 1) on, .ok []) := by
  rw [powerDomainEff_free hb ho hf, hm, if_neg Bool.false_ne_true]

theorem powerDomainEff_serving {k x : Nat} (hoff : on = false) (hs : s.dev.domainServes (fieldU d.params 0 1) = some (k, x)) :
    powerDomainEff on d s = (s.onDev fun v => v, .fail (busyWith k x)) := by
  subst hoff
  simp only [powerDomainEff, hb, ho, hs, bne_self_eq_false, Bool.false_eq_true, if_false, onDev_id]

end Switch
end Domain

/-- The record of a domain (R507). -/
def domainRecord (n : Nat) (v : Dev) : List Byte := toBE 1 n ++ toBE 1 (if v.domainOff n then 0 else 1) ++ zeros 6

theorem powerDomainReadEff_good (hb : powerDomainBad d.params = none) :
    powerDomainReadEff d s = (s.onDev fun v => v, .ok (domainRecord (fieldU d.params 0 1) s.dev)) := by
  have hcode : ∀ b : Bool, b01 (!b) = if b then 0 else 1 := fun b => by cases b <;> rfl
  simp only [powerDomainReadEff, hb, hcode, domainRecord, onDev_id]

/-! ### The work of POWER.SLEEP and SYS.WAKE (R511, R514, R525) -/

section Sleep
variable (h0 : fieldU d.params 0 8 = 0)
include h0

theorem powerSleepEff_asleep (hp : s.dev.pow.phase = .asleep) : powerSleepEff d s = (s.onDev fun v => v, .ok []) := by
  have hb : firstBad [⟨0, 8, .reserved, []⟩] d.params = none := firstBad_cons (ok_reserved h0) rfl
  simp only [powerSleepEff, hb, hp, beq_self_eq_true, if_true, onDev_id]

section Awake
variable (hp : s.dev.pow.phase = .running) (hc : ∀ c ∈ s.dev.daond.commits, c.left = [])
include hp hc

theorem powerSleepEff_starts (hg : s.dev.daond.prepared = []) : powerSleepEff d s = (s.onDev Dev.startSleep, .later .sleep) := by
  have hb : firstBad [⟨0, 8, .reserved, []⟩] d.params = none := firstBad_cons (ok_reserved h0) rfl
  have hnone : s.dev.daond.commits.flatMap (·.left) = [] := List.flatMap_eq_nil_iff.mpr hc
  simp only [powerSleepEff, hb, hp, hnone, hg, List.head?_nil]
  rfl

theorem powerSleepEff_prepared {g : Prepared} {r : List Prepared} (hg : s.dev.daond.prepared = g :: r) :
    powerSleepEff d s = (s.onDev fun v => v, .fail (busyWith 21 g.groupId)) := by
  have hb : firstBad [⟨0, 8, .reserved, []⟩] d.params = none := firstBad_cons (ok_reserved h0) rfl
  have hnone : s.dev.daond.commits.flatMap (·.left) = [] := List.flatMap_eq_nil_iff.mpr hc
  simp only [powerSleepEff, hb, hp, hnone, hg, List.head?_nil, List.head?_cons]
  rfl

end Awake
end Sleep

theorem sysWakeEff_asleep (hp : s.dev.pow.phase = .asleep) :
    sysWakeEff d s = if s.dev.pow.hold then (s, .fail (busyWith 0 0)) else (s.onDev Dev.startWake, .later .wake) := by
  simp only [sysWakeEff, hp]

theorem sysWakeEff_starts (hp : s.dev.pow.phase = .asleep) (hh : s.dev.pow.hold = false) :
    sysWakeEff d s = (s.onDev Dev.startWake, .later .wake) := by
  rw [sysWakeEff_asleep hp, hh, if_neg Bool.false_ne_true]

theorem sysWakeEff_held (hp : s.dev.pow.phase = .asleep) (hh : s.dev.pow.hold = true) :
    sysWakeEff d s = (s.onDev fun v => v, .fail (busyWith 0 0)) := by
  rw [sysWakeEff_asleep hp, if_pos hh, onDev_id]

theorem sysWakeEff_under_way (hp : s.dev.pow.phase = .entering ∨ s.dev.pow.phase = .waking) :
    sysWakeEff d s = (s.onDev fun v => v, .later .wake) := by
  obtain hp | hp := hp <;> simp only [sysWakeEff, hp, onDev_id]

theorem sysWakeEff_running (hp : s.dev.pow.phase = .running) : sysWakeEff d s = (s.onDev fun v => v, .ok []) := by
  simp only [sysWakeEff, hp, onDev_id]

end Work

/-- A POWER.DOMAIN on or off of a row `r` that serves it: what the state of the domain and the units that it serves decide. -/
theorem exec_powerDomain {s : State} {t : Nat} {d : Datagram} {on : Bool} {i : Instr} {r : OpRow}
    (e : exec i s = .next (serve r i t d (powerDomainEff on) s)) (ha : s.Admits r d) (hb : powerDomainBad (r.apply d).params = none) :
    let n := fieldU (r.apply d).params 0 1
    (s.dev.domainOff n ≠ on → exec i s = .next (s.served r t d (fun v => v) fun _ => .ok [])) ∧
    (s.dev.domainOff n = on → on = true ∨ (s.begun r t d).dev.domainServes n = none →
      (s.dev.mediaOn = true → exec i s = .next (s.served r t d (fun v => v) fun _ => .later (.domain n))) ∧
      (s.dev.mediaOn = false → exec i s = .next (((s.begun r t d).switchDomain n on).answered r s.me d (.ok [])))) ∧
    ∀ k x, s.dev.domainOff n = on → on = false → (s.begun r t d).dev.domainServes n = some (k, x) →
      exec i s = .next (s.served r t d (fun v => v) fun _ => .fail (busyWith k x)) :=
  ⟨fun ho => next_served e ha (powerDomainEff_same hb (by rw [begun_domainOff]; exact ho)),
    fun ho hf => ⟨fun hm => next_served e ha (powerDomainEff_awake hb ((begun_domainOff ..).trans ho) hf ((begun_mediaOn ..).trans hm)),
      fun hm => next_answered e ha (powerDomainEff_asleep hb ((begun_domainOff ..).trans ho) hf ((begun_mediaOn ..).trans hm))⟩,
    fun _ _ ho hoff hs => next_served e ha (powerDomainEff_serving hb ((begun_domainOff ..).trans ho) hoff hs)⟩

/-! ### What completes a command that waits (R507, R512, R514) -/

section Ends
variable {s : State} (t : Nat)

theorem exec_sleepEntryComplete_entering (hp : s.dev.pow.phase = .entering) :
    exec (.sleepEntryComplete t) s = .next (s.happens (min t (s.dev.pow.sleepReqT + 50 * msQ)) Dev.sleepDone).resume := by
  show execSleepEntryComplete t s = _
  rw [execSleepEntryComplete, if_pos (beq_iff_eq.mpr hp), State.within, State.happens]

theorem exec_sleepEntryComplete_other (hp : s.dev.pow.phase ≠ .entering) : exec (.sleepEntryComplete t) s = .next (s.arrive t) :=
  congrArg Host.Outcome.next (if_neg (by rwa [beq_iff_eq]))

theorem exec_wakeComplete_waking (hp : s.dev.pow.phase = .waking) :
    exec (.wakeComplete t) s = .next (s.happens (min t (s.dev.pow.wakeReqT + 120 * msQ)) Dev.wakeDone).resume :=
  congrArg Host.Outcome.next (if_pos (beq_iff_eq.mpr hp))

theorem exec_wakeComplete_other (hp : s.dev.pow.phase ≠ .waking) : exec (.wakeComplete t) s = .next (s.arrive t) :=
  congrArg Host.Outcome.next (if_neg (by rwa [beq_iff_eq]))

theorem switchTime_eq (n : Nat) (on : Bool) : switchTime n on = if on then if n < 8 then 500 * msQ else 20 * msQ else 5 * msQ := by
  cases on <;> rfl

/-- The deferred command that waits for a domain completes with the state that it asks for. -/
theorem domainDone_of_find {n : Nat} {x : Deferred} (h : s.dev.daond.deferred.find? (fun x => x.kind == DeferKind.domain n) = some x) :
    s.domainDone n = (s.switchDomain n (fieldU x.dgram.params 1 1 == 0)).onDev (Dev.complete (· == DeferKind.domain n) (.ok [])) := by
  rw [State.domainDone, h]

theorem exec_domainSwitched_waiting {n : Fin 30} {x : Deferred} (ha : s.dev.alive = true)
    (h : s.dev.daond.deferred.find? (fun x => x.kind == DeferKind.domain n) = some x) : exec (.domainSwitched t n) s =
      .next ((s.arrive (min t (x.since + switchTime n (fieldU x.dgram.params 1 1 == 0)))).domainDone n).resume := by
  show execDomainSwitched t n s = _
  simp only [execDomainSwitched, h, ha, if_true]
  rfl

theorem exec_domainSwitched_none {n : Fin 30} (h : s.dev.daond.deferred.find? (fun x => x.kind == DeferKind.domain n) = none) :
    exec (.domainSwitched t n) s = .next (s.arrive t) := by
  show execDomainSwitched t n s = _
  simp only [execDomainSwitched, h]

/-! ### Critical temperature (R522) -/

theorem actsAt_thermalCritical {w : Nat} (hw : s.dev.pow.hotSince = some w) (ha : s.dev.alive = true) (hh : s.dev.pow.hold = false) :
    ActsAt s t (.thermalCritical t) (10 * msQ + w) Dev.critical := by
  refine actsAt_of_due (g := Dev.critical) ?_ rfl
  show execThermalCritical t s = _
  simp only [execThermalCritical, hw, ha, hh, Bool.not_false, Bool.and_self, if_true]

theorem exec_thermalCritical_ignored (h : s.dev.pow.hotSince = none ∨ s.dev.pow.hold = true) :
    exec (.thermalCritical t) s = .next (s.arrive t) := by
  show execThermalCritical t s = _
  rw [execThermalCritical]
  split
  · next w hw =>
    obtain h | h := h
    · exact absurd (hw.symm.trans h) (Option.some_ne_none w)
    · rw [h, Bool.not_true, Bool.and_false, if_neg Bool.false_ne_true]
  · rfl

end Ends

/-- Settles O58, command by command: the work finds the power state of before, and what completes a command comes within its time. -/
theorem powerCommandsRun : Obligations.PowerCommandsRun := by
  intro s t d
  refine ⟨fun ha => ?status, fun on i r h ha hb => ?domain, fun ha hb => ?read, fun ha h0 => ?sleep, fun ha => ?wake,
    exec_sleepEntryComplete_entering t, exec_sleepEntryComplete_other t, exec_wakeComplete_waking t, exec_wakeComplete_other t,
    fun n ha x hx => ?switched, fun n hx => exec_domainSwitched_none t hx, fun w hw ha hh => (actsAt_thermalCritical t hw ha hh).symm,
    exec_thermalCritical_ignored t⟩
  case status => exact next_served_read (fun v => .ok (powerRecord v)) rfl ha rfl
  case domain =>
    obtain h | h := h
    · obtain ⟨rfl, rfl, rfl⟩ := h
      exact exec_powerDomain rfl ha hb
    · obtain ⟨rfl, rfl, rfl⟩ := h
      exact exec_powerDomain rfl ha hb
  case read => exact next_served_read (fun v => .ok (domainRecord _ v)) rfl ha (powerDomainReadEff_good hb)
  case sleep =>
    have hpow := congrArg PowerSt.phase (begun_pow powerSleepRow t d s)
    have hleft : (∀ c ∈ s.dev.daond.commits, c.left = []) → ∀ c ∈ (s.begun powerSleepRow t d).dev.daond.commits, c.left = [] := by
      rw [begun_commits]
      exact id
    exact ⟨fun hp => next_served rfl ha (powerSleepEff_asleep h0 (hpow.trans hp)),
      fun hp hg hc => next_served rfl ha (powerSleepEff_starts h0 (hpow.trans hp) (hleft hc) ((begun_prepared ..).trans hg)),
      fun g r hp hg hc => next_served rfl ha (powerSleepEff_prepared h0 (hpow.trans hp) (hleft hc) ((begun_prepared ..).trans hg))⟩
  case wake =>
    have hpow := begun_pow sysWakeRow t d s
    exact ⟨fun hp hh => next_served rfl ha (sysWakeEff_starts (by rwa [hpow]) (by rwa [hpow])),
      fun hp hh => next_served rfl ha (sysWakeEff_held (by rwa [hpow]) (by rwa [hpow])),
      fun hp => next_served rfl ha (sysWakeEff_under_way (by rwa [hpow])),
      fun hp => next_served rfl ha (sysWakeEff_running (by rwa [hpow]))⟩
  case switched =>
    intro on len
    rw [exec_domainSwitched_waiting t ha hx, switchTime_eq, domainDone_of_find (s := s.arrive _) hx]

end Sys2Proof.Proofs
end

section
/-! Proof of the statement about reset, boot and the sensors (files 15, 16 and 17). -/
namespace Sys2Proof.Proofs
open Sys2Proof Sys2Proof.Machine Sys2Proof.Laws

/-! ### A reset of a device that is not in reset (R519) -/

section Once
variable {s : State} {cause : Nat}

theorem resetOnce_of_reset (h : s.dev.pow.phase = .reset) : s.resetOnce cause = s := if_pos (beq_iff_eq.mpr h)

theorem resetOnce_of_not_reset (h : s.dev.pow.phase ≠ .reset) : s.resetOnce cause = s.resetDevice cause := if_neg (by rwa [beq_iff_eq])

end Once

section Happenings
variable {s : State} (t : Nat)

/-! ### RESET_N, PWR_OK and OSC (R518 to R520, R548) -/

theorem exec_resetNRise_low (x : BitVec 8) (h : s.dev.pow.resetN = false) : exec (.resetNRise t x) s =
    .next (s.happens t fun v => (v.onPow fun p => { p with resetN := true, pwrOk := true, straps := x.toNat }).tryBoot) :=
  congrArg Host.Outcome.next (arrive_onDev_congr (if_neg (by rw [Dev.arrive_pow, h]; exact Bool.false_ne_true)))

theorem exec_resetNRise_high (x : BitVec 8) (h : s.dev.pow.resetN = true) : exec (.resetNRise t x) s = .next (s.arrive t) :=
  congrArg Host.Outcome.next (arrive_onDev_same (if_pos h))

theorem exec_resetNFall_glitch {w : Nat} (hw : w < 100) : exec (.resetNFall t w) s = .next (s.arrive t) :=
  congrArg Host.Outcome.next (if_pos (by rw [decide_eq_true hw, Bool.true_or]))

theorem exec_resetNFall_pulse {w : Nat} (hw : 1000 ≤ w) : exec (.resetNFall t w) s =
    .next (((s.arrive t).resetOnce 1).onDev fun v => v.onPow fun p => { p with resetN := false }) := by
  refine congrArg Host.Outcome.next (if_neg ?_)
  rw [decide_eq_false (by omega), decide_eq_false (by omega), Bool.false_and, Bool.or_self]
  exact Bool.false_ne_true

theorem exec_pwrOkFall_up (hr : s.dev.pow.resetN = true) : exec (.pwrOkFall t) s =
    .next (((s.arrive t).resetOnce 3).onDev fun v => v.onPow fun p => { p with pwrOk := false }) :=
  congrArg (fun u : State => Host.Outcome.next (u.onDev fun v => v.onPow fun p => { p with pwrOk := false })) (if_pos hr)

theorem exec_pwrOkFall_held (hr : s.dev.pow.resetN = false) :
    exec (.pwrOkFall t) s = .next ((s.arrive t).onDev fun v => v.onPow fun p => { p with pwrOk := false }) :=
  congrArg (fun u : State => Host.Outcome.next (u.onDev fun v => v.onPow fun p => { p with pwrOk := false }))
    (if_neg (by rw [State.arrive_dev, Dev.arrive_pow, hr]; exact Bool.false_ne_true))

theorem exec_oscLoss : exec (.oscLoss t) s = .next (((s.arrive t).resetOnce 3).onDev fun v => v.onPow fun p => { p with osc := false }) := rfl

/-! ### The end of the boot (R474) -/

theorem exec_bootReady_booting (hp : s.dev.pow.phase = .booting) (hb : s.dev.fw.bootOk = true) (hd : s.dev.fw.dead = false) :
    exec (.bootReady t) s = .next ((s.arrive (min t (s.dev.clk.riseT + 6 * secQ))).bootPreset.onDev Dev.ready) :=
  congrArg Host.Outcome.next (if_pos (by rw [hp, hb, hd]; rfl))

theorem exec_bootReady_other (hp : s.dev.pow.phase ≠ .booting) : exec (.bootReady t) s = .next (s.arrive t) :=
  congrArg Host.Outcome.next (if_neg (by rw [beq_false_of_ne hp, Bool.false_and, Bool.false_and]; exact Bool.false_ne_true))

/-! ### The sensors (R522) -/

/-- The readings of a sample are recorded. -/
def readSensors (die hbm : List Int) (v : Dev) : Dev := v.onPow fun p => { p with dieQ := readings 16 die, hbmQ := readings 4 hbm }

section Sample
variable {die hbm : List Int}

theorem sample_hot (hot : (readings 16 die ++ readings 4 hbm).any (fun x => decide (480 < x)) = true) : s.sample die hbm =
    ((s.onDev (readSensors die hbm)).resetOnce 2).onDev fun v => v.onPow fun p => { p with tripHold := true } :=
  if_pos hot

theorem sample_cool (hot : (readings 16 die ++ readings 4 hbm).any (fun x => decide (480 < x)) = false) (ha : s.dev.alive = true) :
    s.sample die hbm = (s.onDev (readSensors die hbm)).onDev Dev.thermalSample := by
  obtain ⟨hphase, -⟩ := Bool.and_eq_true_iff.mp ha
  refine (if_neg (ne_true_of_eq_false hot)).trans ((if_neg ?_).trans (if_pos ha))
  rw [beq_iff_eq]
  exact bne_iff_ne.mp hphase

end Sample

/-- The instant of the last sample is now. -/
def sampledNow (v : Dev) : Dev := v.onPow fun p => { p with sampleT := v.clk.now }

theorem exec_thermalSample (die hbm : List Int) :
    (t < s.dev.pow.sampleT + msQ → exec (.thermalSample t die hbm) s = .next (s.arrive t)) ∧
      (s.dev.pow.sampleT + msQ ≤ t → exec (.thermalSample t die hbm) s = .next ((s.happens (s.dev.pow.sampleT + msQ) sampledNow).sample die hbm)) :=
  exec_of_due (f := fun u => (u.onDev sampledNow).sample die hbm) rfl

end Happenings

/-- Settles O59, happening by happening: what resets the device does so once, and what else it does is one change of the device. -/
theorem resetAndBootRun : Obligations.ResetAndBootRun := by
  intro s t a
  refine ⟨fun x => ⟨exec_resetNRise_low t x, exec_resetNRise_high t x⟩, exec_bootReady_booting t, exec_bootReady_other t,
    fun w hw => exec_resetNFall_glitch t hw, fun w hw hp => ?resets, fun w hw hp => ?inReset, fun hr hp => ?powerLoss,
    exec_pwrOkFall_held t, fun hp => ?oscLoss, rfl, rfl, fun die hbm => (exec_thermalSample t die hbm).1,
    fun die hbm ht => ⟨fun hot hp => ?trips, fun hot ha => ?records⟩⟩
  case resets => rw [exec_resetNFall_pulse t hw, resetOnce_of_not_reset (s := s.arrive t) hp]
  case inReset => rw [exec_resetNFall_pulse t hw, resetOnce_of_reset (s := s.arrive t) hp]
  case powerLoss => rw [exec_pwrOkFall_up t hr, resetOnce_of_not_reset (s := s.arrive t) hp]
  case oscLoss => rw [exec_oscLoss t, resetOnce_of_not_reset (s := s.arrive t) hp]
  case trips =>
    rw [(exec_thermalSample t die hbm).2 ht, sample_hot hot,
      resetOnce_of_not_reset (s := (s.happens _ sampledNow).onDev (readSensors die hbm)) hp]
    rfl
  case records =>
    rw [(exec_thermalSample t die hbm).2 ht, sample_cool (s := s.happens _ sampledNow) hot ha]
    rfl

end Sys2Proof.Proofs
end
